-- ==== Sys2Proof/Word.lean ====
section
/-! DEFINITION. The word types: bytes as they travel on the bank line and stand in the configuration memory. -/

namespace Sys2Proof

/-- One byte of a frame or of the configuration memory. -/
abbrev Byte := BitVec 8

end Sys2Proof
end

