-- ==== Sys2Proof/Syntax.lean ====
section
/-! DEFINITION. The commands of the station: one constructor of `Instr` per row of spec/opcode_table.json, with
operands that say what the row's event carries (notes/assumptions/4.md). -/

namespace Sys2Proof

/-- Who made an offer (R16): the station's own transaction controller, or a peer by its address. -/
inductive Payer
  | loc
  | peer (address : Nat)
  deriving DecidableEq, Repr

/-- The three load classes of R153. -/
inductive LoadClass
  | vendMotor
  | compressor
  | defrostHeater
  deriving DecidableEq, Repr

/-- A power figure as the line and the configuration carry it: a value 0 to 255 with a scale code 0 to 3 (00 Power). -/
structure Fig where
  value : Nat
  scale : Nat
  deriving DecidableEq, Repr

/-- The path a validator reports for a coin (R58). -/
inductive CoinPath
  | tube
  | cashbox
  deriving DecidableEq, Repr

/-- The two sensors of a change tube. -/
inductive TubeSensor
  | low
  | full
  deriving DecidableEq, Repr

/-- The three temperature sensors of 08. -/
inductive SensorName
  | air
  | coil
  | cond
  deriving DecidableEq, Repr

/-- The payload of a DECLARE (R171, code 8). -/
structure DeclareFields where
  role : Nat
  letter : Nat
  declaredMax : Fig
  allowance : Fig
  base : Fig
  trayMap : Nat
  deriving DecidableEq, Repr

/-- The payload of a HEARTBEAT (R171, code 9), its first byte as its two codes. -/
structure HeartbeatFields where
  lineState : Nat
  faultLevel : Nat
  flags : Nat
  depth : Nat
  base : Fig
  vendMotor : Fig
  compressor : Fig
  heater : Fig
  attention : Nat
  deriving DecidableEq, Repr

/-- What the station meets at its load event (R198, R201): whether the memory acknowledged the reads of the image and
of the saved block, the bytes the external programmer has written since the last start, and the input levels read in
the start event (R55, R67, R190). Tube levels are listed for tubes 1 to 5, `true` for asserted. -/
structure LoadInputs where
  imageAck : Bool
  blockAck : Bool
  programmed : List (Nat × Byte)
  doorOpen : Bool
  beamBlocked : Bool
  tubeLow : List Bool
  tubeFull : List Bool
  deriving DecidableEq, Repr

/-- The commands: spec/opcode_table.json row by row. Frame rows carry the sender and destination addresses of the
head and route bytes (R170) and then the payload fields of R171. The rows of R39 and R41 carry the currents assessed
up to their event (R34), those of HOME, the tube sensors, COUT and the door how long the input has held its new level
(R35, R67, R98, R190, R175), in milliseconds. Of the line's bits
(R169, `true` for recessive) BAD_FRAME carries those received, TRANSMIT_START the number of recessive bit times before
it, LOST_CONTENTION the head byte that stands on the line. A default is the event as the table's summary has it. -/
inductive Instr
  | powerOn
  | resetInput
  | loadEvent (inp : LoadInputs)
  | powerFailWarning
  | savedBlockWritten (complete : Bool)
  | doorOpens (held : Nat := 100)
  | doorCloses (held : Nat := 100)
  | doorLeftOpen
  | claimTimerExpiry
  | homeOpens (held : Nat := 10)
  | homeCloses (held : Nat := 10)
  | leaveHomeTimerExpiry
  | revolutionTimerExpiry
  | dropWindowExpiry
  | jam (currents : List Nat := [])
  | shortCheck (currents : List Nat := [])
  | openCheck (currents : List Nat := [])
  | reversePauseEnd
  | reversingTimerExpiry
  | forwardPauseEnd
  | dropEdge
  | chuteActivityRateEnd
  | chuteFault
  | chuteFaultClear
  | commitTimerExpiry (payer : Payer) (tag : Nat)
  | offer (src dst tag tray column : Nat)
  | commit (src dst tag price : Nat)
  | withdraw (src dst tag : Nat)
  | accept (src dst tag price queuePos : Nat)
  | refuse (src dst tag reason : Nat)
  | result (src dst tag outcome drops : Nat)
  | claim (src dst cls rank value scale : Nat)
  | release (src dst cls : Nat)
  | declare (src dst : Nat) (fields : DeclareFields)
  | heartbeat (src dst : Nat) (fields : HeartbeatFields)
  | audit (src dst block : Nat) (content : List Byte)
  | auditQuery (src dst block : Nat)
  | auditQueryJournal (src dst block : Nat)
  | badFrame (bits : List Bool := [])
  | transmitStart (recessive : Nat := 10)
  | lostContention (head : Nat := 0)
  | transmitError
  | brxDominant (held : Nat := 10)
  | frameSent
  | listenTimerExpiry
  | silenceTimerExpiry
  | heartbeatTimerExpiry
  | probeTimerExpiry
  | declareTimerExpiry
  | declareDelayExpiry
  | peerSilent (address : Nat)
  | peerGone (address : Nat)
  | windowTimerExpiry
  | backoffTimerExpiry (cls : LoadClass)
  | starved (cls : LoadClass)
  | coin (coinType : Nat) (path : CoinPath)
  | reject
  | fault (code : Nat)
  | status (condition : Nat)
  | statusTimerExpiry
  | transmitterFree
  | tubeSensorChange (tube : Nat) (sensor : TubeSensor) (asserted : Bool) (held : Nat := 50)
  | coutEdge (held : Nat := 2)
  | pulseTimerExpiry
  | miss
  | pauseTimerExpiry
  | keyDigit (digit : Nat)
  | keyCab
  | keyClr
  | keyRet
  | keyNext
  | keyPrev
  | bufferTimeout
  | entryTimeout
  | answerTimerExpiry
  | resultTimerExpiry
  | inactivityTimeout
  | messageTimeEnd
  | displayAlternation
  | lampFlash
  | sensorSample (sensor : SensorName) (code : Nat)
  | minimumOffTimeEnd
  | inrushEnd
  | minimumOnTimeEnd
  | runHour
  | lockoutTimerExpiry
  | dutyTimerExpiry
  | runTime
  | coilIce
  | heaterWaitTimerExpiry
  | defrostTimerExpiry
  | dripTimerExpiry
  | coldHold
  | ackAttention
  | ackHold
  | fillTube (tube count : Nat)
  | emptyTube (tube : Nat)
  | clearTube (tube : Nat)
  | refill
  | clearSpiral (position : Nat)
  | testVend (position : Nat)
  | manualDefrost
  | clearCompressor
  | forgetPeers
  | restart
  | showAudit (item : Nat)
  | keyEnt
  | beamClears
  deriving DecidableEq, Repr

end Sys2Proof
end

