-- ==== Sys2Proof/Decode.lean ====
section
/-! DEFINITION. `decodeTableWord`: no row of spec/opcode_table.json gives bits (98_reader.md: n_rows_with_fixed 0), so
no word spells a command. The byte layout of bank-line frames (R170, R171) is Machine/Frames.lean. -/

namespace Sys2Proof

/-- The command that a word spells by the table's bits: none, because no row gives bits. -/
def decodeTableWord (_nbits _w : Nat) : Option Instr := none

end Sys2Proof
end

