-- ==== Sys2Proof/Config.lean ====
section
/-! DEFINITION. What is fixed for a machine: the settings of an installation as the configuration image gives them
(12 The configuration image), the lengths of the spec's timers in milliseconds, and the free values. -/

namespace Sys2Proof

/-- Station role (00 Station roles). -/
inductive Role
  | vendOnly
  | payment
  deriving DecidableEq, Repr

/-- A planogram record of the image (offset 38). -/
structure PlanRecord where
  fitted : Bool
  wide : Bool
  capacity : Nat
  price : Nat
  deriving DecidableEq, Repr

/-- An entry of the coin-type table (R57). -/
structure CoinType where
  value : Nat
  tube : Nat
  deriving DecidableEq, Repr

/-- An entry of the tube table (offset 310). -/
structure TubeSetting where
  fitted : Bool
  lowMark : Nat
  fullMark : Nat
  deriving DecidableEq, Repr

/-- A point of the sensor table (R130). -/
structure TablePoint where
  code : Nat
  temp : Int
  deriving DecidableEq, Repr

/-- The cooling settings (08 settings table), temperatures in tenths of a degree Celsius. -/
structure CoolingSettings where
  setpoint : Int
  differential : Nat
  condenserLimit : Int
  holdLimit : Int
  holdDelayMin : Nat
  inrushSec : Nat
  causeRunTime : Bool
  causeCoilIce : Bool
  causeDoorCount : Bool
  intervalHours : Nat
  doorLimit : Nat
  heaterMethod : Bool
  terminationTemp : Int
  maxDefrostMin : Nat
  table : List TablePoint
  deriving DecidableEq, Repr

/-- The settings of the station, every field of the configuration image. -/
structure Settings where
  address : Nat
  letter : Nat
  role : Role
  stationCount : Nat
  coolingFitted : Bool
  trayMap : Nat
  baseUnitCode : Nat
  decimals : Nat
  bankBudget : Nat
  base : Fig
  declaredMax : Fig
  allowance : Fig
  vendMotor : Fig
  inrush : Fig
  run : Fig
  heater : Fig
  timeoutCode : Nat
  multiVend : Bool
  guarantee : Bool
  extraTurns : Nat
  openThreshold : Nat
  jamThreshold : Nat
  shortThreshold : Nat
  creditLimit : Nat
  inactivitySec : Nat
  planogram : List PlanRecord
  coinTypes : List CoinType
  tubes : List TubeSetting
  cooling : CoolingSettings
  lampAdvisory : Bool
  lampDegraded : Bool
  lampOutOfService : Bool
  deriving DecidableEq, Repr

namespace Config

/-! ### Free values -/

/-- FREE VALUE (notes/assumptions/17.md): whether a yes/no byte of the configuration image that is neither 0 nor 1, and
that no validity rule checks, counts as yes. The image gives only 0 no and 1 yes. -/
opaque otherFlag : Nat → Bool

/-- FREE VALUE (notes/assumptions/18.md): how a code of the saved block that lies outside the codes R200's layout gives
is read, in a block whose check word agrees. -/
opaque otherCode : Nat → Nat

/-! ### Timer lengths, in milliseconds -/

/-- R37. -/
def claimTime : Nat := 15000
/-- R40. -/
def leaveHomeTime : Nat := 600
/-- R43. -/
def revolutionTime : Nat := 5000
/-- R44. -/
def dropWindow : Nat := 800
/-- R42: each of the two pauses. -/
def reversePause : Nat := 20
/-- R42. -/
def reversingTime : Nat := 400
/-- R41: current above the jam threshold for this long is a jam. -/
def jamTime : Nat := 150
/-- R39. -/
def shortCheckTime : Nat := 50
/-- R39. -/
def openCheckTime : Nat := 100
/-- R35: the beam is clear this long before a DROP edge. -/
def dropGap : Nat := 10
/-- R35: HOME holds a new level this long. -/
def homeHold : Nat := 10
/-- R67: a tube sensor holds a new level this long. -/
def tubeSensorHold : Nat := 50
/-- R98: COUT holds the blocked level this long. -/
def coutHold : Nat := 2
/-- R175: BRX reads dominant for this long at a line fault. -/
def dominantHold : Nat := 10
/-- R190: DOOR holds a new level this long. -/
def doorHold : Nat := 100
/-- R55. -/
def beamBlockedTime : Nat := 2000
/-- R55. -/
def beamClearTime : Nat := 5000
/-- R54, R136: the 60 minute span. -/
def hour : Nat := 3600000
/-- R21. -/
def commitTime : Nat := 2000
/-- R60. -/
def statusTime : Nat := 3500
/-- R96. -/
def pulseTime : Nat := 60
/-- R96. -/
def confirmTime : Nat := 150
/-- R99. -/
def missPause : Nat := 50
/-- R115. -/
def answerTime : Nat := 300
/-- R109: result timeout codes 0 to 3. -/
def resultTime (code : Nat) : Nat :=
  if code = 0 then 20000 else if code = 1 then 40000 else if code = 2 then 60000 else 120000
/-- R111; the time passes 10 s when it reaches them (notes/assumptions/31.md). -/
def bufferTime : Nat := 10000
/-- R191. -/
def entryTime : Nat := 30000
/-- R123: a message's time unless a rule gives another. -/
def messageTime : Nat := 2000
/-- R114: the time of EXACT. -/
def exactMessageTime : Nat := 3000
/-- R123, R191, R193: each display of an alternation. -/
def alternationTime : Nat := 1000
/-- R187. -/
def flashTime : Nat := 500
/-- R190. -/
def doorOpenTime : Nat := 600000
/-- R128. -/
def sampleTime : Nat := 1000
/-- R133. -/
def minimumOff : Nat := 180000
/-- R135. -/
def minimumOn : Nat := 60000
/-- R137. -/
def lockoutTime : Nat := 600000
/-- R138. -/
def dutyTime : Nat := 600000
/-- R140. -/
def iceTime : Nat := 900000
/-- R144. -/
def heaterWaitTime : Nat := 600000
/-- R146. -/
def dripTime : Nat := 120000
/-- R155; the waited time passes it when it reaches it (notes/assumptions/36.md). -/
def starveTime : Nat := 300000
/-- R169: in bit times: the line is idle once it has been recessive for so long. -/
def idleBits : Nat := 10
/-- R160. -/
def windowTime : Nat := 50
/-- R161. -/
def backoffTime (address : Nat) : Nat := 50 + 100 * address
/-- R178. -/
def listenTime : Nat := 1500
/-- R178. -/
def silenceTime : Nat := 5000
/-- R181. -/
def heartbeatTime : Nat := 1000
/-- R179. -/
def probeTime : Nat := 5000
/-- R181. -/
def declareTime : Nat := 30000
/-- R181, case 3. -/
def declareDelay (address : Nat) : Nat := 10 * address
/-- R183. -/
def silentAge : Nat := 3500
/-- R183. -/
def goneAge : Nat := 30000

end Config

end Sys2Proof
end

