-- ==== Sys2Proof/Machine/State.lean ====
section
/-! DEFINITION. The state of the station as plain data, block by block (00 Block overview), the reasons a step could
stop, and `State.reset`. Times are in milliseconds. -/

namespace Sys2Proof.Machine

/-! ### Reasons to stop -/

/-- The spec names no event at which the station stops answering: HALTED and OFFLINE are states of it. So there is no
fault (safe: a claim that no step faults is a claim about every command). -/
inductive Fault
  deriving DecidableEq, Repr

/-- Why a command has no meaning here. -/
inductive Refusal
  /-- Raised by the dispatcher for a command not modelled yet; no command of this model is left so (safe). -/
  | notModelled (mnemonic : String)
  deriving DecidableEq, Repr

/-! ### Names shared by several blocks -/

/-- Outcomes a RESULT may carry (R26, R171). -/
inductive Outcome
  | delivered
  | empty
  | jammed
  | motorFault
  | interrupted
  | noPower
  | soldOut
  | service
  | tempHold
  | chute
  deriving DecidableEq, Repr

/-- Reasons a REFUSE may carry (R18, R22, R171). -/
inductive Reason
  | notReady
  | service
  | chute
  | noSuch
  | soldOut
  | jammed
  | tempHold
  | pendingOut
  | queueFull
  | price
  | expired
  deriving DecidableEq, Repr

/-- The cause held by ISOLATED (R179). -/
inductive Cause
  | silence
  | lineFault
  | clash
  deriving DecidableEq, Repr

/-- The five line states (10 Line states). -/
inductive LineState
  | offline
  | listen
  | active
  | isolated (cause : Cause)
  | halted
  deriving DecidableEq, Repr

/-- Conditions of the fault and service unit (R186), in the table's order. -/
inductive Condition
  | exactChangeLit
  | tubePayoutFault
  | coinUnitFault
  | condenserSensorFault
  | letterClash
  | peerGone
  | doorLeftOpen
  | chuteActivityRate
  | coldHold
  | chuteFault
  | compressorLatched
  | airSensorFault
  | spiralFault
  | isolated
  | addressClash
  | noSpiralAvailable
  deriving DecidableEq, Repr

/-- Attention notices with their details (R188). -/
inductive Notice
  | empty (position : Nat)
  | jam (position : Nat)
  | motor (position : Nat)
  | chute
  | tube (tube : Nat)
  | shortPay (remainder : Nat)
  | sensor (name : SensorName)
  | compressor
  | coldHold
  | peer (address : Nat)
  | letter (letter : Nat)
  | clash (address : Nat)
  | saveLost
  deriving DecidableEq, Repr

/-! ### Planogram store (01) -/

inductive Zone
  | ambient
  | chilled
  deriving DecidableEq, Repr

inductive Stock
  | known (count : Nat)
  | unknown
  deriving DecidableEq, Repr

inductive SpiralStatus
  | inService
  | soldOut
  | jammed
  | motorFault
  deriving DecidableEq, Repr

/-- A spiral record (01 The spiral record). -/
structure Spiral where
  fitted : Bool
  wide : Bool
  price : Nat
  capacity : Nat
  zone : Zone
  stock : Stock
  status : SpiralStatus
  consecutiveEmpty : Nat
  deriving DecidableEq, Repr

/-! ### Vend queue (02) -/

inductive EntryState
  | awaitCommit
  | committed
  | vending
  deriving DecidableEq, Repr

/-- A queue entry (R16); `payer` and `tag` are absent in a test entry. `queuePos` is the queue position of the ACCEPT
first sent for it, which a repetition answers again (R19). -/
structure Entry where
  payer : Option Payer
  tag : Option Nat
  position : Nat
  price : Nat
  state : EntryState
  test : Bool
  commitTimer : Nat
  queuePos : Nat
  deriving DecidableEq, Repr

/-! ### Drive sequencer (03) -/

/-- The three stretches of REVERSING (R42). -/
inductive ReverseStage
  | firstPause
  | reversed
  | secondPause
  deriving DecidableEq, Repr

inductive VendPhase
  | claiming
  | starting
  | turning
  | settling
  | reversing (stage : ReverseStage)
  deriving DecidableEq, Repr

inductive Direction
  | forward
  | reversed
  deriving DecidableEq, Repr

/-- The vend record (03 The vend record); `timer` is the phase timer and `onTime` the time since the motor was last
energised, which R39 reads. The last four fields hold what R34's assessments have found since then: the current last
read, whether every reading of the first 100 ms was below the open threshold, whether one of the first 50 ms was above
the short threshold, and for how long the readings have been above the jam threshold. -/
structure Vend where
  entry : Entry
  phase : VendPhase
  turnsUsed : Nat
  jams : Nat
  drops : Nat
  timer : Nat
  onTime : Nat
  direction : Direction
  current : Nat
  low : Bool
  shorted : Bool
  jamRun : Nat
  deriving DecidableEq, Repr

/-- Chute supervision (R53 to R55): the beam, the time it has held its level, the chute fault, the times of the most
recent chute-activity edges (oldest first, at most 21) and the chute-activity rate condition. -/
structure Chute where
  blocked : Bool
  beamTime : Nat
  fault : Bool
  edges : List Nat
  rate : Bool
  deriving DecidableEq, Repr

/-! ### Coin unit interface (04) -/

inductive TubeStatus
  | usable
  | payoutFault
  deriving DecidableEq, Repr

/-- A tube record (04 Tube records). -/
structure Tube where
  fitted : Bool
  denomination : Nat
  lowMark : Nat
  fullMark : Nat
  estimate : Nat
  lowSensor : Bool
  fullSensor : Bool
  status : TubeStatus
  deriving DecidableEq, Repr

/-- Messages to the validator (R59), each with its set of coin types, in rising order. -/
inductive ValidatorMessage
  | inhibit (types : List Nat)
  | route (types : List Nat)
  deriving DecidableEq, Repr

inductive JournalKind
  | inTube
  | inCashbox
  | reject
  | out
  | fill
  | emptyTube
  deriving DecidableEq, Repr

/-- A journal entry (R72); `which` is the coin type or the tube, absent for REJECT. -/
structure JournalEntry where
  kind : JournalKind
  which : Option Nat
  value : Nat
  creditAfter : Nat
  deriving DecidableEq, Repr

/-- The coin unit interface: tubes 1 to 5, the validator link (R59, R60) and the journal (R71). -/
structure CoinUnit where
  tubes : List Tube
  lastInhibit : List Nat
  lastRoute : List Nat
  onTransmitter : Option ValidatorMessage
  waitingInhibit : Option (List Nat)
  waitingRoute : Option (List Nat)
  statusTimer : Nat
  faultStands : Bool
  faultCode : Option Nat
  journal : List JournalEntry
  overrun : Nat
  deriving DecidableEq, Repr

/-! ### Payout unit (06) -/

/-- A mapped plan entry (R88): denomination, count still to pay, and its ordered tubes with the coins allotted. -/
structure PlanEntry where
  denomination : Nat
  count : Nat
  tubes : List (Nat × Nat)
  deriving DecidableEq, Repr

inductive PayoutState
  | idle
  | running
  | stopped
  deriving DecidableEq, Repr

inductive CoinPhase
  | none
  | pulse
  | pause
  deriving DecidableEq, Repr

inductive StopCondition
  | none
  | door
  deriving DecidableEq, Repr

/-- The payout record (R93). The run is the first entry of `plan` whose count is above 0. `pulseOn` is the tube whose
actuator is on, which may outlast the coin and the payout (R96, R101). While RUNNING, stop condition DOOR is a stop
pending for the end of the coin in progress (R102). -/
structure Payout where
  state : PayoutState
  amount : Nat
  paid : Nat
  plan : List PlanEntry
  currentTube : Option Nat
  phase : CoinPhase
  attempt : Nat
  pulseOn : Option Nat
  pulseTimer : Nat
  windowTimer : Nat
  pauseTimer : Nat
  stop : StopCondition
  tubesChanged : Bool
  deriving DecidableEq, Repr

/-! ### Transaction controller (07) -/

inductive TxnState
  | idle
  | credit
  | asking
  | committed
  | paying
  deriving DecidableEq, Repr

/-- The current offer (R109). -/
structure Offer where
  owner : Payer
  tag : Nat
  position : Nat
  quoted : Option Nat
  deriving DecidableEq, Repr

/-- The credit record (R109); `shownPosition` is the queue position behind VENDING or WAIT n (R114). -/
structure Txn where
  credit : Nat
  escrow : Nat
  state : TxnState
  offer : Option Offer
  lastTag : Nat
  returnRequested : Bool
  answerTimer : Nat
  resultTimer : Nat
  inactivityTimer : Nat
  shownPosition : Nat
  deriving DecidableEq, Repr

/-- The keypad entry buffer while it is not clear (R111): letter code 0 to 7 and the tray digit if keyed. -/
structure KeyBuffer where
  letter : Nat
  tray : Option Nat
  deriving DecidableEq, Repr

/-- Timed messages of the display (R123, R124, R191). -/
inductive Message
  | notAvail
  | soldOut
  | jammed
  | hold
  | service
  | noAnswer
  | exact
  | price (price : Nat)
  | done
  | refused
  | testOutcome (position : Nat) (outcome : Outcome) (drops : Nat)
  deriving DecidableEq, Repr

/-- What alternates on the display (R123, R191, R193); `none` when nothing does. -/
inductive Alternation
  | exactAmount
  | serviceNotice
  | auditItem (item : Nat)
  deriving DecidableEq, Repr

/-- Keypad buffer and display (R111, R123). -/
structure Panel where
  buffer : Option KeyBuffer
  bufferTimer : Nat
  message : Option Message
  messageTimer : Nat
  messageLength : Nat
  alternation : Option Alternation
  secondShown : Bool
  alternationTimer : Nat
  deriving DecidableEq, Repr

/-- Service command entry (R191) and the SHOW-AUDIT item shown (R193). -/
structure ServiceEntry where
  number : List Nat
  arguments : List Nat
  timer : Nat
  item : Option Nat
  deriving DecidableEq, Repr

/-! ### Cooling controller (08) -/

inductive Compressor
  | off
  | rest
  | idle
  | waitPower
  | run
  | defrost
  | lockout
  | latched
  deriving DecidableEq, Repr

inductive DefrostPhase
  | none
  | pending
  | heaterWait
  | heater
  | offCycle
  | drip
  deriving DecidableEq, Repr

inductive DutyPhase
  | on
  | off
  deriving DecidableEq, Repr

/-- A sensor record (08 Temperature sensors) and the time since its last sample. -/
structure Sensor where
  window : List Nat
  invalidRun : Nat
  validRun : Nat
  fault : Bool
  reading : Option Int
  sinceSample : Nat
  deriving DecidableEq, Repr

/-- The cooling controller. `latchedHeld` is a LATCHED held while the controller is OFF (R127); `runTimeTaken` and
`iceTaken` say that the cause's becoming met has been taken (R140). -/
structure Cooling where
  compressor : Compressor
  latchedHeld : Bool
  sinceStop : Nat
  inrushTimer : Nat
  inrushDone : Bool
  minOnTimer : Nat
  runAccumulator : Nat
  runTimeTaken : Bool
  doorCounter : Nat
  iceTimer : Nat
  iceTaken : Bool
  hourPart : Nat
  tripTimes : List Nat
  lockoutTimer : Nat
  demand : Bool
  duty : Option DutyPhase
  dutyTimer : Nat
  defrostRequest : Bool
  phase : DefrostPhase
  defrostTimer : Nat
  heaterWaitTimer : Nat
  dripTimer : Nat
  coldHold : Bool
  holdTimer : Nat
  air : Sensor
  coil : Sensor
  cond : Sensor
  deriving DecidableEq, Repr

/-! ### Power budget unit (09) -/

inductive RequestPhase
  | ready
  | held
  | sending
  | window
  | backoff
  deriving DecidableEq, Repr

/-- A peer CLAIM heard in a claim window (R159), with the watts the slot held before it. -/
structure ClaimRecord where
  address : Nat
  cls : LoadClass
  rank : Nat
  before : Nat
  deriving DecidableEq, Repr

/-- A request of the waiting list (R154); `checked` says that its waited time runs (R155). -/
structure Request where
  cls : LoadClass
  power : Fig
  phase : RequestPhase
  checked : Bool
  waited : Nat
  starved : Bool
  withdrawn : Bool
  record : List ClaimRecord
  timer : Nat
  deriving DecidableEq, Repr

/-- Own slots, `none` when not standing, and the waiting list (R153, R154). -/
structure Power where
  vendMotor : Option Fig
  compressor : Option Fig
  heater : Option Fig
  requests : List Request
  deriving DecidableEq, Repr

/-! ### Line interface and peer view (10) -/

/-- Frame bodies the station sends, by kind (R171). -/
inductive FrameBody
  | claim (cls : LoadClass) (rank : Nat) (power : Fig)
  | release (cls : LoadClass)
  | result (tag : Nat) (outcome : Outcome) (drops : Nat)
  | commit (tag price : Nat)
  | accept (tag price queuePos : Nat)
  | refuse (tag : Nat) (reason : Reason)
  | offer (tag tray column : Nat)
  | withdraw (tag : Nat)
  | declare (fields : DeclareFields)
  | heartbeat (fields : HeartbeatFields)
  | audit (block : Nat) (content : List Byte)
  deriving DecidableEq, Repr

/-- A frame of the transmit queue; its sender is the own address. `opensWindow` marks the CLAIM of a request's attempt
(R159), as against that of an adjustment (R162). -/
structure Frame where
  dst : Nat
  body : FrameBody
  opensWindow : Bool
  deriving DecidableEq, Repr

/-- The line interface (R173 to R181). `declareDelay` is the time a delayed DECLARE has waited, if one waits;
`clashLatched` is the address clash of R176, latched until the next start. -/
structure Line where
  state : LineState
  queue : List Frame
  sending : Bool
  errors : Nat
  listenTimer : Nat
  heard : Bool
  silenceTimer : Nat
  heartbeatTimer : Nat
  declareTimer : Nat
  declareDelay : Option Nat
  probeTimer : Nat
  clashLatched : Bool
  deriving DecidableEq, Repr

inductive Presence
  | present
  | silent
  | gone
  deriving DecidableEq, Repr

/-- An entry of the peer view (R182); powers in watts. -/
structure Peer where
  address : Nat
  declared : Bool
  letter : Option Nat
  role : Option Role
  presence : Presence
  declaredMax : Nat
  allowance : Nat
  base : Nat
  vendMotor : Nat
  compressor : Nat
  heater : Nat
  accepting : Bool
  lineState : Option Nat
  age : Nat
  deriving DecidableEq, Repr

/-! ### Fault and service unit, audit counters, pins (11, 00 signal summary) -/

inductive LampMode
  | off
  | steady
  | flashing
  deriving DecidableEq, Repr

/-- Standing and notice flags as lists in the table's order, the attention latch, the lamp and the door. -/
structure FaultUnit where
  standing : List Condition
  noticed : List Condition
  active : Option Notice
  pendingNotice : Option Notice
  lamp : LampMode
  flashOn : Bool
  flashTimer : Nat
  doorOpen : Bool
  doorTimer : Nat
  doorLeftOpen : Bool
  deriving DecidableEq, Repr

/-- Audit counters in the order of R195; lists are indexed from type 0, position 10 and outcome DELIVERED. -/
structure Audit where
  salesCount : Nat
  salesValue : Nat
  cashboxValue : Nat
  payoutValue : Nat
  forfeitedValue : Nat
  shortPayValue : Nat
  inDoubt : Nat
  lateResult : Nat
  lateDelivered : Nat
  lateCoins : Nat
  doubleDrops : Nat
  chuteActivity : Nat
  countUnderrun : Nat
  tubeOvercount : Nat
  txOverflow : Nat
  badFrames : Nat
  runHours : Nat
  defrosts : Nat
  lockouts : Nat
  outcomes : List Nat
  coinsByType : List Nat
  spiralSales : List Nat
  dropped : Nat
  deriving DecidableEq, Repr

/-- Output pins: the row and column switched on and their sense, the tube actuator on, the relays, the lamps, and the
bits with which BTX drives the frame being sent, none while the station leaves the line recessive. -/
structure Pins where
  row : Option Nat
  column : Option Nat
  direction : Direction
  tube : Option Nat
  cmp : Bool
  dfh : Bool
  fan : Bool
  lsv : Bool
  lex : Bool
  btx : List Bool
  deriving DecidableEq, Repr

/-! ### The station and the machine -/

/-- A start between its reset event and its load event (12 Starts). -/
inductive StartPhase
  | none
  | readingCold
  | readingWarm
  deriving DecidableEq, Repr

/-- What the controller holds. `homeOpen` is the level HOME gives for each spiral, an input of the machinery. -/
structure Station where
  now : Nat
  start : StartPhase
  built : Bool
  configInvalid : Bool
  seqCount : Nat
  cfg : Settings
  spirals : List Spiral
  homeOpen : List Bool
  queue : List Entry
  vend : Option Vend
  chute : Chute
  coin : CoinUnit
  exactLit : Bool
  payout : Payout
  txn : Txn
  panel : Panel
  service : ServiceEntry
  cooling : Cooling
  power : Power
  line : Line
  peers : List Peer
  faults : FaultUnit
  audit : Audit
  pins : Pins
  deriving DecidableEq, Repr

/-- The configuration memory as a sorted list of the bytes that are not 0 (notes/assumptions/6.md). -/
abbrev Memory := List (Nat × Byte)

/-- The machine: the station, the configuration memory, the saved-block write in progress (its bytes from address 512
on), and the commands that wait, first in, first out. -/
structure State where
  station : Station
  mem : Memory
  saveWrite : Option (List Byte)
  pending : List Instr
  deriving DecidableEq, Repr

/-! ### Reset -/

/-- All sixteen coin types. -/
def allCoinTypes : List Nat := [0, 1, 2, 3, 4, 5, 6, 7, 8, 9, 10, 11, 12, 13, 14, 15]

/-- Blank settings, held until the first load event takes an image (notes/assumptions/30.md). -/
def blankSettings : Settings where
  address := 0
  letter := 0
  role := .vendOnly
  stationCount := 1
  coolingFitted := false
  trayMap := 0
  baseUnitCode := 0
  decimals := 0
  bankBudget := 0
  base := ⟨0, 0⟩
  declaredMax := ⟨0, 0⟩
  allowance := ⟨0, 0⟩
  vendMotor := ⟨0, 0⟩
  inrush := ⟨0, 0⟩
  run := ⟨0, 0⟩
  heater := ⟨0, 0⟩
  timeoutCode := 0
  multiVend := false
  guarantee := false
  extraTurns := 0
  openThreshold := 0
  jamThreshold := 0
  shortThreshold := 0
  creditLimit := 0
  inactivitySec := 0
  planogram := []
  coinTypes := []
  tubes := []
  cooling :=
    { setpoint := 0, differential := 0, condenserLimit := 0, holdLimit := 0, holdDelayMin := 0, inrushSec := 0,
      causeRunTime := false, causeCoilIce := false, causeDoorCount := false, intervalHours := 0, doorLimit := 0,
      heaterMethod := false, terminationTemp := 0, maxDefrostMin := 0, table := [] }
  lampAdvisory := false
  lampDegraded := false
  lampOutOfService := false

/-- A spiral record before configuration: R13's working values. -/
def Spiral.blank : Spiral where
  fitted := false
  wide := false
  price := 0
  capacity := 0
  zone := .ambient
  stock := .unknown
  status := .inService
  consecutiveEmpty := 0

/-- An unfitted tube (R66: its estimate is 0). -/
def Tube.blank : Tube where
  fitted := false
  denomination := 0
  lowMark := 0
  fullMark := 0
  estimate := 0
  lowSensor := false
  fullSensor := false
  status := .usable

/-- The chute at a start before the beam is read (R54, R55). -/
def Chute.blank : Chute where
  blocked := false
  beamTime := 0
  fault := false
  edges := []
  rate := false

/-- The empty payout record (R93). Attempt 1 in it is the model's choice (notes/assumptions/39.md). -/
def Payout.blank : Payout where
  state := .idle
  amount := 0
  paid := 0
  plan := []
  currentTube := none
  phase := .none
  attempt := 1
  pulseOn := none
  pulseTimer := 0
  windowTimer := 0
  pauseTimer := 0
  stop := .none
  tubesChanged := false

/-- The credit record of a cold start with SAVE LOST (R125). -/
def Txn.blank : Txn where
  credit := 0
  escrow := 0
  state := .idle
  offer := none
  lastTag := 15
  returnRequested := false
  answerTimer := 0
  resultTimer := 0
  inactivityTimer := 0
  shownPosition := 0

/-- A clear buffer and no message (R125). -/
def Panel.blank : Panel where
  buffer := none
  bufferTimer := 0
  message := none
  messageTimer := 0
  messageLength := 0
  alternation := none
  secondShown := false
  alternationTimer := 0

/-- An empty service command entry (R197). -/
def ServiceEntry.blank : ServiceEntry where
  number := []
  arguments := []
  timer := 0
  item := none

/-- A sensor record at the entry to LISTEN after a start (R128). -/
def Sensor.blank : Sensor where
  window := []
  invalidRun := 0
  validRun := 0
  fault := false
  reading := none
  sinceSample := 0

/-- The cooling controller OFF with nothing restored (R127, R152); what its records hold until the first load event is a
choice (notes/assumptions/30.md). -/
def Cooling.blank : Cooling where
  compressor := .off
  latchedHeld := false
  sinceStop := 0
  inrushTimer := 0
  inrushDone := false
  minOnTimer := 0
  runAccumulator := 0
  runTimeTaken := false
  doorCounter := 0
  iceTimer := 0
  iceTaken := false
  hourPart := 0
  tripTimes := []
  lockoutTimer := 0
  demand := false
  duty := none
  dutyTimer := 0
  defrostRequest := false
  phase := .none
  defrostTimer := 0
  heaterWaitTimer := 0
  dripTimer := 0
  coldHold := false
  holdTimer := 0
  air := Sensor.blank
  coil := Sensor.blank
  cond := Sensor.blank

/-- R168. -/
def Power.blank : Power where
  vendMotor := none
  compressor := none
  heater := none
  requests := []

/-- R177: OFFLINE, nothing queued, no error counted, no clash latched. Its timers, `heard` and the delayed DECLARE hold a
choice until the entry to LISTEN (notes/assumptions/30.md, 40.md). -/
def Line.blank : Line where
  state := .offline
  queue := []
  sending := false
  errors := 0
  listenTimer := 0
  heard := false
  silenceTimer := 0
  heartbeatTimer := 0
  declareTimer := 0
  declareDelay := none
  probeTimer := 0
  clashLatched := false

/-- R197: flags clear, latch empty, lamp off; the door closed until it is read (notes/assumptions/30.md). -/
def FaultUnit.blank : FaultUnit where
  standing := []
  noticed := []
  active := none
  pendingNotice := none
  lamp := .off
  flashOn := false
  flashTimer := 0
  doorOpen := false
  doorTimer := 0
  doorLeftOpen := false

/-- R194: every counter 0. -/
def Audit.blank : Audit where
  salesCount := 0
  salesValue := 0
  cashboxValue := 0
  payoutValue := 0
  forfeitedValue := 0
  shortPayValue := 0
  inDoubt := 0
  lateResult := 0
  lateDelivered := 0
  lateCoins := 0
  doubleDrops := 0
  chuteActivity := 0
  countUnderrun := 0
  tubeOvercount := 0
  txOverflow := 0
  badFrames := 0
  runHours := 0
  defrosts := 0
  lockouts := 0
  outcomes := List.replicate 6 0
  coinsByType := List.replicate 16 0
  spiralSales := List.replicate 60 0
  dropped := 0

/-- 12 Starts: in the reset event every output is switched off. -/
def Pins.off : Pins where
  row := none
  column := none
  direction := .forward
  tube := none
  cmp := false
  dfh := false
  fan := false
  lsv := false
  lex := false
  btx := []

/-- The coin unit in the reset event of a cold start: an INHIBIT disabling all 16 types is being sent (R59). The STATUS
timer starts at the entry to LISTEN (R60); that it holds 0 until then is a choice (notes/assumptions/30.md). -/
def CoinUnit.blank : CoinUnit where
  tubes := List.replicate 5 Tube.blank
  lastInhibit := allCoinTypes
  lastRoute := []
  onTransmitter := some (.inhibit allCoinTypes)
  waitingInhibit := none
  waitingRoute := none
  statusTimer := 0
  faultStands := false
  faultCode := none
  journal := []
  overrun := 0

/-- The station right after the reset event of a power-on (R201, 12 Starts): outputs off, INHIBIT sent, line OFFLINE,
the image being read. -/
def Station.reset : Station where
  now := 0
  start := .readingCold
  built := false
  configInvalid := false
  seqCount := 0
  cfg := blankSettings
  spirals := List.replicate 60 Spiral.blank
  homeOpen := List.replicate 60 false
  queue := []
  vend := none
  chute := Chute.blank
  coin := CoinUnit.blank
  exactLit := false
  payout := Payout.blank
  txn := Txn.blank
  panel := Panel.blank
  service := ServiceEntry.blank
  cooling := Cooling.blank
  power := Power.blank
  line := Line.blank
  peers := []
  faults := FaultUnit.blank
  audit := Audit.blank
  pins := Pins.off

/-- The machine right after reset. -/
def State.reset : State where
  station := Station.reset
  mem := []
  saveWrite := none
  pending := []

end Sys2Proof.Machine
end

