-- ==== Sys2Proof/Machine/Memory.lean ====
section
/-! DEFINITION. The configuration memory (12): a byte that is not listed reads 0 (notes/assumptions/6.md). Every
operation keeps the canonical form `Memory.wf`. -/

namespace Sys2Proof.Machine

/-- What a byte that nothing has written reads as (DESIGN CHOICE, notes/assumptions/6.md). -/
def unwritten : Byte := 0

/-- Addresses strictly rising from above `low`, and no listed byte equal to `unwritten`. -/
def Memory.wfFrom : Option Nat → Memory → Bool
  | _, [] => true
  | low, (a, b) :: rest => (low.all fun l => l < a) && b != unwritten && Memory.wfFrom (some a) rest

/-- The canonical form. -/
def Memory.wf (m : Memory) : Bool := Memory.wfFrom none m

/-- The byte at an address. -/
def Memory.read : Memory → Nat → Byte
  | [], _ => unwritten
  | (k, b) :: rest, a => if k = a then b else Memory.read rest a

/-- One byte written; writing `unwritten` removes the entry. -/
def Memory.write : Memory → Nat → Byte → Memory
  | [], a, b => if b = unwritten then [] else [(a, b)]
  | (k, c) :: rest, a, b =>
    if a < k then (if b = unwritten then (k, c) :: rest else (a, b) :: (k, c) :: rest)
    else if a = k then (if b = unwritten then rest else (a, b) :: rest)
    else (k, c) :: Memory.write rest a b

/-- Bytes written from an address on. -/
def Memory.writeFrom : Memory → Nat → List Byte → Memory
  | m, _, [] => m
  | m, a, b :: rest => Memory.writeFrom (Memory.write m a b) (a + 1) rest

/-- Bytes written at listed addresses, the first first. -/
def Memory.writeCells : Memory → List (Nat × Byte) → Memory
  | m, [] => m
  | m, c :: rest => Memory.writeCells (Memory.write m c.1 c.2) rest

/-- `n` bytes read from an address on. -/
def Memory.readFrom (m : Memory) (a n : Nat) : List Byte := (List.range n).map fun i => Memory.read m (a + i)

/-! ### The check word (R170, R198): CRC-16, polynomial x^16 + x^12 + x^5 + 1, initial value all ones -/

/-- One bit shifted out of the register, most significant first. -/
def crcShift (crc : Nat) : Nat :=
  if crc &&& 0x8000 = 0 then (crc <<< 1) &&& 0xFFFF else ((crc <<< 1) ^^^ 0x1021) &&& 0xFFFF

/-- One byte taken into the register. -/
def crcByte (crc : Nat) (b : Byte) : Nat :=
  crcShift (crcShift (crcShift (crcShift (crcShift (crcShift (crcShift (crcShift (crc ^^^ (b.toNat <<< 8)))))))))

/-- The CRC of a list of bytes in their order. -/
def crc16 (bytes : List Byte) : Nat := bytes.foldl crcByte 0xFFFF

/-- The two bytes of a 16-bit figure, most significant first. -/
def twoBytes (n : Nat) : List Byte := [BitVec.ofNat 8 (n / 256), BitVec.ofNat 8 n]

/-- The four bytes of a 32-bit figure, most significant first (R195). -/
def fourBytes (n : Nat) : List Byte :=
  [BitVec.ofNat 8 (n / 16777216), BitVec.ofNat 8 (n / 65536), BitVec.ofNat 8 (n / 256), BitVec.ofNat 8 n]

end Sys2Proof.Machine
end

