-- ==== Sys2Proof/Machine/Operands.lean ====
section
/-! DEFINITION. The operand forms of the commands: the ranges of frame fields (R170, R171) and of validator messages
(R58), and the readings of coded fields. A frame outside its ranges is not valid (R170); a validator message outside
its ranges is discarded (R58). -/

namespace Sys2Proof.Machine

/-! ### Power figures (00 Power) -/

/-- The factor of a scale code. -/
def scaleFactor (scale : Nat) : Nat :=
  if scale = 0 then 1 else if scale = 1 then 2 else if scale = 2 then 5 else 10

/-- The watts of a figure: the value times the factor. -/
def watts (f : Fig) : Nat := f.value * scaleFactor f.scale

/-- A figure that can be written: value 0 to 255, scale code 0 to 3. -/
def figOk (f : Fig) : Bool := f.value ≤ 255 && f.scale ≤ 3

/-! ### Codes -/

/-- R153: the classes by their numbers. -/
def classOf (n : Nat) : Option LoadClass :=
  if n = 0 then some .vendMotor else if n = 1 then some .compressor else if n = 2 then some .defrostHeater else none

/-- R153: the number of a class. -/
def classCode : LoadClass → Nat
  | .vendMotor => 0
  | .compressor => 1
  | .defrostHeater => 2

/-! ### Frames (R170, R171) -/

/-- Sender 1 to 8 and a destination that the route byte can hold. -/
def routeOk (src dst : Nat) : Bool := 1 ≤ src && src ≤ 8 && dst ≤ 15

def tagOk (tag : Nat) : Bool := tag ≤ 15

def priceOk (price : Nat) : Bool := 1 ≤ price && price ≤ 2000

def offerOk (src dst tag tray column : Nat) : Bool := routeOk src dst && tagOk tag && tray ≤ 255 && column ≤ 255

def commitOk (src dst tag price : Nat) : Bool := routeOk src dst && tagOk tag && priceOk price

def withdrawOk (src dst tag : Nat) : Bool := routeOk src dst && tagOk tag

def acceptOk (src dst tag price queuePos : Nat) : Bool :=
  routeOk src dst && tagOk tag && priceOk price && 1 ≤ queuePos && queuePos ≤ 4

def refuseOk (src dst tag reason : Nat) : Bool := routeOk src dst && tagOk tag && 1 ≤ reason && reason ≤ 11

def resultOk (src dst tag outcome drops : Nat) : Bool := routeOk src dst && tagOk tag && outcome ≤ 9 && drops ≤ 3

def claimOk (src dst cls rank value scale : Nat) : Bool :=
  routeOk src dst && cls ≤ 2 && rank ≤ 3 && figOk ⟨value, scale⟩

def releaseOk (src dst cls : Nat) : Bool := routeOk src dst && cls ≤ 2

def declareOk (src dst : Nat) (f : DeclareFields) : Bool :=
  routeOk src dst && f.role ≤ 1 && f.letter ≤ 7 && figOk f.declaredMax && figOk f.allowance && figOk f.base && f.trayMap ≤ 63

def heartbeatOk (src dst : Nat) (f : HeartbeatFields) : Bool :=
  routeOk src dst && 1 ≤ f.lineState && f.lineState ≤ 3 && f.faultLevel ≤ 3 && f.flags ≤ 31 && f.depth ≤ 4 && figOk f.base &&
    figOk f.vendMotor && figOk f.compressor && figOk f.heater && f.attention ≤ 13

/-- R171: AUDIT's block number within 0 to 63, as AUDIT-QUERY's is (notes/assumptions/36.md). -/
def auditOk (src dst block : Nat) (content : List Byte) : Bool :=
  routeOk src dst && block ≤ 63 && content.length ≤ 10

/-- Sender 0, a service tool, is valid in an AUDIT-QUERY only. -/
def auditQueryOk (src dst block : Nat) : Bool := src ≤ 8 && dst ≤ 15 && block ≤ 63

/-! ### Validator messages (R58) -/

def coinTypeOk (coinType : Nat) : Bool := coinType ≤ 15

def faultCodeOk (code : Nat) : Bool := 1 ≤ code && code ≤ 255

/-- STATUS: condition 0 stands for READY, 1 to 255 for a fault code. -/
def statusOk (condition : Nat) : Bool := condition ≤ 255

/-! ### Other inputs -/

def tubeNumberOk (tube : Nat) : Bool := 1 ≤ tube && tube ≤ 5

def digitOk (digit : Nat) : Bool := digit ≤ 9

/-- A 10-bit sensor code (08 Temperature sensors). -/
def sensorCodeOk (code : Nat) : Bool := code ≤ 1023

def addressOk (address : Nat) : Bool := 1 ≤ address && address ≤ 8

def payerOk : Payer → Bool
  | .loc => true
  | .peer a => addressOk a

/-- The bytes of the configuration memory that the spec names: the image and the saved block (12). -/
def memoryAddressOk (a : Nat) : Bool := a < 380 || (512 ≤ a && a < 1230)

def loadInputsOk (inp : LoadInputs) : Bool :=
  inp.tubeLow.length = 5 && inp.tubeFull.length = 5 && inp.programmed.all fun c => memoryAddressOk c.1

end Sys2Proof.Machine
end

