-- ==== Sys2Proof/WellFormed.lean ====
section
/-! DEFINITION. Well-formed commands: operands that the row's event can carry. A frame command is well formed when the
frame is valid under R170 and R171, a validator message when R58 takes it. The station's meanings do not presuppose
well-formedness: an invalid frame is a bad frame and an out-of-range message is discarded. -/

namespace Sys2Proof

open Sys2Proof.Machine

/-- The operands of a command lie in the ranges the spec gives them. -/
def Instr.wellFormed : Instr → Bool
  | .loadEvent inp => loadInputsOk inp
  | .commitTimerExpiry payer tag => payerOk payer && tagOk tag
  | .offer src dst tag tray column => offerOk src dst tag tray column
  | .commit src dst tag price => commitOk src dst tag price
  | .withdraw src dst tag => withdrawOk src dst tag
  | .accept src dst tag price queuePos => acceptOk src dst tag price queuePos
  | .refuse src dst tag reason => refuseOk src dst tag reason
  | .result src dst tag outcome drops => resultOk src dst tag outcome drops
  | .claim src dst cls rank value scale => claimOk src dst cls rank value scale
  | .release src dst cls => releaseOk src dst cls
  | .declare src dst fields => declareOk src dst fields
  | .heartbeat src dst fields => heartbeatOk src dst fields
  | .audit src dst block content => auditOk src dst block content
  | .auditQuery src dst block => auditQueryOk src dst block && block ≤ 31
  | .auditQueryJournal src dst block => auditQueryOk src dst block && 32 ≤ block
  | .peerSilent address => addressOk address
  | .peerGone address => addressOk address
  | .coin coinType _ => coinTypeOk coinType
  | .fault code => faultCodeOk code
  | .status condition => statusOk condition
  | .tubeSensorChange tube _ _ _ => tubeNumberOk tube
  | .keyDigit digit => digitOk digit
  | .sensorSample _ code => sensorCodeOk code
  | .fillTube tube count => tube ≤ 9 && count ≤ 999
  | .emptyTube tube => tube ≤ 9
  | .clearTube tube => tube ≤ 9
  | .clearSpiral position => position ≤ 99
  | .testVend position => position ≤ 99
  | .showAudit item => item ≤ 999
  | .lostContention head => head ≤ 255
  | .powerOn | .resetInput | .powerFailWarning | .savedBlockWritten _ | .doorOpens _ | .doorCloses _ | .doorLeftOpen
  | .claimTimerExpiry | .homeOpens _ | .homeCloses _ | .leaveHomeTimerExpiry | .revolutionTimerExpiry | .dropWindowExpiry
  | .jam _ | .shortCheck _ | .openCheck _ | .reversePauseEnd | .reversingTimerExpiry | .forwardPauseEnd | .dropEdge
  | .chuteActivityRateEnd | .chuteFault | .chuteFaultClear | .badFrame _ | .transmitStart _
  | .transmitError | .brxDominant _ | .frameSent | .listenTimerExpiry | .silenceTimerExpiry | .heartbeatTimerExpiry
  | .probeTimerExpiry | .declareTimerExpiry | .declareDelayExpiry | .windowTimerExpiry | .backoffTimerExpiry _
  | .starved _ | .reject | .statusTimerExpiry | .transmitterFree | .coutEdge _ | .pulseTimerExpiry | .miss
  | .pauseTimerExpiry | .keyCab | .keyClr | .keyRet | .keyNext | .keyPrev | .bufferTimeout | .entryTimeout
  | .answerTimerExpiry | .resultTimerExpiry | .inactivityTimeout | .messageTimeEnd | .displayAlternation | .lampFlash
  | .minimumOffTimeEnd | .inrushEnd | .minimumOnTimeEnd | .runHour | .lockoutTimerExpiry | .dutyTimerExpiry | .runTime
  | .coilIce | .heaterWaitTimerExpiry | .defrostTimerExpiry | .dripTimerExpiry | .coldHold | .ackAttention | .ackHold
  | .refill | .manualDefrost | .clearCompressor | .forgetPeers | .restart | .keyEnt | .beamClears => true

end Sys2Proof
end

