-- ==== Sys2Proof/Machine/Frames.lean ====
section
/-! DEFINITION. Frames as bytes (R170, R171) and as bits of the line (R169): those of a frame the station sends, the
command that received ones stand for, if they are a valid frame, and the contention of two head bytes (R174). A bit is
`true` when it is recessive. -/

namespace Sys2Proof.Machine

/-! ### Codes (R171) -/

def outcomeCode : Outcome → Nat
  | .delivered => 0
  | .empty => 1
  | .jammed => 2
  | .motorFault => 3
  | .interrupted => 4
  | .noPower => 5
  | .soldOut => 6
  | .service => 7
  | .tempHold => 8
  | .chute => 9

/-- The outcome of a code 0 to 9. -/
def outcomeOf (n : Nat) : Outcome :=
  [Outcome.delivered, .empty, .jammed, .motorFault, .interrupted, .noPower, .soldOut, .service, .tempHold, .chute].getD n
    .chute

def reasonCode : Reason → Nat
  | .notReady => 1
  | .service => 2
  | .chute => 3
  | .noSuch => 4
  | .soldOut => 5
  | .jammed => 6
  | .tempHold => 7
  | .pendingOut => 8
  | .queueFull => 9
  | .price => 10
  | .expired => 11

/-- The reason of a code 1 to 11. -/
def reasonOf (n : Nat) : Reason :=
  [Reason.notReady, .notReady, .service, .chute, .noSuch, .soldOut, .jammed, .tempHold, .pendingOut, .queueFull, .price,
    .expired].getD n .expired

/-! ### Sending -/

def byteOf (n : Nat) : Byte := BitVec.ofNat 8 n

def figBytes (f : Fig) : List Byte := [byteOf f.value, byteOf f.scale]

/-- R171: the kind of a frame body. -/
def bodyKind : FrameBody → Nat
  | .claim _ _ _ => 0
  | .release _ => 1
  | .result _ _ _ => 2
  | .commit _ _ => 3
  | .accept _ _ _ => 4
  | .refuse _ _ => 5
  | .offer _ _ _ => 6
  | .withdraw _ => 7
  | .declare _ => 8
  | .heartbeat _ => 9
  | .audit _ _ => 11

/-- R171: the payload of a frame body. -/
def bodyPayload : FrameBody → List Byte
  | .claim cls rank power => [byteOf (classCode cls), byteOf rank] ++ figBytes power
  | .release cls => [byteOf (classCode cls)]
  | .result tag o drops => [byteOf tag, byteOf (outcomeCode o), byteOf drops]
  | .commit tag price => byteOf tag :: twoBytes price
  | .accept tag price queuePos => byteOf tag :: (twoBytes price ++ [byteOf queuePos])
  | .refuse tag reason => [byteOf tag, byteOf (reasonCode reason)]
  | .offer tag tray column => [byteOf tag, byteOf tray, byteOf column]
  | .withdraw tag => [byteOf tag]
  | .declare f =>
    [byteOf f.role, byteOf f.letter] ++ figBytes f.declaredMax ++ figBytes f.allowance ++ figBytes f.base ++
      [byteOf f.trayMap]
  | .heartbeat f =>
    [byteOf (16 * f.lineState + f.faultLevel), byteOf f.flags, byteOf f.depth] ++ figBytes f.base ++
      figBytes f.vendMotor ++ figBytes f.compressor ++ figBytes f.heater ++ [byteOf f.attention]
  | .audit block content => byteOf block :: content

/-- R170: bytes with their check word behind them. -/
def withCheck (bytes : List Byte) : List Byte := bytes ++ twoBytes (crc16 bytes)

/-- R170: head, route and payload. -/
def frameHead (kind src dst : Nat) (payload : List Byte) : List Byte :=
  byteOf (16 * kind + src) :: byteOf (16 * dst + payload.length) :: payload

/-- R170: the bytes of a frame sent by the station at an address. -/
def frameBytes (address : Nat) (f : Frame) : List Byte :=
  withCheck (frameHead (bodyKind f.body) address f.dst (bodyPayload f.body))

/-! ### Receiving -/

/-- Byte `i` of a list as a number. -/
def byteAt (bytes : List Byte) (i : Nat) : Nat := (bytes.getD i 0).toNat

/-- Bytes `i` and `i + 1` as a number, most significant first. -/
def wordAt (bytes : List Byte) (i : Nat) : Nat := 256 * byteAt bytes i + byteAt bytes (i + 1)

def figAt (bytes : List Byte) (i : Nat) : Fig := ⟨byteAt bytes i, byteAt bytes (i + 1)⟩

/-- R171: a DECLARE payload. -/
def declareAt (p : List Byte) : DeclareFields where
  role := byteAt p 0
  letter := byteAt p 1
  declaredMax := figAt p 2
  allowance := figAt p 4
  base := figAt p 6
  trayMap := byteAt p 8

/-- R171: a HEARTBEAT payload. -/
def heartbeatAt (p : List Byte) : HeartbeatFields where
  lineState := byteAt p 0 / 16
  faultLevel := byteAt p 0 % 16
  flags := byteAt p 1
  depth := byteAt p 2
  base := figAt p 3
  vendMotor := figAt p 5
  compressor := figAt p 7
  heater := figAt p 9
  attention := byteAt p 11

/-- R171: the payload length of a kind; AUDIT has 1 to 11. -/
def lengthOk (kind n : Nat) : Bool :=
  match kind with
  | 0 => n = 4
  | 1 => n = 1
  | 2 => n = 3
  | 3 => n = 3
  | 4 => n = 4
  | 5 => n = 2
  | 6 => n = 3
  | 7 => n = 1
  | 8 => n = 9
  | 9 => n = 12
  | 10 => n = 1
  | 11 => 1 ≤ n && n ≤ 11
  | _ => false

/-- R171: the command of a kind, its addresses and payload. -/
def frameCommand (kind src dst : Nat) (p : List Byte) : Option Instr :=
  match kind with
  | 0 => some (.claim src dst (byteAt p 0) (byteAt p 1) (byteAt p 2) (byteAt p 3))
  | 1 => some (.release src dst (byteAt p 0))
  | 2 => some (.result src dst (byteAt p 0) (byteAt p 1) (byteAt p 2))
  | 3 => some (.commit src dst (byteAt p 0) (wordAt p 1))
  | 4 => some (.accept src dst (byteAt p 0) (wordAt p 1) (byteAt p 3))
  | 5 => some (.refuse src dst (byteAt p 0) (byteAt p 1))
  | 6 => some (.offer src dst (byteAt p 0) (byteAt p 1) (byteAt p 2))
  | 7 => some (.withdraw src dst (byteAt p 0))
  | 8 => some (.declare src dst (declareAt p))
  | 9 => some (.heartbeat src dst (heartbeatAt p))
  | 10 => some (if byteAt p 0 < 32 then .auditQuery src dst (byteAt p 0) else .auditQueryJournal src dst (byteAt p 0))
  | 11 => some (.audit src dst (byteAt p 0) (p.drop 1))
  | _ => none

/-- R170: the command that received bytes stand for: the check agrees, the kind exists, the length is the kind's and
every field lies in its range. -/
def readFrame (bytes : List Byte) : Option Instr :=
  let kind := byteAt bytes 0 / 16
  let n := byteAt bytes 1 % 16
  if bytes.length = n + 4 && lengthOk kind n && wordAt bytes (n + 2) = crc16 (bytes.take (n + 2)) then
    (frameCommand kind (byteAt bytes 0 % 16) (byteAt bytes 1 / 16) ((bytes.drop 2).take n)).filter Instr.wellFormed
  else none

/-! ### Bits (R169) -/

/-- R169: the 8 data bits of a byte, most significant first. -/
def byteBits (b : Byte) : List Bool := (List.range 8).map fun i => b.getLsbD (7 - i)

/-- R169: each byte as its data bits and one recessive stop bit. -/
def bytesBits (bytes : List Byte) : List Bool := bytes.flatMap fun b => byteBits b ++ [true]

/-- R169: the bits of a frame: one dominant start bit, then its bytes. -/
def frameBits (address : Nat) (f : Frame) : List Bool := false :: bytesBits (frameBytes address f)

/-- The byte that data bits spell, most significant first. -/
def byteOfBits (bits : List Bool) : Byte := byteOf (bits.foldl (fun n b => 2 * n + b.toNat) 0)

/-- R169: the bytes that bits carry; a dominant stop bit is a framing error. -/
def readBytes : List Bool → Option (List Byte)
  | [] => some []
  | a :: b :: c :: d :: e :: f :: g :: h :: stop :: rest =>
    if stop then (readBytes rest).map fun bytes => byteOfBits [a, b, c, d, e, f, g, h] :: bytes else none
  | _ => none

/-- R169, R170: the command that received bits stand for, from the start bit on. -/
def readBits : List Bool → Option Instr
  | false :: rest => (readBytes rest).bind readFrame
  | _ => none

/-- R174: a station that sends the first bits while the line carries the second loses contention: in the first bit in
which they differ it sends recessive and reads dominant. -/
def losesTo : List Bool → List Bool → Bool
  | own :: os, line :: ls => if own = line then losesTo os ls else own
  | _, _ => false

/-- R170: the head byte of a frame the station sends. -/
def headByte (address : Nat) (f : Frame) : Byte := byteOf (16 * bodyKind f.body + address)

end Sys2Proof.Machine
end

