-- ==== Sys2Proof/Machine/Ops.lean ====
section
/-! DEFINITION. Shared operations over the station's records: lists of records, saturating counters, the attention
latch (R188), the transmit queue (R173), the own slots and the waiting list (R153, R154, R162, R163), messages of the
display (R123), the journal (R71) and the validator's transmitter (R59). -/

namespace Sys2Proof.Machine

/-! ### Lists of records -/

/-- The list with its `n`-th element changed; unchanged when there is none. -/
def updateAt {α : Type} : List α → Nat → (α → α) → List α
  | [], _, _ => []
  | a :: rest, 0, f => f a :: rest
  | a :: rest, n + 1, f => a :: updateAt rest n f

/-- The list with the first element that meets `p` changed. -/
def updateFirst {α : Type} (p : α → Bool) (f : α → α) : List α → List α
  | [] => []
  | a :: rest => if p a then f a :: rest else a :: updateFirst p f rest

/-- The list without the first element that meets `p`. -/
def removeFirst {α : Type} (p : α → Bool) : List α → List α
  | [] => []
  | a :: rest => if p a then rest else a :: removeFirst p rest

/-! ### Positions (R1) -/

/-- The position number of a tray and column. -/
def positionNumber (tray column : Nat) : Nat := 10 * tray + column

/-- A position number 10 to 69. -/
def positionInRange (position : Nat) : Bool := 10 ≤ position && position ≤ 69

/-- The record of a position number; out of range there is none, and the blank record stands for it. -/
def Station.spiral (s : Station) (position : Nat) : Spiral :=
  if positionInRange position then s.spirals.getD (position - 10) Spiral.blank else Spiral.blank

def Station.setSpiral (s : Station) (position : Nat) (f : Spiral → Spiral) : Station :=
  if positionInRange position then { s with spirals := updateAt s.spirals (position - 10) f } else s

/-- R1: a lookup that names a position: in range, fitted and priced. -/
def Station.namesPosition (s : Station) (tray column : Nat) : Bool :=
  1 ≤ tray && tray ≤ 6 && column ≤ 9 && (s.spiral (positionNumber tray column)).fitted &&
    (s.spiral (positionNumber tray column)).price != 0

/-! ### Tubes -/

/-- The record of tube 1 to 5. -/
def Station.tube (s : Station) (tube : Nat) : Tube :=
  if tubeNumberOk tube then s.coin.tubes.getD (tube - 1) Tube.blank else Tube.blank

def Station.setTube (s : Station) (tube : Nat) (f : Tube → Tube) : Station :=
  if tubeNumberOk tube then { s with coin := { s.coin with tubes := updateAt s.coin.tubes (tube - 1) f } } else s

/-! ### Station states -/

def isPayment (c : Settings) : Bool := c.role = .payment

/-- LISTEN, ACTIVE or ISOLATED: the states in which the line is received (R172), keys are scanned (R111), COUT and the
coin unit are read (R98, R56). -/
def LineState.running : LineState → Bool
  | .listen => true
  | .active => true
  | .isolated _ => true
  | .offline => false
  | .halted => false

def Station.running (s : Station) : Bool := s.line.state.running

def Station.active (s : Station) : Bool := s.line.state = .active

/-- R203: timers run but in HALTED; a rule may say more of its own timer. -/
def Station.timersRun (s : Station) : Bool := s.line.state != .halted

def LineState.isIsolated : LineState → Bool
  | .isolated _ => true
  | _ => false

/-! ### Counters (R194) -/

def max32 : Nat := 4294967295
def max16 : Nat := 65535

/-- A counter raised by `n`, saturating at `limit`. -/
def raiseTo (limit counter n : Nat) : Nat := min limit (counter + n)

def rise32 (counter n : Nat) : Nat := raiseTo max32 counter n

/-! ### The attention latch (R188) -/

/-- A notice enters the active slot, else the pending slot, else it is dropped. -/
def Station.raise (s : Station) (n : Notice) : Station :=
  match s.faults.active with
  | none => { s with faults := { s.faults with active := some n } }
  | some _ =>
    match s.faults.pendingNotice with
    | none => { s with faults := { s.faults with pendingNotice := some n } }
    | some _ => { s with audit := { s.audit with dropped := raiseTo 255 s.audit.dropped 1 } }

/-! ### The transmit queue (R173, R174, R179) -/

/-- The four kinds sent only while ACTIVE (R174). -/
def FrameBody.onlyActive : FrameBody → Bool
  | .claim _ _ _ => true
  | .offer _ _ _ => true
  | .accept _ _ _ => true
  | .commit _ _ => true
  | _ => false

def FrameBody.isHeartbeat : FrameBody → Bool
  | .heartbeat _ => true
  | _ => false

/-- Whether the line state lets a frame be handed (10 Line states, R174, R179). -/
def sendAllowed (state : LineState) (body : FrameBody) : Bool :=
  match state with
  | .offline => false
  | .halted => false
  | .listen => !body.onlyActive
  | .active => true
  | .isolated .silence => !body.onlyActive
  | .isolated .lineFault => body.isHeartbeat
  | .isolated .clash => false

/-- A HEARTBEAT replaces one queued behind the head (R173). -/
def replacesBehindHead (queue : List Frame) (f : Frame) : Bool :=
  f.body.isHeartbeat && queue.tail.any fun g => g.body.isHeartbeat

/-- The transmit queue with a frame handed, and whether the queue took it. -/
def queueFrame (queue : List Frame) (f : Frame) : List Frame × Bool :=
  if replacesBehindHead queue f then
    (queue.take 1 ++ updateFirst (fun g => g.body.isHeartbeat) (fun _ => f) queue.tail, true)
  else if queue.length < 8 then (queue ++ [f], true)
  else (queue, false)

/-- R173: a frame handed to the line interface; a frame that finds the queue full is dropped and counted, one that the
line state does not allow is discarded uncounted. The answer says whether the queue took it. -/
def Station.handFrame (s : Station) (f : Frame) : Station × Bool :=
  if sendAllowed s.line.state f.body then
    match queueFrame s.line.queue f with
    | (queue, true) => ({ s with line := { s.line with queue := queue } }, true)
    | (_, false) => ({ s with audit := { s.audit with txOverflow := rise32 s.audit.txOverflow 1 } }, false)
  else (s, false)

/-- A frame handed whose fate its block is not told. -/
def Station.hand (s : Station) (dst : Nat) (body : FrameBody) : Station := (s.handFrame ⟨dst, body, false⟩).1

/-! ### Own slots (R153) -/

/-- R153: the configured figure with which a class is requested. -/
def classFigure (c : Settings) : LoadClass → Fig
  | .vendMotor => c.vendMotor
  | .compressor => c.inrush
  | .defrostHeater => c.heater

/-- R153: the rank of a class when waiting. -/
def classRank : LoadClass → Nat
  | .vendMotor => 1
  | .compressor => 2
  | .defrostHeater => 3

def Power.slot (p : Power) : LoadClass → Option Fig
  | .vendMotor => p.vendMotor
  | .compressor => p.compressor
  | .defrostHeater => p.heater

def Power.setSlot (p : Power) (cls : LoadClass) (f : Option Fig) : Power :=
  match cls with
  | .vendMotor => { p with vendMotor := f }
  | .compressor => { p with compressor := f }
  | .defrostHeater => { p with heater := f }

/-- The watts of a slot, 0 when it is not standing. -/
def slotWatts (f : Option Fig) : Nat :=
  match f with
  | none => 0
  | some g => watts g

/-- R153: the base plus the three slots. -/
def Station.ownSum (s : Station) : Nat :=
  watts s.cfg.base + slotWatts s.power.vendMotor + slotWatts s.power.compressor + slotWatts s.power.heater

/-- R165: the isolated allowance in force. -/
def allowanceInForce (c : Settings) : Nat := min (watts c.allowance) (c.bankBudget / c.stationCount)

/-! ### Waiting list (R154) -/

/-- R158, R166: HELD requests become READY. -/
def readyHeld (requests : List Request) : List Request :=
  requests.map fun r => if r.phase = .held then { r with phase := .ready } else r

/-- HELD requests become READY. -/
def Station.readyAll (s : Station) : Station := { s with power := { s.power with requests := readyHeld s.power.requests } }

/-- An own slot has fallen: HELD requests become READY in ACTIVE (R158) and are checked again in ISOLATED (R166). -/
def Station.roomMade (s : Station) : Station := if s.active || s.line.state.isIsolated then s.readyAll else s

/-- A request as it enters the list. -/
def Request.fresh (cls : LoadClass) (power : Fig) : Request where
  cls := cls
  power := power
  phase := .ready
  checked := false
  waited := 0
  starved := false
  withdrawn := false
  record := []
  timer := 0

def hasRequest (requests : List Request) (cls : LoadClass) : Bool := requests.any fun r => r.cls = cls

/-- R154, R162: a request of a class. A standing slot is adjusted when the power is not above it; a request already in
the list serves the new one, whose withdrawal is thereby taken back (notes/assumptions/12.md). -/
def Station.request (s : Station) (cls : LoadClass) (power : Fig) : Station :=
  match s.power.slot cls with
  | some standing =>
    if watts power ≤ watts standing then
      let lowered := ({ s with power := s.power.setSlot cls (some power) }).roomMade
      lowered.hand 0 (.claim cls (classRank cls) power)
    else s
  | none =>
    if hasRequest s.power.requests cls then
      let served := updateFirst (fun r => r.cls = cls) (fun r => { r with withdrawn := false }) s.power.requests
      { s with power := { s.power with requests := served } }
    else { s with power := { s.power with requests := s.power.requests ++ [Request.fresh cls power] } }

/-- R154: a withdrawal removes the request, or marks it while its attempt is out. -/
def Station.withdrawRequest (s : Station) (cls : LoadClass) : Station :=
  let kept := s.power.requests.filter fun r => !(r.cls = cls && (r.phase = .ready || r.phase = .held || r.phase = .backoff))
  { s with power := { s.power with requests := kept.map fun r => if r.cls = cls then { r with withdrawn := true } else r } }

/-- R163: the end of a standing load. -/
def Station.releaseSlot (s : Station) (cls : LoadClass) : Station :=
  match s.power.slot cls with
  | none => s
  | some _ =>
    let cleared := ({ s with power := s.power.setSlot cls none }).roomMade
    if s.line.state = .listen || s.active then cleared.hand 0 (.release cls) else cleared

/-! ### Display messages (R123, R191) -/

def Station.setMessage (s : Station) (m : Message) (length : Nat) : Station :=
  { s with panel := { s.panel with message := some m, messageTimer := 0, messageLength := length } }

/-- A message made by the transaction: not shown while the door is open (R123). -/
def Station.showCustomer (s : Station) (m : Message) (length : Nat) : Station :=
  if s.faults.doorOpen then s else s.setMessage m length

/-- A message of the service unit: shown while the door is open (R191). -/
def Station.showService (s : Station) (m : Message) : Station :=
  if s.faults.doorOpen then s.setMessage m Config.messageTime else s

/-! ### The coin journal (R71) -/

/-- One entry appended as the newest; a full journal loses its oldest and the overrun counter rises. -/
def Station.writeJournal (s : Station) (e : JournalEntry) : Station :=
  if s.coin.journal.length < 32 then { s with coin := { s.coin with journal := s.coin.journal ++ [e] } }
  else { s with coin := { s.coin with
    journal := s.coin.journal.tail ++ [e], overrun := raiseTo max16 s.coin.overrun 1 } }

/-! ### The validator's transmitter (R59) -/

/-- An INHIBIT handed to the transmitter: sent when it is free, else it waits in place of an older one. -/
def Station.sendInhibit (s : Station) (types : List Nat) : Station :=
  match s.coin.onTransmitter with
  | none => { s with coin := { s.coin with lastInhibit := types, onTransmitter := some (.inhibit types) } }
  | some _ => { s with coin := { s.coin with lastInhibit := types, waitingInhibit := some types } }

/-- A ROUTE handed to the transmitter. -/
def Station.sendRoute (s : Station) (types : List Nat) : Station :=
  match s.coin.onTransmitter with
  | none => { s with coin := { s.coin with lastRoute := types, onTransmitter := some (.route types) } }
  | some _ => { s with coin := { s.coin with lastRoute := types, waitingRoute := some types } }

/-- R61: a coin type that is enabled. -/
def Station.coinEnabled (s : Station) (coinType : Nat) : Bool :=
  let value := (s.cfg.coinTypes.getD coinType ⟨0, 0⟩).value
  value != 0 && isPayment s.cfg && !s.faults.doorOpen && s.txn.state != .committed && s.txn.state != .paying &&
    decide (s.txn.credit + value ≤ s.cfg.creditLimit)

/-- R61: the INHIBIT set. -/
def Station.inhibitSet (s : Station) : List Nat := allCoinTypes.filter fun t => !s.coinEnabled t

/-- R62: a coin type that is routed. -/
def Station.coinRouted (s : Station) (coinType : Nat) : Bool :=
  let tube := (s.cfg.coinTypes.getD coinType ⟨0, 0⟩).tube
  tubeNumberOk tube && (s.tube tube).fitted && !(s.tube tube).fullSensor

/-- R62: the ROUTE set. -/
def Station.routeSet (s : Station) : List Nat := allCoinTypes.filter s.coinRouted

/-- R59: the current sets sent whether or not they have changed. -/
def Station.sendMasks (s : Station) : Station :=
  if isPayment s.cfg then (s.sendInhibit s.inhibitSet).sendRoute s.routeSet else s

/-- R59: each set sent when it differs from the last one sent. -/
def Station.sendChangedMasks (s : Station) : Station :=
  if isPayment s.cfg && s.running then
    let s1 := if s.inhibitSet = s.coin.lastInhibit then s else s.sendInhibit s.inhibitSet
    if s1.routeSet = s1.coin.lastRoute then s1 else s1.sendRoute s1.routeSet
  else s

end Sys2Proof.Machine
end

