-- ==== Sys2Proof/Machine/Planogram.lean ====
section
/-! DEFINITION. The planogram store (01): naming of spirals, drops, outcomes, availability. -/

namespace Sys2Proof.Machine

/-- The drops counted for the vend in flight. -/
def Station.vendDrops (s : Station) : Nat :=
  match s.vend with
  | none => 0
  | some v => v.drops

/-- 01 Stock and the entries that name a spiral: an entry names its spiral until its vend has seen a drop. -/
def entryNames (drops : Nat) (e : Entry) (position : Nat) : Bool :=
  e.position = position && (e.state != .vending || drops = 0)

/-- The number of entries naming a spiral. -/
def Station.namingCount (s : Station) (position : Nat) : Nat :=
  (s.queue.filter fun e => entryNames s.vendDrops e position).length

/-- R4: a known stock below the naming count becomes UNKNOWN. -/
def stockUnderNaming (stock : Stock) (naming : Nat) : Stock :=
  match stock with
  | .known n => if n < naming then .unknown else .known n
  | .unknown => .unknown

/-- R4 applied to one spiral as the event leaves it. -/
def Station.applyNaming (s : Station) (position : Nat) : Station :=
  s.setSpiral position fun r => { r with stock := stockUnderNaming r.stock (s.namingCount position) }

/-- R7: the stock after a drop. -/
def stockAfterDrop : Stock → Stock
  | .known 0 => .unknown
  | .known (n + 1) => .known n
  | .unknown => .unknown

/-- R8: DELIVERED leaves SOLD-OUT when the stock is a known 0. -/
def deliveredRecord (r : Spiral) : Spiral :=
  { r with consecutiveEmpty := 0, status := if r.stock = .known 0 then .soldOut else r.status }

/-- R8: the record of the vend's spiral changed by the outcome. -/
def outcomeRecord (o : Outcome) (drops : Nat) (r : Spiral) : Spiral :=
  match o with
  | .delivered =>
    if drops = 0 then deliveredRecord { r with stock := stockAfterDrop r.stock } else deliveredRecord r
  | .empty => { r with stock := .known 0, status := .soldOut, consecutiveEmpty := min 3 (r.consecutiveEmpty + 1) }
  | .jammed => { r with status := .jammed }
  | .motorFault => { r with status := .motorFault }
  | _ => r

/-- R8: DELIVERED of an entry that is not a test entry raises the per-spiral sales counter. -/
def salesAfter (sales : List Nat) (o : Outcome) (position : Nat) (test : Bool) : List Nat :=
  if o = .delivered && !test then updateAt sales (position - 10) fun n => raiseTo max16 n 1 else sales

/-- R8 and R9: the record and the sales counter at the end of a vend; an EMPTY that leaves the count at 3 raises the
notice EMPTY. -/
def Station.recordOutcome (s : Station) (o : Outcome) (drops position : Nat) (test : Bool) : Station :=
  let s1 := s.setSpiral position (outcomeRecord o drops)
  let s2 := { s1 with audit := { s1.audit with spiralSales := salesAfter s1.audit.spiralSales o position test } }
  if o = .empty && (s2.spiral position).consecutiveEmpty = 3 then s2.raise (.empty position) else s2

/-- R6: a record that may be turned for a customer. -/
def available (r : Spiral) (coldHold doorOpen chuteStops : Bool) : Bool :=
  r.fitted && r.price != 0 && r.status = .inService && (r.zone = .ambient || !coldHold) && !doorOpen && !chuteStops

/-- R6: a chute fault stands while the delivery guarantee is on. -/
def Station.chuteStops (s : Station) : Bool := s.chute.fault && s.cfg.guarantee

/-- R6: whether any fitted spiral is available. -/
def Station.anyAvailable (s : Station) : Bool :=
  s.spirals.any fun r => available r s.cooling.coldHold s.faults.doorOpen s.chuteStops

/-- R5: JAMMED or MOTOR-FAULT on a fitted spiral. -/
def spiralFaulted (r : Spiral) : Bool := r.fitted && (r.status = .jammed || r.status = .motorFault)

/-- R3: a spiral that cold-hold withholds. -/
def Station.withheld (s : Station) (position : Nat) : Bool :=
  (s.spiral position).zone = .chilled && s.cooling.coldHold

/-- R10: a fitted record after REFILL. -/
def refillRecord (r : Spiral) : Spiral :=
  if r.fitted then
    { r with stock := .known r.capacity, status := if r.status = .soldOut then .inService else r.status }
  else r

/-- The position numbers 10 to 69. -/
def allPositions : List Nat := (List.range 60).map (· + 10)

/-- R10 with the naming rule of R4 after it. -/
def Station.refill (s : Station) : Station :=
  let filled := { s with spirals := s.spirals.map refillRecord }
  allPositions.foldl Station.applyNaming filled

/-- R11: a cleared record. -/
def clearRecord (r : Spiral) : Spiral := { r with status := .inService, stock := .unknown, consecutiveEmpty := 0 }

end Sys2Proof.Machine
end

