-- ==== Sys2Proof/Machine/Credit.lean ====
section
/-! DEFINITION. The credit record's shared changes (R109, R110) and the end of a payout at the transaction (R122). -/

namespace Sys2Proof.Machine

def maxCredit : Nat := 65535

/-- R110: the part of a sum above the limit of credit. -/
def beyondCredit (n : Nat) : Nat := n - min maxCredit n

/-- R110: an addition to credit, limited to 65535, the part above forfeited; above 0 it turns IDLE to CREDIT. -/
def Station.addCredit (s : Station) (n : Nat) : Station :=
  let entered := n != 0 && s.txn.state = .idle
  { s with
    txn := { s.txn with
      credit := min maxCredit (s.txn.credit + n)
      state := if entered then .credit else s.txn.state
      inactivityTimer := if entered then 0 else s.txn.inactivityTimer }
    audit := { s.audit with forfeitedValue := rise32 s.audit.forfeitedValue (beyondCredit (s.txn.credit + n)) } }

/-- R110: the resting state of a credit. -/
def restingState (credit : Nat) : TxnState := if credit = 0 then .idle else .credit

/-- R110, R109, R121: the transaction returns to its resting state: offer absent, return-requested no, inactivity timer
from zero. -/
def Station.toResting (s : Station) : Station :=
  { s with txn := { s.txn with
    state := restingState s.txn.credit, offer := none, returnRequested := false, inactivityTimer := 0 } }

/-- R121: keys, coins and rejects restart the inactivity timer. -/
def Station.restartInactivity (s : Station) : Station := { s with txn := { s.txn with inactivityTimer := 0 } }

/-- R122, for R101: the remainder goes to credit and the resting state follows; a remainder above 0 raises the
short-pay counter and the notice SHORT-PAY. -/
def Station.payoutDone (s : Station) (remainder : Nat) : Station :=
  let s1 := (s.addCredit remainder).toResting
  if remainder = 0 then s1
  else
    ({ s1 with audit := { s1.audit with shortPayValue := rise32 s1.audit.shortPayValue remainder } }).raise
      (.shortPay remainder)

end Sys2Proof.Machine
end

