-- ==== Sys2Proof/Machine/Planner.lean ====
section
/-! DEFINITION. The change planner (05): levels, the search with its limit of 256 steps, the mapped plan and the
exact-change indicator. -/

namespace Sys2Proof.Machine

/-- A level of the search (R81): a denomination, its count, and its tubes with their estimates. -/
structure Level where
  denomination : Nat
  count : Nat
  tubes : List (Nat × Nat)
  deriving DecidableEq, Repr

/-- R81: a tube that takes part in a search. -/
def tubeUsable (t : Tube) : Bool := t.fitted && t.status = .usable && t.estimate != 0

/-- One usable tube merged into the levels, kept in descending order of denomination. -/
def insertLevel (number denomination estimate : Nat) : List Level → List Level
  | [] => [⟨denomination, estimate, [(number, estimate)]⟩]
  | l :: rest =>
    if denomination = l.denomination then
      { l with count := l.count + estimate, tubes := l.tubes ++ [(number, estimate)] } :: rest
    else if l.denomination < denomination then ⟨denomination, estimate, [(number, estimate)]⟩ :: l :: rest
    else l :: insertLevel number denomination estimate rest

/-- R81: the levels over the tubes numbered from `number` on. -/
def levelsFrom (number : Nat) (levels : List Level) : List Tube → List Level
  | [] => levels
  | t :: rest =>
    levelsFrom (number + 1) (if tubeUsable t then insertLevel number t.denomination t.estimate levels else levels) rest

def levelsOf (tubes : List Tube) : List Level := levelsFrom 1 [] tubes

/-- The best plan held: counts of the levels from the first, and the amount it pays (R82, R85). -/
structure BestPlan where
  counts : List Nat
  paid : Nat
  deriving DecidableEq, Repr

/-- Where a walk stands: an exact plan found, candidates exhausted, or the step limit met. -/
inductive Walk
  | exact (counts : List Nat) (steps : Nat)
  | exhausted (steps : Nat) (best : BestPlan)
  | limited (best : BestPlan)
  deriving DecidableEq, Repr

/-- R87. -/
def stepLimit : Nat := 256

/-- The candidates `k`, `k - 1`, …, 0 of a level in turn (R83, R86). -/
def tryDown (candidate : Nat → Nat → BestPlan → Walk) : Nat → Nat → BestPlan → Walk
  | 0, steps, best => candidate 0 steps best
  | k + 1, steps, best =>
    match candidate (k + 1) steps best with
    | .exhausted steps' best' => tryDown candidate k steps' best'
    | .exact counts n => .exact counts n
    | .limited b => .limited b

/-- R83 to R87: the walk over the levels for the amount searched, with the remainder, the counts chosen above, the
steps taken and the best plan held. -/
def walkLevels (amount : Nat) : List Level → Nat → List Nat → Nat → BestPlan → Walk
  | [], _, _, steps, best => .exhausted steps best
  | [l], remainder, chosen, steps, best =>
    if stepLimit ≤ steps then .limited best
    else
      let k := min l.count (remainder / l.denomination)
      let left := remainder - k * l.denomination
      if left = 0 then .exact (chosen ++ [k]) (steps + 1)
      else if best.paid < amount - left then .exhausted (steps + 1) ⟨chosen ++ [k], amount - left⟩
      else .exhausted (steps + 1) best
  | l :: m :: rest, remainder, chosen, steps, best =>
    tryDown
      (fun k steps best =>
        if stepLimit ≤ steps then .limited best
        else
          let left := remainder - k * l.denomination
          if left = 0 then .exact (chosen ++ [k]) (steps + 1)
          else walkLevels amount (m :: rest) left (chosen ++ [k]) (steps + 1) best)
      (min l.count (remainder / l.denomination)) steps best

/-- The answer of a search: counts of the levels from the first, and exactness. -/
structure SearchAnswer where
  counts : List Nat
  exact : Bool
  deriving DecidableEq, Repr

/-- R82 to R87. -/
def searchLevels (levels : List Level) (amount : Nat) : SearchAnswer :=
  if amount = 0 then ⟨[], true⟩
  else
    match walkLevels amount levels amount [] 0 ⟨[], 0⟩ with
    | .exact counts _ => ⟨counts, true⟩
    | .exhausted _ best => ⟨best.counts, false⟩
    | .limited best => ⟨best.counts, false⟩

/-- R88: a tube placed before those with a smaller estimate. -/
def insertTube (t : Nat × Nat) : List (Nat × Nat) → List (Nat × Nat)
  | [] => [t]
  | u :: rest => if u.2 < t.2 then t :: u :: rest else u :: insertTube t rest

/-- R88: larger estimate first, then lower tube number. -/
def orderTubes (tubes : List (Nat × Nat)) : List (Nat × Nat) := tubes.foldl (fun acc t => insertTube t acc) []

/-- R88: a count allotted to ordered tubes, each up to its estimate. -/
def allot : Nat → List (Nat × Nat) → List (Nat × Nat)
  | _, [] => []
  | count, (number, estimate) :: rest => (number, min count estimate) :: allot (count - estimate) rest

/-- R88: the mapped plan, one entry for each level whose count is above 0. -/
def mapPlan : List Level → List Nat → List PlanEntry
  | l :: levels, k :: counts =>
    if k = 0 then mapPlan levels counts
    else ⟨l.denomination, k, allot k (orderTubes l.tubes)⟩ :: mapPlan levels counts
  | _, _ => []

/-- R88: the total of a plan. -/
def planTotal (plan : List PlanEntry) : Nat := (plan.map fun e => e.denomination * e.count).sum

/-- R80: a payout plan over the tubes as they stand. -/
def payoutPlan (tubes : List Tube) (amount : Nat) : List PlanEntry :=
  mapPlan (levelsOf tubes) (searchLevels (levelsOf tubes) amount).counts

/-- R80: whether an amount can be paid exactly. -/
def payableExactly (tubes : List Tube) (amount : Nat) : Bool := (searchLevels (levelsOf tubes) amount).exact

/-- R90: the largest value of the coin types. -/
def largestCoin (types : List CoinType) : Nat := types.foldl (fun m t => max m t.value) 0

/-- R90: lit when any amount of 1 to Vmax - 1 is answered not exact. -/
def indicatorLit (types : List CoinType) (tubes : List Tube) : Bool :=
  (List.range (largestCoin types - 1)).any fun i => !payableExactly tubes (i + 1)

/-- R91: an evaluation; a VEND-ONLY station makes no request (R80). -/
def Station.evaluateIndicator (s : Station) : Station :=
  { s with exactLit := isPayment s.cfg && indicatorLit s.cfg.coinTypes s.coin.tubes }

/-- What R91 watches of a tube: fitted, estimate, status. -/
def tubeWatch (t : Tube) : Bool × Nat × TubeStatus := (t.fitted, t.estimate, t.status)

end Sys2Proof.Machine
end

