-- ==== Sys2Proof/Machine/PayoutOps.lean ====
section
/-! DEFINITION. The payout unit (06): coins, misses, tube faults, stop and resume, and the end of a payout. -/

namespace Sys2Proof.Machine

/-- R101: the payout ends: the record is emptied, a pulse still running is left to end, and the remainder is handed to
the transaction. -/
def Station.endPayout (s : Station) : Station :=
  let remainder := s.payout.amount - s.payout.paid
  let emptied := { s with payout :=
    { Payout.blank with pulseOn := s.payout.pulseOn, pulseTimer := s.payout.pulseTimer } }
  emptied.payoutDone remainder

/-- R95: the run, the first entry of the plan with a count above 0. -/
def currentRun (plan : List PlanEntry) : Option PlanEntry := plan.find? fun e => e.count != 0

/-- R95: the first tube of a list whose estimate is above 0. -/
def firstFilled (s : Station) (tubes : List (Nat × Nat)) : Option Nat :=
  (tubes.find? fun t => (s.tube t.1).estimate != 0).map Prod.fst

/-- The tubes of a run's list after a tube. -/
def laterTubes (tube : Nat) : List (Nat × Nat) → List (Nat × Nat)
  | [] => []
  | t :: rest => if t.1 = tube then rest else laterTubes tube rest

/-- R95: the tube at the beginning of a run; with none filled the first of its list (notes/assumptions/38.md). -/
def runStartTube (s : Station) (run : PlanEntry) : Option Nat :=
  match firstFilled s run.tubes with
  | some t => some t
  | none => run.tubes.head?.map Prod.fst

/-- R95: the tube before a coin of the run: the current tube while it is filled, else the first later filled one, else
the current tube still. -/
def stepTube (s : Station) (run : PlanEntry) (tube : Nat) : Nat :=
  if (s.tube tube).estimate != 0 then tube
  else
    match firstFilled s (laterTubes tube run.tubes) with
    | some t => t
    | none => tube

/-- R95: the current tube taken for the run that now begins. -/
def Station.beginRun (s : Station) : Station :=
  match currentRun s.payout.plan with
  | none => { s with payout := { s.payout with currentTube := none } }
  | some run => { s with payout := { s.payout with currentTube := runStartTube s run } }

/-- R96: a coin is begun: a retry from the same tube, any other from the tube that R95 gives. -/
def Station.beginCoin (s : Station) : Station :=
  match currentRun s.payout.plan, s.payout.currentTube with
  | some run, some tube =>
    let tube' := if s.payout.attempt = 2 then tube else stepTube s run tube
    { s with payout := { s.payout with
      currentTube := some tube', phase := .pulse, pulseOn := some tube', pulseTimer := 0, windowTimer := 0 } }
  | _, _ => s

/-- R96: the next coin begins when the pulse before it has ended; while one runs it waits for that end. -/
def Station.nextCoin (s : Station) : Station :=
  match s.payout.pulseOn with
  | none => s.beginCoin
  | some _ => s

/-- A new plan for the unpaid rest (R100, R104) or for the amount (R94), with its first run begun. The record holds attempt
1 until the coin begins, in the pause after a tube fault too (notes/assumptions/39.md). -/
def Station.takePlan (s : Station) : Station :=
  ({ s with payout := { s.payout with
    plan := payoutPlan s.coin.tubes (s.payout.amount - s.payout.paid), attempt := 1, phase := .none } }).beginRun

/-- R102, R103: the unit holds the payout with no coin in progress. -/
def Station.stopPayout (s : Station) : Station :=
  { s with payout := { s.payout with state := .stopped, stop := .door, phase := .none, attempt := 1 } }

/-- R94: a payout begins; a request while one is held is not taken (R93). -/
def Station.startPayout (s : Station) (amount : Nat) : Station :=
  if s.payout.state = .idle then
    let filled := { s with payout :=
      { Payout.blank with
        state := .running, amount := amount, pulseOn := s.payout.pulseOn, pulseTimer := s.payout.pulseTimer } }
    let planned := filled.takePlan
    if planned.payout.plan = [] then planned.endPayout
    else if s.faults.doorOpen then planned.stopPayout
    else planned.nextCoin
  else s

/-- R122: a return payout of all credit. -/
def Station.returnPayout (s : Station) : Station :=
  ({ s with txn := { s.txn with credit := 0, state := .paying, offer := none, returnRequested := false } }).startPayout
    s.txn.credit

/-- R97 step 2: a tube's estimate after a confirmed coin. -/
def Station.takeCoinFrom (s : Station) (tube : Nat) : Station :=
  if (s.tube tube).estimate = 0 then
    { s with audit := { s.audit with countUnderrun := rise32 s.audit.countUnderrun 1 } }
  else s.setTube tube fun t => { t with estimate := t.estimate - 1 }

/-- R97 step 3: the run's count after a confirmed coin. -/
def payRun (plan : List PlanEntry) : List PlanEntry :=
  updateFirst (fun e => e.count != 0) (fun e => { e with count := e.count - 1 }) plan

/-- R97: the confirmation of the coin in progress, taken from `tube` in a run of `denomination`, up to step 5. The record
holds attempt 1 from then on (notes/assumptions/39.md). -/
def Station.confirmCoin (s : Station) (tube denomination : Nat) : Station :=
  let s1 := { s with payout := { s.payout with phase := .none, attempt := 1 } }
  let s2 := s1.takeCoinFrom tube
  let s3 := { s2 with payout := { s2.payout with paid := s2.payout.paid + denomination, plan := payRun s2.payout.plan } }
  let s4 := s3.writeJournal ⟨.out, some tube, denomination, s3.txn.credit⟩
  { s4 with audit := { s4.audit with payoutValue := rise32 s4.audit.payoutValue denomination } }

/-- R97 step 6, R95, R101, R102: after a confirmation the run ends, the payout ends or stops, or the next coin begins. -/
def Station.afterConfirm (s : Station) (runEnded : Bool) : Station :=
  match currentRun s.payout.plan with
  | none => s.endPayout
  | some _ =>
    let s1 := if runEnded then s.beginRun else s
    if s1.payout.stop = .door then s1.stopPayout else s1.nextCoin

/-- R97: a COUT edge while the coin phase is PULSE. -/
def Station.coutEdge (s : Station) : Station :=
  match s.payout.phase, currentRun s.payout.plan, s.payout.currentTube with
  | .pulse, some run, some tube => (s.confirmCoin tube run.denomination).afterConfirm (run.count = 1)
  | _, _, _ => s

/-- R100: a miss of attempt 2. -/
def Station.tubeFault (s : Station) (tube : Nat) : Station :=
  let faulted := (s.setTube tube fun t => { t with status := .payoutFault }).raise (.tube tube)
  let replanned := faulted.takePlan
  if replanned.payout.plan = [] then replanned.endPayout
  else if replanned.payout.stop = .door then replanned.stopPayout
  else { replanned with payout := { replanned.payout with phase := .pause, pauseTimer := 0, attempt := 1 } }

/-- R99, R100, R102: the window timer has reached 150 ms with no confirmation; the pulse has ended by then. The record
holds attempt 2 from the miss on (notes/assumptions/39.md). -/
def Station.missCoin (s : Station) : Station :=
  match s.payout.currentTube with
  | none => s
  | some tube =>
    let s1 := { s with payout := { s.payout with pulseOn := none } }
    if s1.payout.attempt = 2 then s1.tubeFault tube
    else if s1.payout.stop = .door then s1.stopPayout
    else { s1 with payout := { s1.payout with phase := .pause, pauseTimer := 0, attempt := 2 } }

/-- R96: the pulse has run its 60 ms. -/
def Station.pulseEnds (s : Station) : Station :=
  let s1 := { s with payout := { s.payout with pulseOn := none } }
  if s1.payout.state = .running && s1.payout.phase = .none then s1.beginCoin else s1

/-- R102: the door opens. -/
def Station.payoutDoorOpens (s : Station) : Station :=
  if s.payout.state = .running then
    let s1 := { s with payout := { s.payout with stop := .door, tubesChanged := false } }
    if s1.payout.phase = .pulse then s1 else s1.stopPayout
  else s

/-- R104: the door closes. -/
def Station.payoutDoorCloses (s : Station) : Station :=
  let s1 := { s with payout := { s.payout with stop := .none } }
  if s.payout.state = .stopped then
    if s.payout.tubesChanged then
      let replanned := ({ s1 with payout := { s1.payout with state := .running } }).takePlan
      if replanned.payout.plan = [] then replanned.endPayout else replanned.nextCoin
    else ({ s1 with payout := { s1.payout with state := .running } }).nextCoin
  else s1

/-- R103: a tube command taken while STOPPED. -/
def Station.noteTubesChanged (s : Station) : Station :=
  if s.payout.state = .stopped then { s with payout := { s.payout with tubesChanged := true } } else s

/-- R105, R106: the payout held is given up: every actuator off, the record emptied, and the remainder added to credit
with neither counter nor notice. -/
def Station.abandonPayout (s : Station) : Station :=
  let remainder := s.payout.amount - s.payout.paid
  ({ s with payout := Payout.blank }).addCredit remainder

end Sys2Proof.Machine
end

