-- ==== Sys2Proof/Machine/Sale.lean ====
section
/-! DEFINITION. Settling a sale at the transaction controller: results, refusals and late results (R115, R117 to R120),
and the messages of refusals and outcomes (R123). -/

namespace Sys2Proof.Machine

/-- R123: the message of a refusal's reason. -/
def reasonMessage : Reason → Message
  | .soldOut => .soldOut
  | .pendingOut => .soldOut
  | .jammed => .jammed
  | .tempHold => .hold
  | .service => .service
  | .notReady => .notAvail
  | .chute => .notAvail
  | .noSuch => .notAvail
  | .queueFull => .notAvail
  | .expired => .notAvail
  | .price => .notAvail

/-- R123: the message of an outcome other than DELIVERED, which has none. -/
def outcomeMessage : Outcome → Option Message
  | .delivered => none
  | .empty => some .soldOut
  | .soldOut => some .soldOut
  | .jammed => some .jammed
  | .motorFault => some .jammed
  | .tempHold => some .hold
  | .service => some .service
  | .interrupted => some .service
  | .noPower => some .notAvail
  | .chute => some .notAvail

/-- R117: a return payout of all credit, or IDLE when credit is 0. -/
def Station.returnAll (s : Station) : Station := if s.txn.credit = 0 then s.toResting else s.returnPayout

/-- R117: the escrow goes back to credit. -/
def Station.escrowBack (s : Station) : Station :=
  let s1 := s.addCredit s.txn.escrow
  { s1 with txn := { s1.txn with escrow := 0 } }

/-- R117, R118, R119: after a failed sale: the return payout when it was requested, else the resting state. -/
def Station.afterFailedSale (s : Station) : Station := if s.txn.returnRequested then s.returnAll else s.toResting

/-- R117, R118: a committed sale that ends without DELIVERED. -/
def Station.failSale (s : Station) (m : Option Message) : Station :=
  let s1 := s.escrowBack
  let s2 := match m with
    | some m => s1.showCustomer m Config.messageTime
    | none => s1
  s2.afterFailedSale

/-- R117: the sale is taken: count and value, escrow 0, and a peer's double drop. -/
def Station.bookSale (s : Station) (fromPeer : Bool) (drops : Nat) : Station :=
  { s with
    txn := { s.txn with escrow := 0 }
    audit := { s.audit with
      salesCount := rise32 s.audit.salesCount 1
      salesValue := rise32 s.audit.salesValue s.txn.escrow
      doubleDrops := if fromPeer && decide (2 ≤ drops) then rise32 s.audit.doubleDrops 1 else s.audit.doubleDrops } }

/-- R117 on DELIVERED. -/
def Station.takeSale (s : Station) (fromPeer : Bool) (drops : Nat) : Station :=
  let s1 := s.bookSale fromPeer drops
  if !s.cfg.multiVend || s.txn.returnRequested then s1.returnAll else s1.toResting

/-- R120. -/
def Station.lateResult (s : Station) (o : Outcome) : Station :=
  { s with audit := { s.audit with
    lateResult := rise32 s.audit.lateResult 1
    lateDelivered := if o = .delivered then rise32 s.audit.lateDelivered 1 else s.audit.lateDelivered } }

/-- Whether an answer is that of the current offer (R114 to R118). -/
def Station.answersOffer (s : Station) (sender : Payer) (tag : Nat) : Bool :=
  match s.txn.offer with
  | some o => o.owner = sender && o.tag = tag
  | none => false

/-- R117, R120: a RESULT frame, or an outcome handed by the own vend queue. -/
def Station.takeResult (s : Station) (sender : Payer) (tag : Nat) (o : Outcome) (drops : Nat) : Station :=
  if s.answersOffer sender tag && s.txn.state = .committed then
    if o = .delivered then s.takeSale (sender != .loc) drops else s.failSale (outcomeMessage o)
  else s.lateResult o

/-- R115, R116, R118: a REFUSE frame, or a refusal of the own vend queue. -/
def Station.takeRefuse (s : Station) (sender : Payer) (tag : Nat) (r : Reason) : Station :=
  if s.answersOffer sender tag then
    if s.txn.state = .asking then (s.showCustomer (reasonMessage r) Config.messageTime).toResting
    else if s.txn.state = .committed then s.failSale (some (reasonMessage r))
    else s
  else s

/-- R119: the result timer has reached its time in COMMITTED; the WITHDRAW is handed by the caller. -/
def Station.giveUpSale (s : Station) : Station :=
  let s1 := s.escrowBack
  let s2 := { s1 with audit := { s1.audit with inDoubt := rise32 s1.audit.inDoubt 1 } }
  (s2.showCustomer .noAnswer Config.messageTime).afterFailedSale

end Sys2Proof.Machine
end

