-- ==== Sys2Proof/Machine/QueueOps.lean ====
section
/-! DEFINITION. The vend queue (02): admission, the commit window, removals and their answers, and the handing of an
entry to the drive sequencer (R24, R36, R38). -/

namespace Sys2Proof.Machine

/-! ### Admission (R18 to R20) -/

/-- R18: the reason of the first failing check, in the order of its table; `none` when all nine pass. -/
def Station.offerRefusal (s : Station) (tray column : Nat) : Option Reason :=
  let position := positionNumber tray column
  let r := s.spiral position
  if !s.active then some .notReady
  else if s.faults.doorOpen then some .service
  else if s.chuteStops then some .chute
  else if !s.namesPosition tray column then some .noSuch
  else if r.status = .soldOut then some .soldOut
  else if r.status = .jammed || r.status = .motorFault then some .jammed
  else if s.withheld position then some .tempHold
  else if stockExhausted r.stock (s.namingCount position) then some .pendingOut
  else if 4 ≤ s.queue.length then some .queueFull
  else none
where
  /-- R18 check 8: a known stock at or below the naming count. -/
  stockExhausted (stock : Stock) (naming : Nat) : Bool :=
    match stock with
    | .known n => n ≤ naming
    | .unknown => false

/-- The queue's answer to an OFFER. -/
inductive OfferAnswer
  | accept (price queuePos : Nat)
  | refuse (reason : Reason)
  deriving DecidableEq, Repr

/-- An entry of a payer and tag (R19, R22, R23); a test entry has neither. -/
def entryIs (payer : Payer) (tag : Nat) (e : Entry) : Bool := e.payer = some payer && e.tag = some tag

/-- R20: the entry added by an admitted offer. -/
def Station.newEntry (s : Station) (payer : Payer) (tag tray column : Nat) : Entry where
  payer := some payer
  tag := some tag
  position := positionNumber tray column
  price := (s.spiral (positionNumber tray column)).price
  state := .awaitCommit
  test := false
  commitTimer := 0
  queuePos := s.queue.length + 1

/-- R18 to R20: an OFFER of a payer: repetition, refusal or admission, with its answer. -/
def Station.queueOffer (s : Station) (payer : Payer) (tag tray column : Nat) : Station × OfferAnswer :=
  match s.queue.find? (entryIs payer tag) with
  | some e => (s, if s.active then .accept e.price e.queuePos else .refuse .notReady)
  | none =>
    match s.offerRefusal tray column with
    | some r => (s, .refuse r)
    | none =>
      let e := s.newEntry payer tag tray column
      (({ s with queue := s.queue ++ [e] }).applyNaming e.position, .accept e.price e.queuePos)

/-! ### Handing an entry to the drive sequencer -/

/-- An energising begins: its time and R34's assessments begin anew; until the first of them the current is 0
(notes/assumptions/28.md). -/
def Vend.energised (v : Vend) (phase : VendPhase) (direction : Direction) : Vend :=
  { v with
    phase := phase, timer := 0, onTime := 0, direction := direction
    current := 0, low := true, shorted := false, jamRun := 0 }

/-- R38: the vend's position is energised forward and HOME is read. -/
def Station.energise (s : Station) : Station :=
  match s.vend with
  | none => s
  | some v =>
    let phase := if s.homeOpen.getD (v.entry.position - 10) false then .turning else .starting
    { s with vend := some (v.energised phase .forward) }

/-- R36: the vend record as it is filled for an entry. -/
def Vend.fresh (e : Entry) : Vend where
  entry := e
  phase := .claiming
  turnsUsed := 0
  jams := 0
  drops := 0
  timer := 0
  onTime := 0
  direction := .forward
  current := 0
  low := true
  shorted := false
  jamRun := 0

/-- R36: the vend record is filled; a VEND-MOTOR claim kept standing counts as granted, else the load is asked for. -/
def Station.beginVend (s : Station) (e : Entry) : Station :=
  let s1 := { s with vend := some (Vend.fresh e) }
  match s.power.vendMotor with
  | some _ => s1.energise
  | none => s1.request .vendMotor s.cfg.vendMotor

/-- R24: an entry that may be picked. -/
def Station.pickable (s : Station) (e : Entry) : Bool := e.state = .committed && !s.withheld e.position

/-- R24: with no vend cycle in flight the oldest pickable entry becomes VENDING and its cycle begins. -/
def Station.pick (s : Station) : Station :=
  match s.vend with
  | some _ => s
  | none =>
    match s.queue.find? s.pickable with
    | none => s
    | some e =>
      let picked := { e with state := .vending }
      ({ s with queue := updateFirst s.pickable (fun _ => picked) s.queue }).beginVend picked

/-! ### COMMIT, WITHDRAW, expiry (R21 to R23) -/

/-- R22: a COMMIT, with the reason of the REFUSE that answers it, if any. That the commit timer so stopped holds 0 is the
model's choice (notes/assumptions/44.md). -/
def Station.queueCommit (s : Station) (payer : Payer) (tag price : Nat) : Station × Option Reason :=
  match s.queue.find? (entryIs payer tag) with
  | none => (s, some (if s.faults.doorOpen then .service else .expired))
  | some e =>
    if e.state = .awaitCommit then
      if price = e.price then
        (({ s with queue := updateFirst (entryIs payer tag) (fun e => { e with state := .committed, commitTimer := 0 }) s.queue }).pick,
          none)
      else ({ s with queue := removeFirst (entryIs payer tag) s.queue }, some .price)
    else (s, none)

/-- R23: a WITHDRAW removes an AWAIT-COMMIT or COMMITTED entry. -/
def Station.queueWithdraw (s : Station) (payer : Payer) (tag : Nat) : Station :=
  { s with queue := removeFirst (fun e => entryIs payer tag e && e.state != .vending) s.queue }

/-- R21: the commit timer of an entry has reached 2 s. -/
def Station.expireEntry (s : Station) (payer : Payer) (tag : Nat) : Station :=
  { s with queue := removeFirst (fun e => entryIs payer tag e && e.state = .awaitCommit) s.queue }

/-! ### Answers and removals (R5, R25 to R29) -/

/-- A RESULT for an entry: on the line to a peer, handed inside for LOCAL, none for a test entry. -/
def Station.answerResult (s : Station) (e : Entry) (o : Outcome) (drops : Nat) : Station :=
  match e.payer, e.tag with
  | some .loc, some tag => s.takeResult .loc tag o drops
  | some (.peer a), some tag => s.hand a (.result tag o drops)
  | _, _ => s

/-- A REFUSE for an entry. -/
def Station.answerRefuse (s : Station) (e : Entry) (r : Reason) : Station :=
  match e.payer, e.tag with
  | some .loc, some tag => s.takeRefuse .loc tag r
  | some (.peer a), some tag => s.hand a (.refuse tag r)
  | _, _ => s

/-- The answer to a removed entry: REFUSE while AWAIT-COMMIT, RESULT with 0 drops once COMMITTED. -/
def Station.answerRemoved (reason : Reason) (o : Outcome) (s : Station) (e : Entry) : Station :=
  match e.state with
  | .awaitCommit => s.answerRefuse e reason
  | .committed => s.answerResult e o 0
  | .vending => s

/-- Entries removed and answered in queue order. -/
def Station.removeEntries (s : Station) (p : Entry → Bool) (reason : Reason) (o : Outcome) : Station :=
  (s.queue.filter p).foldl (Station.answerRemoved reason o) { s with queue := s.queue.filter fun e => !p e }

/-- R27: the door opens. -/
def Station.removeForDoor (s : Station) : Station :=
  s.removeEntries (fun e => e.state = .awaitCommit || (e.state = .committed && !e.test)) .service .service

/-- R28: cold-hold begins. -/
def Station.removeForColdHold (s : Station) : Station :=
  s.removeEntries (fun e => e.state != .vending && (s.spiral e.position).zone = .chilled) .tempHold .tempHold

/-- R29: a chute fault begins with the delivery guarantee on. -/
def Station.removeForChute (s : Station) : Station :=
  s.removeEntries (fun e => e.state != .vending) .chute .chute

/-- R5: the answers for a spiral that ended SOLD-OUT, or JAMMED or MOTOR-FAULT. -/
def Station.removeForSpiral (s : Station) (position : Nat) : Station :=
  if (s.spiral position).status = .soldOut then
    s.removeEntries (fun e => e.position = position) .soldOut .soldOut
  else s.removeEntries (fun e => e.position = position) .jammed .jammed

/-! ### Test vends (R30) -/

/-- R30: the reason a TEST-VEND is refused, if it is. -/
def Station.testRefusal (s : Station) (position : Nat) : Option Reason :=
  let r := s.spiral position
  if !s.namesPosition (position / 10) (position % 10) then some .noSuch
  else if r.status = .jammed || r.status = .motorFault then some .jammed
  else if s.withheld position then some .tempHold
  else if s.chuteStops then some .chute
  else if 4 ≤ s.queue.length then some .queueFull
  else none

/-- R30: the test entry added, named and picked. No commit timer runs for it and no ACCEPT was sent for it: 0 in both
fields is the model's choice (notes/assumptions/44.md). -/
def Station.addTestEntry (s : Station) (position : Nat) : Station :=
  let e : Entry :=
    { payer := none, tag := none, position := position, price := 0, state := .committed, test := true, commitTimer := 0,
      queuePos := 0 }
  (({ s with queue := s.queue ++ [e] }).applyNaming position).pick

end Sys2Proof.Machine
end

