-- ==== Sys2Proof/Machine/DriveOps.lean ====
section
/-! DEFINITION. The drive sequencer's shared operations (03): the end of a vend (R25, R47), keeping or releasing the
claim (R48), drops (R45, R53, R54) and the chute. -/

namespace Sys2Proof.Machine

/-- R33: the sense in which the vend's motor is energised, if it is: in STARTING, TURNING and the reversed stretch of
REVERSING. -/
def motorSense (v : Vend) : Option Direction :=
  match v.phase with
  | .starting => some .forward
  | .turning => some .forward
  | .reversing .reversed => some .reversed
  | _ => none

/-- The place of a vend outcome among the outcome counters (R195). -/
def outcomeIndex : Outcome → Nat
  | .delivered => 0
  | .empty => 1
  | .jammed => 2
  | .motorFault => 3
  | .interrupted => 4
  | .noPower => 5
  | _ => 6

/-- R47: the audit counters of a vend's end. -/
def Station.countOutcome (s : Station) (o : Outcome) (drops : Nat) : Station :=
  { s with audit := { s.audit with
    outcomes := updateAt s.audit.outcomes (outcomeIndex o) fun n => rise32 n 1
    doubleDrops := if 2 ≤ drops then rise32 s.audit.doubleDrops 1 else s.audit.doubleDrops } }

/-- R47: the notices JAM and MOTOR. -/
def Station.noticeOutcome (s : Station) (o : Outcome) (position : Nat) : Station :=
  match o with
  | .jammed => s.raise (.jam position)
  | .motorFault => s.raise (.motor position)
  | _ => s

/-- R47 and R25 step 1: counters, notice and spiral record of a vend that ends. -/
def Station.recordVendEnd (s : Station) (v : Vend) (o : Outcome) : Station :=
  ((s.countOutcome o v.drops).noticeOutcome o v.entry.position).recordOutcome o v.drops v.entry.position v.entry.test

/-- R25 step 2: the VENDING entry leaves the queue and the vend record is emptied. -/
def Station.dropVending (s : Station) : Station :=
  { s with vend := none, queue := removeFirst (fun e => e.state = .vending) s.queue }

/-- R25 step 3: the entry's answer; a test vend's outcome is shown to the technician (R191). -/
def Station.answerVend (s : Station) (v : Vend) (o : Outcome) : Station :=
  if v.entry.test then s.showService (.testOutcome v.entry.position o v.drops) else s.answerResult v.entry o v.drops

/-- R5, R8: the end of the vend removes the spiral's other entries: its status has left IN-SERVICE, or it ended EMPTY. -/
def removesOthers (before after : SpiralStatus) (o : Outcome) : Bool :=
  (before = .inService && after != .inService) || o = .empty

/-- R25 steps 1 to 4, with R4 applied to the spiral as they leave it. -/
def Station.finishVend (s : Station) (v : Vend) (o : Outcome) : Station :=
  let position := v.entry.position
  let s1 := (s.recordVendEnd v o).dropVending
  let s2 := s1.answerVend v o
  let s3 := if removesOthers (s.spiral position).status (s1.spiral position).status o then s2.removeForSpiral position else s2
  s3.applyNaming position

/-- R48: after the pick, the claim and a waiting request are kept for a picked entry, else released and withdrawn. -/
def Station.settleClaim (s : Station) : Station :=
  match s.vend with
  | some _ => s
  | none => (s.releaseSlot .vendMotor).withdrawRequest .vendMotor

/-- R25: the end of the vend in flight with an outcome. -/
def Station.endVend (s : Station) (o : Outcome) : Station :=
  match s.vend with
  | none => s
  | some v => ((s.finishVend v o).pick).settleClaim

/-- R49, R51: the outcome of an interrupted vend. -/
def interruptedOutcome (drops : Nat) : Outcome := if drops = 0 then .interrupted else .delivered

/-- R53, R54: chute activity: the counter, the time kept, and the rate condition taken anew. -/
def Station.chuteActivity (s : Station) : Station :=
  let kept := s.chute.edges ++ [s.now]
  let edges := kept.drop (kept.length - 21)
  let rate := edges.length = 21 && decide (s.now ≤ edges.headD 0 + Config.hour)
  { s with
    chute := { s.chute with edges := edges, rate := rate }
    audit := { s.audit with chuteActivity := rise32 s.audit.chuteActivity 1 } }

/-- R45, R7: a drop counted for the vend in flight lowers the spiral's stock; R4 is then applied. -/
def Station.countDrop (s : Station) (v : Vend) : Station :=
  let s1 := { s with vend := some { v with drops := v.drops + 1 } }
  (s1.setSpiral v.entry.position fun r => { r with stock := stockAfterDrop r.stock }).applyNaming v.entry.position

/-- R44, R45, R53: what a DROP edge does, by vend and phase. -/
def Station.dropTaken (s : Station) : Station :=
  match s.vend with
  | none => s.chuteActivity
  | some v =>
    match v.phase with
    | .claiming => s.chuteActivity
    | .settling => if v.drops < 3 then (s.countDrop v).endVend .delivered else s
    | .starting => if v.drops < 3 then s.countDrop v else s
    | .turning => if v.drops < 3 then s.countDrop v else s
    | .reversing _ => if v.drops < 3 then s.countDrop v else s

/-- R43, R46: HOME closes in TURNING. -/
def Station.revolutionEnds (s : Station) (v : Vend) : Station :=
  let v1 := { v with turnsUsed := v.turnsUsed + 1, timer := 0 }
  let s1 := { s with vend := some v1 }
  if v1.drops != 0 || !s.cfg.guarantee then s1.endVend .delivered
  else { s1 with vend := some { v1 with phase := .settling } }

/-- R41: a jam in STARTING or TURNING. -/
def Station.jamTaken (s : Station) (v : Vend) : Station :=
  let v1 := { v with jams := v.jams + 1 }
  if v1.jams = 1 then { s with vend := some { v1 with phase := .reversing .firstPause, timer := 0 } }
  else ({ s with vend := some v1 }).endVend .jammed

/-- R44: the drop window has reached 800 ms with no drop. -/
def Station.windowEnds (s : Station) (v : Vend) : Station :=
  if v.turnsUsed < 1 + s.cfg.extraTurns then s.energise else s.endVend .empty

end Sys2Proof.Machine
end

