-- ==== Sys2Proof/Machine/Txn.lean ====
section
/-! DEFINITION. The transaction controller above the queue (07): owners, offers, accepts, RET, the keypad buffer and
the vend-only panel. -/

namespace Sys2Proof.Machine

/-! ### Frames or handoffs to an owner -/

/-- A WITHDRAW to the owner of an offer, on the line or to the local vend queue. -/
def Station.withdrawFrom (s : Station) (owner : Payer) (tag : Nat) : Station :=
  match owner with
  | .loc => s.queueWithdraw .loc tag
  | .peer a => s.hand a (.withdraw tag)

/-- R114 step 3: the COMMIT to the owner; the local queue's refusal, if any, is taken under R118. -/
def Station.commitTo (s : Station) (owner : Payer) (tag price : Nat) : Station :=
  match owner with
  | .loc =>
    match s.queueCommit .loc tag price with
    | (s1, some r) => s1.takeRefuse .loc tag r
    | (s1, none) => s1
  | .peer a => s.hand a (.commit tag price)

/-! ### ACCEPT (R114, R116) -/

/-- R114: a failed check: the message, the WITHDRAW, the resting state. -/
def Station.declineAccept (s : Station) (o : Offer) (m : Message) (length : Nat) : Station :=
  ((s.showCustomer m length).withdrawFrom o.owner o.tag).toResting

/-- R114 steps 1 to 5. -/
def Station.bindSale (s : Station) (o : Offer) (price queuePos : Nat) : Station :=
  ({ s with txn := { s.txn with
    offer := some { o with quoted := some price }
    escrow := price
    credit := s.txn.credit - price
    state := .committed
    returnRequested := false
    resultTimer := 0
    shownPosition := queuePos } }).commitTo o.owner o.tag price

/-- R114: the ACCEPT of the current offer taken in ASKING. -/
def Station.acceptCurrent (s : Station) (o : Offer) (price queuePos : Nat) : Station :=
  if s.txn.credit < price then s.declineAccept o (.price price) Config.messageTime
  else if o.owner != .loc && !s.active then s.declineAccept o .notAvail Config.messageTime
  else if !s.cfg.multiVend && !payableExactly s.coin.tubes (s.txn.credit - price) then
    s.declineAccept o .exact Config.exactMessageTime
  else s.bindSale o price queuePos

/-- R114, R116: an ACCEPT from a sender. -/
def Station.takeAccept (s : Station) (sender : Payer) (tag price queuePos : Nat) : Station :=
  match s.txn.offer with
  | some o =>
    if o.owner = sender && o.tag = tag then (if s.txn.state = .asking then s.acceptCurrent o price queuePos else s)
    else s.withdrawFrom sender tag
  | none => s.withdrawFrom sender tag

/-! ### Offers (R113) -/

/-- The PRESENT peers of the view, which is kept in address order. -/
def Station.presentPeers (s : Station) : List Peer := s.peers.filter fun p => p.presence = .present

/-- R113: the owner of a letter, the lowest address among the station itself and the PRESENT peers of that letter. -/
def Station.ownerOf (s : Station) (letter : Nat) : Option Payer :=
  match s.presentPeers.find? fun p => p.letter = some letter with
  | some p => if s.cfg.letter = letter && s.cfg.address < p.address then some .loc else some (.peer p.address)
  | none => if s.cfg.letter = letter then some .loc else none

/-- R171: the line state code of ACTIVE in a HEARTBEAT. -/
def lineStateActive : Nat := 2

/-- R113: a peer owner to which a selection is sent. -/
def Station.offerReaches (s : Station) (address : Nat) : Bool :=
  s.active && s.peers.any fun p => p.address = address && p.lineState = some lineStateActive && p.accepting

/-- R113: the offer written into the record. -/
def Station.recordOffer (s : Station) (owner : Payer) (tray column : Nat) : Station :=
  let tag := (s.txn.lastTag + 1) % 16
  { s with txn := { s.txn with
    lastTag := tag
    offer := some ⟨owner, tag, positionNumber tray column, none⟩
    state := .asking
    answerTimer := 0 } }

/-- R113: a LOCAL offer, answered by the vend queue in the same event. -/
def Station.offerLocal (s : Station) (tray column : Nat) : Station :=
  let s1 := s.recordOffer .loc tray column
  match s1.queueOffer .loc s1.txn.lastTag tray column with
  | (s2, .accept price queuePos) => s2.takeAccept .loc s1.txn.lastTag price queuePos
  | (s2, .refuse r) => s2.takeRefuse .loc s1.txn.lastTag r

/-- R113: an OFFER to a peer. -/
def Station.offerPeer (s : Station) (address tray column : Nat) : Station :=
  let s1 := s.recordOffer (.peer address) tray column
  s1.hand address (.offer s1.txn.lastTag tray column)

/-- R113: a completed selection at a payment station. -/
def Station.makeOffer (s : Station) (letter tray column : Nat) : Station :=
  match s.ownerOf letter with
  | none => s.showCustomer .notAvail Config.messageTime
  | some .loc => s.offerLocal tray column
  | some (.peer a) =>
    if s.offerReaches a then s.offerPeer a tray column else s.showCustomer .notAvail Config.messageTime

/-! ### RET and forfeiture (R121) -/

/-- R121: RET by the transaction's state. -/
def Station.returnKey (s : Station) : Station :=
  match s.txn.state, s.txn.offer with
  | .credit, _ => s.returnAll
  | .asking, some o => (s.withdrawFrom o.owner o.tag).returnAll
  | .committed, _ => { s with txn := { s.txn with returnRequested := true } }
  | _, _ => s

/-- R121: the credit is forfeited. -/
def Station.forfeit (s : Station) : Station :=
  ({ s with
    txn := { s.txn with credit := 0 }
    audit := { s.audit with forfeitedValue := rise32 s.audit.forfeitedValue s.txn.credit } }).toResting

/-! ### The keypad buffer (R111, R112) -/

/-- The buffer cleared. -/
def Station.clearBuffer (s : Station) : Station := { s with panel := { s.panel with buffer := none, bufferTimer := 0 } }

/-- The letter of the buffer, the own letter when it is clear. -/
def Station.bufferLetter (s : Station) : Nat :=
  match s.panel.buffer with
  | some b => b.letter
  | none => s.cfg.letter

/-- R111: letters appended to the cycle unless already in it. -/
def addLetters (cycle : List Nat) : List (Option Nat) → List Nat
  | [] => cycle
  | none :: rest => addLetters cycle rest
  | some l :: rest => addLetters (if cycle.contains l then cycle else cycle ++ [l]) rest

/-- R111: the cycle of CAB. -/
def Station.letterCycle (s : Station) : List Nat := addLetters [s.cfg.letter] (s.presentPeers.map fun p => p.letter)

/-- R111: the letter after `letter` in the cycle that begins with `first`; the first after the last, and for a letter
no longer in the cycle. -/
def nextLetter (first letter : Nat) : List Nat → Nat
  | l :: m :: rest => if l = letter then m else nextLetter first letter (m :: rest)
  | _ => first

/-- R111: CAB. -/
def Station.stepLetter (s : Station) : Station :=
  let letter := nextLetter s.cfg.letter s.bufferLetter s.letterCycle
  { s with panel := { s.panel with buffer := some ⟨letter, none⟩, bufferTimer := 0 } }

/-- R124: the message of a lookup at the vend-only panel. -/
def Station.panelMessage (s : Station) (tray column : Nat) : Message :=
  let position := positionNumber tray column
  let r := s.spiral position
  if !s.namesPosition tray column then .notAvail
  else if r.status = .soldOut then .soldOut
  else if r.status = .jammed || r.status = .motorFault then .jammed
  else if s.withheld position then .hold
  else .price r.price

/-- R112: a completed selection, by the role. -/
def Station.selection (s : Station) (letter tray column : Nat) : Station :=
  if isPayment s.cfg then s.makeOffer letter tray column
  else s.showCustomer (s.panelMessage tray column) Config.messageTime

/-- R112: a digit added to the buffer. -/
def Station.bufferDigit (s : Station) (digit : Nat) : Station :=
  match s.panel.buffer with
  | some ⟨letter, some tray⟩ => s.clearBuffer.selection letter tray digit
  | _ =>
    if 1 ≤ digit && digit ≤ 6 then
      { s with panel := { s.panel with buffer := some ⟨s.bufferLetter, some digit⟩, bufferTimer := 0 } }
    else s.clearBuffer.showCustomer .notAvail Config.messageTime

/-- R111: IDLE or CREDIT, the states in which keys enter the buffer. -/
def Station.bufferOpen (s : Station) : Bool := s.txn.state = .idle || s.txn.state = .credit

/-- R111, R121: every key taken restarts the inactivity timer; the 10 s of the buffer run from the last key. -/
def Station.keyTaken (s : Station) : Station :=
  { s.restartInactivity with panel := { s.panel with bufferTimer := 0 } }

/-- The customer's keys are taken: the keypad is scanned and the door is closed (R111). -/
def Station.customerKeys (s : Station) : Bool := s.running && !s.faults.doorOpen

end Sys2Proof.Machine
end

