-- ==== Sys2Proof/Machine/Cooling.lean ====
section
/-! DEFINITION. The cooling controller (08): sensors, thermostat, compressor, condenser protection, fixed duty, defrost
and cold-hold. The controller is OFF exactly while the compressor state is OFF. -/

namespace Sys2Proof.Machine

def Station.setCooling (s : Station) (f : Cooling → Cooling) : Station := { s with cooling := f s.cooling }

/-! ### Defrost begins, REST is entered and left (R133, R134, R142 to R144) -/

/-- R142: a defrost begins: HEATER-WAIT with a heater request, or OFF-CYCLE. -/
def Station.beginDefrost (s : Station) : Station :=
  if s.cfg.cooling.heaterMethod then
    (s.setCooling fun c => { c with
      defrostRequest := false, compressor := .defrost, defrostTimer := 0, phase := .heaterWait, heaterWaitTimer := 0 }).request
      .defrostHeater s.cfg.heater
  else s.setCooling fun c => { c with
    defrostRequest := false, compressor := .defrost, defrostTimer := 0, phase := .offCycle }

/-- R134: WAIT-POWER, with the request of inrush watts. -/
def Station.enterWaitPower (s : Station) : Station :=
  (s.setCooling fun c => { c with compressor := .waitPower }).request .compressor s.cfg.inrush

/-- R133: REST is left: by a pending defrost, else by demand. -/
def Station.leaveRest (s : Station) : Station :=
  if s.cooling.defrostRequest then s.beginDefrost
  else if s.cooling.demand then s.enterWaitPower
  else s.setCooling fun c => { c with compressor := .idle }

/-- R133: REST is entered, and left in the same event when 180 s have passed since the last stop. -/
def Station.enterRest (s : Station) : Station :=
  let s1 := s.setCooling fun c => { c with compressor := .rest }
  if Config.minimumOff ≤ s1.cooling.sinceStop then s1.leaveRest else s1

/-! ### Stops (R135, R136, R138, R139) -/

/-- A stop: the time since the last stop and the ice timer restart, and fixed duty in phase ON goes to OFF with its timer
at zero (R138), which leaves demand as it stands (notes/assumptions/43.md). -/
def Cooling.stop (c : Cooling) : Cooling :=
  { c with
    sinceStop := 0
    iceTimer := 0
    iceTaken := false
    dutyTimer := if c.duty = some .on then 0 else c.dutyTimer
    duty := if c.duty = some .on then some .off else c.duty }

/-- R135: a normal stop, into a pending defrost or REST. -/
def Station.normalStop (s : Station) : Station :=
  let s1 := (s.setCooling Cooling.stop).releaseSlot .compressor
  if s1.cooling.defrostRequest then s1.beginDefrost else s1.enterRest

/-- R136, R139: PENDING becomes NONE when the compressor stops by a trip or a shedding. -/
def unpend (p : DefrostPhase) : DefrostPhase := if p = .pending then .none else p

/-- R136: both kept trips fall within the 60 minutes before now; one exactly 60 minutes old does
(notes/assumptions/36.md). -/
def thirdTrip (now : Nat) (times : List Nat) : Bool := times.length = 2 && times.all fun t => now ≤ t + Config.hour

/-- R136: a trip. -/
def Station.trip (s : Station) : Station :=
  let third := thirdTrip s.now s.cooling.tripTimes
  let kept := s.cooling.tripTimes ++ [s.now]
  let s1 := s.setCooling fun c => { c.stop with
    phase := unpend c.phase
    tripTimes := kept.drop (kept.length - 2)
    compressor := if third then .latched else .lockout
    lockoutTimer := 0 }
  let s2 := { s1 with audit := { s1.audit with lockouts := rise32 s1.audit.lockouts 1 } }
  let s3 := s2.releaseSlot .compressor
  if third then s3.raise .compressor else s3

/-- R139: the compressor's slot has been shed. -/
def Station.compressorShed (s : Station) : Station :=
  if s.cooling.compressor = .run then (s.setCooling fun c => { c.stop with phase := unpend c.phase }).enterRest else s

/-! ### Termination and DRIP (R145, R146) -/

/-- R145: a phase that can terminate. -/
def DefrostPhase.melting : DefrostPhase → Bool
  | .heaterWait => true
  | .heater => true
  | .offCycle => true
  | _ => false

/-- R145, R146: the defrost terminates into DRIP. -/
def Station.terminateDefrost (s : Station) : Station :=
  let s1 := if s.cooling.phase = .heater then s.releaseSlot .defrostHeater else s.withdrawRequest .defrostHeater
  let s2 := s1.setCooling fun c => { c with
    phase := .drip, dripTimer := 0, runAccumulator := 0, runTimeTaken := false, doorCounter := 0 }
  { s2 with audit := { s2.audit with defrosts := rise32 s2.audit.defrosts 1 } }

/-- R145: the heater's slot has been shed. -/
def Station.heaterShed (s : Station) : Station := if s.cooling.phase = .heater then s.terminateDefrost else s

/-- R146: the drip time has passed. -/
def Station.dripEnds (s : Station) : Station := (s.setCooling fun c => { c with phase := .none }).enterRest

/-! ### Demand (R132, R134, R135) -/

/-- What a change of demand does to the compressor. -/
def Station.demandChanged (s : Station) (before : Bool) : Station :=
  if s.cooling.demand = before then s
  else
    match s.cooling.compressor with
    | .idle => if s.cooling.demand then s.enterWaitPower else s
    | .waitPower =>
      if s.cooling.demand then s
      else (s.setCooling fun c => { c with compressor := .idle }).withdrawRequest .compressor
    | .run =>
      if s.cooling.demand then s
      else if Config.minimumOn ≤ s.cooling.minOnTimer then s.normalStop
      else s
    | _ => s

/-! ### Defrost requests (R140 to R142) -/

/-- R142: a defrost request, by compressor state. -/
def Station.requestDefrost (s : Station) : Station :=
  let s1 := s.setCooling fun c => { c with defrostRequest := true }
  match s1.cooling.compressor with
  | .idle => s1.beginDefrost
  | .rest => s1.beginDefrost
  | .waitPower => (s1.withdrawRequest .compressor).beginDefrost
  | .run =>
    if Config.minimumOn ≤ s1.cooling.minOnTimer then s1.normalStop
    else s1.setCooling fun c => { c with phase := .pending }
  | .off => s1
  | .defrost => s1
  | .lockout => s1
  | .latched => s1

/-- R140, R141: no request stands and no defrost is in progress. -/
def Cooling.defrostFree (c : Cooling) : Bool := !c.defrostRequest && c.phase = .none

/-- R140: a cause of the set whose condition becomes met. -/
def Station.causeMet (s : Station) (inSet : Bool) : Station :=
  if inSet && s.cooling.defrostFree then s.requestDefrost else s

/-- R140: the cause RUN-TIME becomes met. -/
def Station.runTimeMet (s : Station) : Station :=
  (s.setCooling fun c => { c with runTimeTaken := true }).causeMet s.cfg.cooling.causeRunTime

/-- R140: the cause DOOR-COUNT: met by the count and the limit now, and not by those before. -/
def Station.doorCountMet (s : Station) (countBefore limitBefore : Nat) : Station :=
  if countBefore < limitBefore && s.cfg.cooling.doorLimit ≤ s.cooling.doorCounter then
    s.causeMet s.cfg.cooling.causeDoorCount
  else s

/-- R140: a door opening at a station with cooling fitted. -/
def Station.countDoor (s : Station) : Station :=
  if s.cfg.coolingFitted then
    (s.setCooling fun c => { c with doorCounter := min 255 (c.doorCounter + 1) }).doorCountMet s.cooling.doorCounter
      s.cfg.cooling.doorLimit
  else s

/-! ### Sensors (R128 to R131) -/

/-- R128: a valid code. -/
def codeValid (code : Nat) : Bool := 16 ≤ code && code ≤ 1007

/-- R130: a quotient rounded to the nearest whole, one half away from zero. -/
def roundQuotient (n : Int) (d : Nat) : Int :=
  let magnitude : Int := ((2 * n.natAbs + d) / (2 * d) : Nat)
  if n < 0 then -magnitude else magnitude

/-- R130: a code above point `p`, against the points after it. -/
def convertFrom (code : Nat) (p : TablePoint) : List TablePoint → Int
  | [] => p.temp
  | q :: rest =>
    if code ≤ q.code then p.temp + roundQuotient ((q.temp - p.temp) * (code - p.code : Nat)) (q.code - p.code)
    else convertFrom code q rest

/-- R130: a mean code converted through the table. -/
def convert (table : List TablePoint) (code : Nat) : Int :=
  match table with
  | [] => 0
  | p :: rest => if code ≤ p.code then p.temp else convertFrom code p rest

/-- R128: the window with a valid code added. -/
def pushCode (window : List Nat) (code : Nat) : List Nat :=
  (window ++ [code]).drop (window.length + 1 - 4)

/-- R129: the mean code of a window. -/
def meanCode (window : List Nat) : Nat := window.sum / window.length

/-- R128, R129: a sensor record after a sample. -/
def Sensor.sample (r : Sensor) (table : List TablePoint) (code : Nat) : Sensor :=
  if codeValid code then
    let window := pushCode r.window code
    let validRun := min 10 (r.validRun + 1)
    { r with
      window := window
      validRun := validRun
      invalidRun := 0
      fault := r.fault && validRun != 10
      reading := some (convert table (meanCode window)) }
  else
    let invalidRun := min 5 (r.invalidRun + 1)
    { r with validRun := 0, invalidRun := invalidRun, fault := r.fault || invalidRun = 5 }

def Cooling.sensor (c : Cooling) : SensorName → Sensor
  | .air => c.air
  | .coil => c.coil
  | .cond => c.cond

def Cooling.setSensor (c : Cooling) (name : SensorName) (r : Sensor) : Cooling :=
  match name with
  | .air => { c with air := r }
  | .coil => { c with coil := r }
  | .cond => { c with cond := r }

/-- R132: demand after a reading. -/
def thermostat (set : CoolingSettings) (demand : Bool) (reading : Int) : Bool :=
  if set.setpoint + set.differential ≤ reading then true
  else if reading ≤ set.setpoint then false
  else demand

/-- A reading the blocks may use: present, not in fault, taken in this sample. -/
def Sensor.goodReading (r : Sensor) (code : Nat) : Option Int := if codeValid code && !r.fault then r.reading else none

/-- R132, R138, R148: what a sample of the air sensor does after its record, which stood at `before`. -/
def Station.airSampled (s : Station) (before : Sensor) (code : Nat) : Station :=
  let r := s.cooling.air
  let demand := s.cooling.demand
  let s1 :=
    if r.fault && !before.fault then
      s.setCooling fun c => { c with duty := some .on, dutyTimer := 0, demand := true }
    else if before.fault && !r.fault then s.setCooling fun c => { c with duty := none, dutyTimer := 0 }
    else s
  let s2 := match r.goodReading code with
    | none => s1
    | some t => s1.setCooling fun c => { c with
        demand := thermostat s.cfg.cooling c.demand t
        holdTimer := if t ≤ s.cfg.cooling.holdLimit && !c.coldHold then 0 else c.holdTimer }
  s2.demandChanged demand

/-- R145: what a sample of the coil sensor does after its record. -/
def Station.coilSampled (s : Station) (code : Nat) : Station :=
  match s.cooling.coil.goodReading code with
  | none => s
  | some t => if s.cfg.cooling.terminationTemp ≤ t && s.cooling.phase.melting then s.terminateDefrost else s

/-- R136: what a sample of the condenser sensor does after its record. -/
def Station.condSampled (s : Station) (code : Nat) : Station :=
  match s.cooling.cond.goodReading code with
  | none => s
  | some t => if s.cfg.cooling.condenserLimit ≤ t && s.cooling.compressor = .run then s.trip else s

/-- R128, R131: a sample of one sensor. -/
def Station.takeSample (s : Station) (name : SensorName) (code : Nat) : Station :=
  let before := s.cooling.sensor name
  let r := { before.sample s.cfg.cooling.table code with sinceSample := 0 }
  let s1 := s.setCooling fun c => c.setSensor name r
  let s2 := if r.fault && !before.fault then s1.raise (.sensor name) else s1
  match name with
  | .air => s2.airSampled before code
  | .coil => s2.coilSampled code
  | .cond => s2.condSampled code

/-! ### Measures (R140, R148) -/

/-- R140: the coil is cold enough for ice, in RUN. -/
def Cooling.icing (c : Cooling) : Bool :=
  c.compressor = .run && !c.coil.fault &&
    (match c.coil.reading with
     | some t => t ≤ -150
     | none => false)

/-- R148: the hold timer runs. -/
def Cooling.holdRuns (c : Cooling) (set : CoolingSettings) : Bool :=
  c.compressor != .off && !c.coldHold &&
    (c.air.fault ||
      (match c.air.reading with
       | some t => set.holdLimit < t
       | none => false))

/-- R148: the hold delay in milliseconds. -/
def holdDelayTime (set : CoolingSettings) : Nat := 60000 * set.holdDelayMin

/-- R135: the inrush duration in milliseconds. -/
def inrushTime (set : CoolingSettings) : Nat := 1000 * set.inrushSec

/-- R140: the defrost interval in milliseconds. -/
def intervalTime (set : CoolingSettings) : Nat := Config.hour * set.intervalHours

/-- R145: the maximum defrost duration in milliseconds. -/
def maxDefrostTime (set : CoolingSettings) : Nat := 60000 * set.maxDefrostMin

/-- R149: cold-hold begins. -/
def Station.beginColdHold (s : Station) : Station :=
  ((s.setCooling fun c => { c with coldHold := true, holdTimer := holdDelayTime s.cfg.cooling }).raise
    .coldHold).removeForColdHold

/-! ### Grants (R134, R144) -/

/-- R134, R135: the compressor's grant; a grant that finds no compressor waiting is released. -/
def Station.compressorGranted (s : Station) : Station :=
  if s.cooling.compressor = .waitPower then
    s.setCooling fun c => { c with compressor := .run, inrushTimer := 0, inrushDone := false, minOnTimer := 0 }
  else s.releaseSlot .compressor

/-- R144: the heater's grant. -/
def Station.heaterGranted (s : Station) : Station :=
  if s.cooling.phase = .heaterWait then s.setCooling fun c => { c with phase := .heater }
  else s.releaseSlot .defrostHeater

/-! ### Starts and halt (R127, R151, R152) -/

/-- R127: the controller leaves OFF at the entry to LISTEN after a start; its last stop is the start event. -/
def Cooling.leaveOff (c : Cooling) : Cooling :=
  { c with
    compressor := if c.latchedHeld then .latched else .rest
    latchedHeld := false
    sinceStop := 0
    demand := false
    duty := none
    dutyTimer := 0
    phase := .none
    air := Sensor.blank
    coil := Sensor.blank
    cond := Sensor.blank }

/-- LATCHED, held beside the state while the controller is OFF (R127). -/
def Cooling.isLatched (c : Cooling) : Bool := c.latchedHeld || c.compressor = .latched

/-- R148: the hold timer counts whole seconds: a part of one is not kept where it ceases to run. -/
def wholeSeconds (time : Nat) : Nat := 1000 * (time / 1000)

/-- R127: the controller becomes OFF. -/
def Cooling.turnOff (c : Cooling) : Cooling :=
  { c with
    latchedHeld := c.isLatched, compressor := .off, phase := .none, holdTimer := wholeSeconds c.holdTimer }

/-- R152: a warm restart's reset event. Demand and fixed duty are cleared here and not only at the entry to LISTEN
(notes/assumptions/48.md). -/
def Cooling.warmReset (c : Cooling) : Cooling :=
  { c.turnOff with
    defrostRequest := false, iceTimer := 0, iceTaken := false, hourPart := 0, demand := false, duty := none, dutyTimer := 0,
    air := Sensor.blank, coil := Sensor.blank, cond := Sensor.blank }

end Sys2Proof.Machine
end

