-- ==== Sys2Proof/Machine/Power.lean ====
section
/-! DEFINITION. The power budget unit (09): ranks, the admission sum, the claim window, grants, isolated admission and
shedding. -/

namespace Sys2Proof.Machine

/-! ### Ranks (R155) -/

/-- R155: the rank of a request. -/
def Request.rank (r : Request) : Nat := if r.starved then 0 else classRank r.cls

/-- R155: the order of two requests of one station: better rank, then lower class. -/
def Request.betterThan (r q : Request) : Bool :=
  r.rank < q.rank || (r.rank = q.rank && classCode r.cls < classCode q.cls)

/-- The better of a request and the best so far. -/
def betterRequest (best : Option Request) (r : Request) : Option Request :=
  match best with
  | none => some r
  | some q => if r.betterThan q then some r else some q

/-- R157: the READY request of best rank and lowest class. -/
def bestReady (requests : List Request) : Option Request :=
  (requests.filter fun r => r.phase = .ready).foldl betterRequest none

/-- The request of a class changed. -/
def Station.setRequest (s : Station) (cls : LoadClass) (f : Request → Request) : Station :=
  { s with power := { s.power with requests := updateFirst (fun r => r.cls = cls) f s.power.requests } }

/-- The request of a class removed. -/
def Station.dropRequest (s : Station) (cls : LoadClass) : Station :=
  { s with power := { s.power with requests := removeFirst (fun r => r.cls = cls) s.power.requests } }

/-! ### The admission sum (R156, R182) -/

/-- What an undeclared SILENT peer counts (R182). -/
def undeclaredMax : Nat := 2550

def Peer.slot (p : Peer) : LoadClass → Nat
  | .vendMotor => p.vendMotor
  | .compressor => p.compressor
  | .defrostHeater => p.heater

def Peer.setSlot (p : Peer) (cls : LoadClass) (w : Nat) : Peer :=
  match cls with
  | .vendMotor => { p with vendMotor := w }
  | .compressor => { p with compressor := w }
  | .defrostHeater => { p with heater := w }

/-- R156: the counted watts of a peer. -/
def Peer.counted (c : Settings) (p : Peer) : Nat :=
  match p.presence with
  | .present => p.base + p.vendMotor + p.compressor + p.heater
  | .silent => if p.declared then p.declaredMax else undeclaredMax
  | .gone => if p.declared then p.allowance else c.bankBudget / c.stationCount

/-- R156, R165, R178: what the entries of a peer view count in the admission sum. A station configured alone in its bank
counts its own loads alone. -/
def countedPeers (c : Settings) (peers : List Peer) : Nat :=
  if c.stationCount = 1 then 0 else (peers.map fun p => p.counted c).sum

/-- R156. -/
def Station.admissionSum (s : Station) (power : Fig) : Nat := s.ownSum + countedPeers s.cfg s.peers + watts power

/-- R155, R160: a recorded claim worse than a request of the station. -/
def ClaimRecord.worse (address rank : Nat) (c : ClaimRecord) : Bool :=
  rank < c.rank || (rank = c.rank && address < c.address)

/-- R160: a peer with the slot of a worse claim at the smaller of its present value and the value before the claim. -/
def leaveOut (p : Peer) (c : ClaimRecord) : Peer :=
  if p.address = c.address then p.setSlot c.cls (min (p.slot c.cls) c.before) else p

/-- R160: the peers as they count at the end of a window. -/
def windowPeers (address rank : Nat) (record : List ClaimRecord) (peers : List Peer) : List Peer :=
  peers.map fun p => (record.filter fun c => c.worse address rank).foldl leaveOut p

/-- R160: the admission sum at the end of a request's window. -/
def Station.windowSum (s : Station) (r : Request) : Nat :=
  s.ownSum + countedPeers s.cfg (windowPeers s.cfg.address r.rank r.record s.peers) + watts r.power

/-! ### Grants (R160, R166) -/

/-- R37, R48: a VEND-MOTOR grant starts the vend in CLAIMING; with no such vend the claim is released. -/
def Station.vendMotorGranted (s : Station) : Station :=
  match s.vend with
  | some v => if v.phase = .claiming then s.energise else s.releaseSlot .vendMotor
  | none => s.releaseSlot .vendMotor

/-- The grant handed to its requester. -/
def Station.handGrant (s : Station) : LoadClass → Station
  | .vendMotor => s.vendMotorGranted
  | .compressor => s.compressorGranted
  | .defrostHeater => s.heaterGranted

/-- R160, R166: a request is granted: its slot stands at its power, it leaves the list, its requester is told. -/
def Station.grant (s : Station) (r : Request) : Station :=
  let s1 := { s with power := s.power.setSlot r.cls (some r.power) }
  (s1.dropRequest r.cls).handGrant r.cls

/-! ### The window (R157, R160, R161) -/

/-- R157: a request holds the window. -/
def windowHeld (requests : List Request) : Bool := requests.any fun r => r.phase = .sending || r.phase = .window

/-- R155: the first check of a request starts its waited time. -/
def Request.check (r : Request) : Request := { r with checked := true, waited := if r.checked then r.waited else 0 }

def Request.hold (r : Request) : Request := { r with phase := .held }

/-- R161. -/
def Request.backOff (r : Request) : Request := { r with phase := .backoff, timer := 0, record := [] }

/-- R157: the CLAIM of a request that fits; it fails when the transmit queue cannot take it. -/
def Station.claim (s : Station) (r : Request) : Station :=
  match s.handFrame ⟨0, .claim r.cls r.rank r.power, true⟩ with
  | (s1, true) => s1.setRequest r.cls fun q => { q with phase := .sending, timer := 0 }
  | (s1, false) => s1.setRequest r.cls Request.backOff

/-- R157: a READY request is given the window and checked. -/
def Station.checkActive (s : Station) (r : Request) : Station :=
  let s1 := s.setRequest r.cls Request.check
  if s1.admissionSum r.power ≤ s1.cfg.bankBudget then s1.claim r else s1.setRequest r.cls Request.hold

/-- R166: a READY request is checked against the isolated allowance. -/
def Station.checkIsolated (s : Station) (r : Request) : Station :=
  let s1 := s.setRequest r.cls Request.check
  if s1.ownSum + watts r.power ≤ allowanceInForce s1.cfg then s1.grant r else s1.setRequest r.cls Request.hold

/-- R157, R166: one READY request checked, if the line state lets one be. -/
def Station.checkOne (s : Station) : Option Station :=
  match bestReady s.power.requests with
  | none => none
  | some r =>
    if s.active then (if windowHeld s.power.requests then none else some (s.checkActive r))
    else if s.line.state.isIsolated then some (s.checkIsolated r)
    else none

/-- R157, R166: checks in order until none is left to make. -/
def admitFor : Nat → Station → Station
  | 0, s => s
  | n + 1, s =>
    match s.checkOne with
    | none => s
    | some s1 => admitFor n s1

/-- R157, R166: the checks of one event. Three requests need at most twelve: each check holds, starts or removes one,
and only a removal makes the others READY again. -/
def Station.admitLoads (s : Station) : Station := admitFor 12 s

/-- R160: the window of a request has reached 50 ms. -/
def Station.decideWindow (s : Station) (r : Request) : Station :=
  if s.windowSum r ≤ s.cfg.bankBudget then s.grant r
  else
    let s1 := s.hand 0 (.release r.cls)
    if r.withdrawn then s1.dropRequest r.cls else s1.setRequest r.cls Request.backOff

/-! ### Line states (R164, R166, R167) -/

/-- R164: an attempt out when the station leaves ACTIVE. -/
def abandonAttempt (r : Request) : Option Request :=
  if r.phase = .sending || r.phase = .window then
    (if r.withdrawn then none else some { r with phase := .ready, record := [], timer := 0 })
  else some r

/-- R164: the attempts abandoned. -/
def Station.abandonAttempts (s : Station) : Station :=
  { s with power := { s.power with requests := s.power.requests.filterMap abandonAttempt } }

/-- R167 step 1. -/
def Station.shedHeater (s : Station) : Station :=
  if allowanceInForce s.cfg < s.ownSum && s.power.heater.isSome then
    ({ s with power := s.power.setSlot .defrostHeater none }).heaterShed
  else s

/-- R167 step 2. -/
def Station.shedCompressor (s : Station) : Station :=
  if allowanceInForce s.cfg < s.ownSum && s.power.compressor.isSome then
    ({ s with power := s.power.setSlot .compressor none }).compressorShed
  else s

/-- R167. -/
def Station.shed (s : Station) : Station := s.shedHeater.shedCompressor

end Sys2Proof.Machine
end

