-- ==== Sys2Proof/Machine/Line.lean ====
section
/-! DEFINITION. The line interface (10): HEARTBEAT and DECLARE contents, entry to LISTEN, ACTIVE and ISOLATED, and the
fates of frames being sent. -/

namespace Sys2Proof.Machine

/-! ### Codes (R171, R186, R188) -/

/-- R186: the classes in rising order, as the HEARTBEAT codes them. -/
def conditionClass : Condition → Nat
  | .exactChangeLit => 1
  | .tubePayoutFault => 1
  | .coinUnitFault => 1
  | .condenserSensorFault => 1
  | .letterClash => 1
  | .peerGone => 1
  | .doorLeftOpen => 1
  | .chuteActivityRate => 1
  | .coldHold => 2
  | .chuteFault => 2
  | .compressorLatched => 2
  | .airSensorFault => 2
  | .spiralFault => 2
  | .isolated => 2
  | .addressClash => 3
  | .noSpiralAvailable => 3

/-- R186: the station fault level, 0 NONE to 3 OUT-OF-SERVICE. -/
def faultLevel (standing : List Condition) : Nat := standing.foldl (fun l c => max l (conditionClass c)) 0

/-- R188: the code of a notice. -/
def noticeCode : Notice → Nat
  | .empty _ => 1
  | .jam _ => 2
  | .motor _ => 3
  | .chute => 4
  | .tube _ => 5
  | .shortPay _ => 6
  | .sensor _ => 7
  | .compressor => 8
  | .coldHold => 9
  | .peer _ => 10
  | .letter _ => 11
  | .clash _ => 12
  | .saveLost => 13

/-- R188: the attention code, 0 with no active notice. -/
def attentionCode (active : Option Notice) : Nat :=
  match active with
  | none => 0
  | some n => noticeCode n

/-- R171: the line state code of a HEARTBEAT. -/
def lineStateCode : LineState → Nat
  | .listen => 1
  | .active => 2
  | .isolated _ => 3
  | .offline => 0
  | .halted => 0

/-- R16: the accepting offers flag. -/
def Station.acceptingOffers (s : Station) : Bool :=
  s.active && !s.faults.doorOpen && !s.chuteStops && decide (s.queue.length < 4)

def bit (b : Bool) (n : Nat) : Nat := if b then n else 0

/-- R171: the flags byte. -/
def Station.heartbeatFlags (s : Station) : Nat :=
  bit s.cooling.coldHold 1 + bit s.faults.doorOpen 2 + bit s.chute.fault 4 + bit s.acceptingOffers 8 +
    bit s.faults.active.isSome 16

/-- R153: the figure reported for a slot, 0 when empty. -/
def slotFigure (f : Option Fig) : Fig := f.getD ⟨0, 0⟩

/-- R181: the contents of a HEARTBEAT. -/
def Station.heartbeatFields (s : Station) : HeartbeatFields where
  lineState := lineStateCode s.line.state
  faultLevel := faultLevel s.faults.standing
  flags := s.heartbeatFlags
  depth := s.queue.length
  base := s.cfg.base
  vendMotor := slotFigure s.power.vendMotor
  compressor := slotFigure s.power.compressor
  heater := slotFigure s.power.heater
  attention := attentionCode s.faults.active

/-- The least figure of a scale whose watts reach `w`. -/
def figureAt (w scale : Nat) : Fig := ⟨(w + scaleFactor scale - 1) / scaleFactor scale, scale⟩

/-- The smaller of two writable figures, the earlier on equality. -/
def smallerFigure (best : Option Fig) (f : Fig) : Option Fig :=
  if figOk f then
    match best with
    | none => some f
    | some g => if watts f < watts g then some f else some g
  else best

/-- R181: the smallest writable figure whose watts reach `w`, the lowest scale among equals (notes/assumptions/22.md). -/
def writableFigure (w : Nat) : Fig :=
  (([0, 1, 2, 3].map (figureAt w)).foldl smallerFigure none).getD ⟨255, 3⟩

/-- R165, R181: the figure sent for the allowance in force. -/
def allowanceFigure (c : Settings) : Fig :=
  if watts c.allowance = allowanceInForce c then c.allowance else writableFigure (allowanceInForce c)

/-- R181: the contents of a DECLARE. -/
def Station.declareFields (s : Station) : DeclareFields where
  role := if isPayment s.cfg then 1 else 0
  letter := s.cfg.letter
  declaredMax := s.cfg.declaredMax
  allowance := allowanceFigure s.cfg
  base := s.cfg.base
  trayMap := s.cfg.trayMap

/-- R181: a HEARTBEAT queued. -/
def Station.queueHeartbeat (s : Station) : Station := s.hand 0 (.heartbeat s.heartbeatFields)

/-- R181: a DECLARE queued. -/
def Station.queueDeclare (s : Station) : Station := s.hand 0 (.declare s.declareFields)

/-! ### Line states (R174, R175, R178, R179) -/

/-- The states in which heartbeats are sent by the heartbeat timer (R181). -/
def LineState.beats : LineState → Bool
  | .listen => true
  | .active => true
  | .isolated .silence => true
  | _ => false

/-- R178, R59, R60: the event of entering LISTEN. -/
def Station.enterListen (s : Station) : Station :=
  let s1 := { s with
    line := { s.line with
      state := .listen, heartbeatTimer := 0, declareTimer := 0, listenTimer := 0, errors := 0, heard := false }
    coin := { s.coin with statusTimer := 0 } }
  s1.queueDeclare.sendMasks

/-- R178: ACTIVE is entered; HELD requests become READY (R158). -/
def Station.enterActive (s : Station) : Station :=
  { s.readyAll with line := { s.line with state := .active, silenceTimer := 0 } }

/-- R174: the head of the queue is of a kind sent only while ACTIVE. -/
def headOnlyActive (queue : List Frame) : Bool := (queue.head?.map fun f => f.body.onlyActive).getD false

/-- R164, R174: what leaving ACTIVE does to the queue and to the attempts. -/
def Station.leaveActive (s : Station) : Station :=
  ({ s with line := { s.line with
    queue := s.line.queue.filter fun f => !f.body.onlyActive
    sending := s.line.sending && !headOnlyActive s.line.queue } }).abandonAttempts

/-- R179: whether the transmit queue is kept at entry to ISOLATED. -/
def Cause.keepsQueue (c : Cause) : Bool := c = .silence

/-- R164, R167, R179: ISOLATED is entered with a cause, or the cause changes; cause CLASH latches the clash (R176). A
DECLARE that still waits out its delay is dropped where none may be queued (R181, notes/assumptions/40.md). -/
def Station.enterIsolated (s : Station) (cause : Cause) : Station :=
  let s1 := s.leaveActive
  let s2 := { s1 with line := { s1.line with
    state := .isolated cause
    queue := if cause.keepsQueue then s1.line.queue else []
    sending := s1.line.sending && cause.keepsQueue
    declareDelay := if cause.keepsQueue then s1.line.declareDelay else none
    probeTimer := 0
    clashLatched := s1.line.clashLatched || cause = Cause.clash } }
  s2.shed.readyAll

/-- R175: a line fault. -/
def Station.lineFault (s : Station) : Station := if s.line.state.beats then s.enterIsolated .lineFault else s

/-- R176: an address clash. -/
def Station.addressClash (s : Station) : Station :=
  if s.line.state = .isolated .clash then s else (s.enterIsolated .clash).raise (.clash s.cfg.address)

/-- R178: the listen time has passed. -/
def Station.endListen (s : Station) : Station :=
  if s.line.heard || s.cfg.stationCount = 1 then s.enterActive else s.enterIsolated .silence

/-! ### Sending (R159, R173 to R175) -/

/-- R159: the CLAIM of a request's attempt has been sent. -/
def openWindow (r : Request) : Request :=
  if r.phase = .sending then { r with phase := .window, timer := 0, record := [] } else r

/-- R173, R159: the head of the queue has been sent. -/
def Station.frameSent (s : Station) : Station :=
  match s.line.queue with
  | [] => s
  | f :: rest =>
    let s1 := { s with line := { s.line with queue := rest, sending := false, errors := 0 } }
    if f.opensWindow then { s1 with power := { s1.power with requests := s1.power.requests.map openWindow } } else s1

/-- R175: a transmit error. -/
def Station.transmitError (s : Station) : Station :=
  let s1 := { s with line := { s.line with sending := false, errors := s.line.errors + 1 } }
  if 8 ≤ s1.line.errors then s1.lineFault else s1

end Sys2Proof.Machine
end

