-- ==== Sys2Proof/Machine/Peers.lean ====
section
/-! DEFINITION. Hearing the line (R170, R172) and the peer view (R182 to R185). -/

namespace Sys2Proof.Machine

/-! ### The view -/

/-- R182: a created entry. Until a DECLARE it has no maximum and no allowance, which stand as 0 and are not read
(notes/assumptions/41.md). -/
def Peer.fresh (address : Nat) : Peer where
  address := address
  declared := false
  letter := none
  role := none
  presence := .present
  declaredMax := 0
  allowance := 0
  base := 0
  vendMotor := 0
  compressor := 0
  heater := 0
  accepting := false
  lineState := none
  age := 0

def Station.findPeer (s : Station) (address : Nat) : Option Peer := s.peers.find? fun p => p.address = address

/-- An entry written into the view, which is kept in address order. -/
def putPeer (p : Peer) : List Peer → List Peer
  | [] => [p]
  | q :: rest =>
    if p.address < q.address then p :: q :: rest else if p.address = q.address then p :: rest else q :: putPeer p rest

/-- R182: a DECLARE applied. -/
def applyDeclare (f : DeclareFields) (p : Peer) : Peer :=
  { p with
    declared := true
    letter := some f.letter
    role := some (if f.role = 1 then .payment else .vendOnly)
    declaredMax := watts f.declaredMax
    allowance := watts f.allowance
    base := watts f.base }

/-- R182: a HEARTBEAT applied; accepting offers is bit 3 of its flags. -/
def applyHeartbeat (f : HeartbeatFields) (p : Peer) : Peer :=
  { p with
    base := watts f.base
    vendMotor := watts f.vendMotor
    compressor := watts f.compressor
    heater := watts f.heater
    accepting := f.flags / 8 % 2 = 1
    lineState := some f.lineState }

/-- R182: CLAIM and RELEASE set the slot of their class. -/
def applySlot (cls w : Nat) (p : Peer) : Peer :=
  match classOf cls with
  | some c => p.setSlot c w
  | none => p

/-- R158: whether a peer's change lowers a term of the admission sum. -/
def Peer.lowered (c : Settings) (before after : Peer) : Bool :=
  after.base < before.base || after.vendMotor < before.vendMotor || after.compressor < before.compressor ||
    after.heater < before.heater || after.counted c < before.counted c ||
    (before.presence = .silent && after.presence != .silent)

/-- R158: a peer has lowered a term of the admission sum: HELD requests become READY while ACTIVE, at a station configured
alone as well, whose sum holds no peer (notes/assumptions/45.md). Peers have no part in the sum of R166. -/
def Station.bankRoomMade (s : Station) : Station := if s.active then s.readyAll else s

/-- R158: a change of a peer's entry. -/
def Station.changePeer (s : Station) (before after : Peer) : Station :=
  let s1 := { s with peers := putPeer after s.peers }
  if before.lowered s.cfg after then s1.bankRoomMade else s1

/-- R182: a valid frame from a peer: its entry is created or refreshed and the frame applied. -/
def Station.refreshPeer (s : Station) (address : Nat) (apply : Peer → Peer) : Station :=
  match s.findPeer address with
  | some p => s.changePeer p (apply { p with presence := .present, age := 0 })
  | none => { s with peers := putPeer (apply (Peer.fresh address)) s.peers }

/-- R183: a change of presence by age. -/
def Station.setPresence (s : Station) (p : Peer) (presence : Presence) : Station :=
  s.changePeer p { p with presence := presence }

/-- R184. -/
def Station.forgetPeers (s : Station) : Station :=
  let kept := s.presentPeers
  let s1 := { s with peers := kept }
  if kept.length < s.peers.length then s1.bankRoomMade else s1

/-! ### Letter clash (R185) -/

/-- R185: the PRESENT stations of a letter, the own included. -/
def Station.showing (s : Station) (letter : Nat) : Nat :=
  (s.presentPeers.filter fun p => p.letter = some letter).length + (if s.cfg.letter = letter then 1 else 0)

/-- R185: the lowest letter that clashes. -/
def Station.clashingLetter (s : Station) : Option Nat := (List.range 8).find? fun l => 2 ≤ s.showing l

/-- R185, R188: the notice LETTER when the letter clash begins, with step 1 of R172 (notes/assumptions/15.md). -/
def Station.noticeLetter (s : Station) : Station :=
  if s.faults.standing.contains .letterClash then s
  else
    match s.clashingLetter with
    | some l => s.raise (.letter l)
    | none => s

/-! ### The events of a frame (R170, R172) -/

/-- R172 step 1, R178: what hearing a peer does to the line: the silence timer restarts, LISTEN has heard, and isolation
by SILENCE or LINE-FAULT ends in LISTEN. -/
def Station.heardPeer (s : Station) : Station :=
  let s1 :=
    match s.line.state with
    | .isolated .silence => s.enterListen
    | .isolated .lineFault => s.enterListen
    | _ => s
  { s1 with line := { s1.line with silenceTimer := 0, heard := true } }

/-- R172 step 3: a frame handed to its block. -/
def Station.handsOn (s : Station) (toUs : Bool) : Bool := toUs && (s.line.state = .listen || s.active)

/-- R170: a received frame that is not valid is counted. -/
def Station.countBadFrame (s : Station) : Station :=
  { s with audit := { s.audit with badFrames := rise32 s.audit.badFrames 1 } }

/-- R170 to R172: a frame of a peer kind. `ok` says that its fields lie in their ranges; `apply` is its effect on the
sender's entry, `windowed` its part in the claim window, `handoff` what its block does when it is for this station. -/
def Station.takeFrame (s : Station) (ok : Bool) (src dst : Nat) (apply : Peer → Peer) (windowed handoff : Station → Station) :
    Station :=
  if !s.running then s
  else if !ok then s.countBadFrame
  else if src = s.cfg.address then (if s.line.sending then s else s.addressClash)
  else
    let s1 := (((windowed s).refreshPeer src apply).noticeLetter).heardPeer
    if s1.handsOn (dst = s1.cfg.address) then handoff s1 else s1

/-- R159: the record of a CLAIM in a window, a second one of the same peer and class with the first one's value. -/
def addRecord (record : List ClaimRecord) (c : ClaimRecord) : List ClaimRecord :=
  match record.find? fun d => d.address = c.address && d.cls = c.cls with
  | some d => record ++ [{ c with before := d.before }]
  | none => record ++ [c]

/-- R159: a peer CLAIM recorded in the request that is in WINDOW. The slot's value is that before the CLAIM is applied, where
the table of R154 speaks of the window's opening (notes/assumptions/49.md). -/
def Station.recordClaim (s : Station) (address cls rank : Nat) : Station :=
  match classOf cls with
  | none => s
  | some c =>
    let before := match s.findPeer address with
      | some p => p.slot c
      | none => 0
    let record (r : Request) : Request :=
      if r.phase = .window then { r with record := addRecord r.record ⟨address, c, rank, before⟩ } else r
    { s with power := { s.power with requests := s.power.requests.map record } }

/-- R181 case 3: a DECLARE that is to be answered. -/
def Station.answersDeclare (s : Station) (address : Nat) : Bool :=
  match s.findPeer address with
  | none => true
  | some p => p.presence != .present || !p.declared

/-- R181 case 3: the delayed DECLARE is set up, unless one already waits; none in LINE-FAULT or CLASH. -/
def Station.scheduleDeclare (s : Station) : Station :=
  if s.line.state.beats && s.line.declareDelay = none then { s with line := { s.line with declareDelay := some 0 } } else s

end Sys2Proof.Machine
end

