-- ==== Sys2Proof/Machine/Flags.lean ====
section
/-! DEFINITION. The fault and service unit's flags (11): conditions, notice flags, the lamp, acknowledgement, and the
output pins. -/

namespace Sys2Proof.Machine

/-! ### Conditions (R186) -/

/-- R186: the conditions in the order of its table. -/
def allConditions : List Condition :=
  [.exactChangeLit, .tubePayoutFault, .coinUnitFault, .condenserSensorFault, .letterClash, .peerGone, .doorLeftOpen,
    .chuteActivityRate, .coldHold, .chuteFault, .compressorLatched, .airSensorFault, .spiralFault, .isolated,
    .addressClash, .noSpiralAvailable]

/-- R186: whether the source of a condition holds it now; an address clash stays latched until the next start (R176). -/
def Station.holds (s : Station) : Condition → Bool
  | .exactChangeLit => s.exactLit
  | .tubePayoutFault => s.coin.tubes.any fun t => t.fitted && t.status = .payoutFault
  | .coinUnitFault => s.coin.faultStands
  | .condenserSensorFault => s.cooling.cond.fault
  | .letterClash => s.clashingLetter.isSome
  | .peerGone => s.peers.any fun p => p.presence = .gone
  | .doorLeftOpen => s.faults.doorLeftOpen
  | .chuteActivityRate => s.chute.rate
  | .coldHold => s.cooling.coldHold
  | .chuteFault => s.chute.fault
  | .compressorLatched => s.cooling.isLatched
  | .airSensorFault => s.cooling.air.fault
  | .spiralFault => s.spirals.any spiralFaulted
  | .isolated => s.line.state.isIsolated
  | .addressClash => s.line.clashLatched
  | .noSpiralAvailable => !s.anyAvailable

/-- Conditions are kept from the first load event that builds working state on, through the halt too
(notes/assumptions/32.md). -/
def Station.keepsConditions (s : Station) : Bool := s.built

/-- R186, R187: the standing flags as the event leaves their sources, and the notice flags of those that begin. -/
def Station.takeConditions (s : Station) : Station :=
  let standing := allConditions.filter s.holds
  let noticed := allConditions.filter fun c =>
    s.faults.noticed.contains c || (standing.contains c && !s.faults.standing.contains c)
  { s with faults := { s.faults with standing := standing, noticed := noticed } }

/-- The conditions at the end of an event. -/
def Station.updateConditions (s : Station) : Station := if s.keepsConditions then s.takeConditions else s

/-! ### The lamp (R187) -/

/-- R187: the class of a condition is enabled for the lamp. -/
def lampEnabled (c : Settings) (k : Condition) : Bool :=
  if conditionClass k = 1 then c.lampAdvisory else if conditionClass k = 2 then c.lampDegraded else c.lampOutOfService

/-- R187; off in OFFLINE and HALTED whatever stands (R198, R203, notes/assumptions/32.md). -/
def Station.lampMode (s : Station) : LampMode :=
  if !s.running then .off
  else if s.faults.standing.any (lampEnabled s.cfg) then .steady
  else if s.faults.noticed.any (lampEnabled s.cfg) || s.faults.active.isSome then .flashing
  else .off

/-- R187: the lamp driven; a flashing that begins starts with the lamp on (notes/assumptions/16.md). -/
def Station.driveLamp (s : Station) : Station :=
  if s.lampMode = s.faults.lamp then s
  else { s with faults := { s.faults with lamp := s.lampMode, flashOn := s.lampMode = .flashing, flashTimer := 0 } }

/-- R187: the output LSV. -/
def FaultUnit.lsv (f : FaultUnit) : Bool :=
  match f.lamp with
  | .off => false
  | .steady => true
  | .flashing => f.flashOn

/-! ### Acknowledgement (R189) -/

/-- R189. -/
def Station.acknowledge (s : Station) : Station :=
  { s with faults := { s.faults with
    active := s.faults.pendingNotice
    pendingNotice := none
    noticed := s.faults.noticed.filter fun c => s.faults.standing.contains c } }

/-! ### Output pins (00 Signal summary) -/

/-- R33: the vend whose motor is energised: a phase that drives it and a standing VEND-MOTOR claim. -/
def Station.energised (s : Station) : Option (Nat × Direction) :=
  match s.vend, s.power.vendMotor with
  | some v, some _ => (motorSense v).map fun d => (v.entry.position, d)
  | _, _ => none

/-- R147: the evaporator fan. -/
def Station.fanOn (s : Station) : Bool :=
  s.cooling.compressor != .off && !s.faults.doorOpen && s.cooling.phase != .heater && s.cooling.phase != .drip

/-- R169: the bits with which BTX drives the frame at the head of the queue while it is being sent. -/
def Station.bitsSent (s : Station) : List Bool :=
  match s.line.sending, s.line.queue with
  | true, f :: _ => frameBits s.cfg.address f
  | _, _ => []

/-- The output pins as the blocks drive them while the station runs. -/
def Station.runningPins (s : Station) : Pins where
  row := s.energised.map fun e => e.1 / 10
  column := s.energised.map fun e => e.1 % 10
  direction := (s.energised.map Prod.snd).getD .forward
  tube := s.payout.pulseOn
  cmp := s.cooling.compressor = .run
  dfh := s.cooling.phase = .heater
  fan := s.fanOn
  lsv := s.faults.lsv
  lex := s.exactLit
  btx := s.bitsSent

/-- R198, R203: in OFFLINE and HALTED every output is off. -/
def Station.outputs (s : Station) : Pins := if s.running then s.runningPins else Pins.off

def Station.drivePins (s : Station) : Station := { s with pins := s.outputs }

end Sys2Proof.Machine
end

