-- ==== Sys2Proof/Machine/AuditImage.lean ====
section
/-! DEFINITION. The audit image, journal bytes and SHOW-AUDIT items (R72, R73, R193, R195, R196). -/

namespace Sys2Proof.Machine

/-! ### The audit image (R195) -/

/-- R195: items 1 to 19. -/
def Audit.mainCounters (a : Audit) : List Nat :=
  [a.salesCount, a.salesValue, a.cashboxValue, a.payoutValue, a.forfeitedValue, a.shortPayValue, a.inDoubt, a.lateResult,
    a.lateDelivered, a.lateCoins, a.doubleDrops, a.chuteActivity, a.countUnderrun, a.tubeOvercount, a.txOverflow,
    a.badFrames, a.runHours, a.defrosts, a.lockouts]

/-- R195: items 1 to 41, four bytes each. -/
def Audit.wideCounters (a : Audit) : List Nat := a.mainCounters ++ a.outcomes ++ a.coinsByType

/-- R195: the image of 320 bytes. -/
def auditImage (a : Audit) (overrun : Nat) : List Byte :=
  ((a.wideCounters.flatMap fourBytes) ++ (a.spiralSales.flatMap twoBytes) ++ twoBytes overrun ++
    [BitVec.ofNat 8 a.dropped] ++ List.replicate 33 0).take 320

/-- R195: the ten bytes of block 0 to 31. -/
def auditBlock (image : List Byte) (block : Nat) : List Byte := (image.drop (10 * block)).take 10

/-! ### The journal (R72, R196) -/

/-- R196: the codes of the kinds. -/
def journalCode : JournalKind → Nat
  | .inTube => 1
  | .inCashbox => 2
  | .reject => 3
  | .out => 4
  | .fill => 5
  | .emptyTube => 6

/-- R196: six bytes; an absent coin type is 255. -/
def journalBytes (e : JournalEntry) : List Byte :=
  [BitVec.ofNat 8 (journalCode e.kind), BitVec.ofNat 8 (e.which.getD 255)] ++ twoBytes e.value ++ twoBytes e.creditAfter

/-- R73, R196: the content of journal block 32 to 63. -/
def journalBlock (journal : List JournalEntry) (block : Nat) : List Byte :=
  match journal[block - 32]? with
  | some e => journalBytes e
  | none => []

/-- R195, R196: the content of the AUDIT that answers a query for a block. -/
def Station.auditContent (s : Station) (block : Nat) : List Byte :=
  if block < 32 then auditBlock (auditImage s.audit s.coin.overrun) block else journalBlock s.coin.journal block

/-- R196: the AUDIT handed, addressed to the query's sender. -/
def Station.answerQuery (s : Station) (src block : Nat) : Station := s.hand src (.audit block (s.auditContent block))

/-- R170, R172, R196: an AUDIT-QUERY. Sender 0, a service tool, is valid here only and is no peer; destination 0 is
taken by every station. -/
def Station.takeQuery (s : Station) (src dst block : Nat) : Station :=
  if !s.running then s
  else if !auditQueryOk src dst block then
    { s with audit := { s.audit with badFrames := rise32 s.audit.badFrames 1 } }
  else if src = 0 then (if s.handsOn (dst = s.cfg.address || dst = 0) then s.answerQuery 0 block else s)
  else if src = s.cfg.address then (if s.line.sending then s else s.addressClash)
  else
    let s1 := ((s.refreshPeer src id).noticeLetter).heardPeer
    if s1.handsOn (dst = s1.cfg.address || dst = 0) then s1.answerQuery src block else s1

/-! ### SHOW-AUDIT items (R193) -/

/-- R193: items 1 to 103. -/
def auditItems (a : Audit) (overrun : Nat) : List Nat := a.wideCounters ++ a.spiralSales ++ [overrun, a.dropped]

/-- R193: the item after and before an item. -/
def nextItem (item : Nat) : Nat := if item = 135 then 1 else item + 1
def previousItem (item : Nat) : Nat := if item = 1 then 135 else item - 1

/-- R193. -/
def itemOk (item : Nat) : Bool := 1 ≤ item && item ≤ 135

end Sys2Proof.Machine
end

