-- ==== Sys2Proof/Machine/Image.lean ====
section
/-! DEFINITION. The configuration image (12): its fields as settings, and its validity (R198, R199 with R2, R34, R57,
R165 and the settings table of 08). -/

namespace Sys2Proof.Machine

/-! ### Fields -/

/-- A signed two-byte figure. -/
def signedAt (bytes : List Byte) (i : Nat) : Int :=
  let w := wordAt bytes i
  if w < 32768 then (w : Int) else (w : Int) - 65536

/-- A yes/no byte: 0 no, 1 yes, any other value the free value (notes/assumptions/17.md). -/
def flagOf (n : Nat) : Bool := if n = 0 then false else if n = 1 then true else Config.otherFlag n

/-- Bit `k` of a number. -/
def bitOf (n k : Nat) : Bool := n / 2 ^ k % 2 = 1

/-- Offset 38: the record of the `i`-th position. -/
def planRecordAt (b : List Byte) (i : Nat) : PlanRecord where
  fitted := bitOf (byteAt b (38 + 4 * i)) 0
  wide := bitOf (byteAt b (38 + 4 * i)) 1
  capacity := byteAt b (39 + 4 * i)
  price := wordAt b (40 + 4 * i)

/-- Offset 278: coin type `i`. -/
def coinTypeAt (b : List Byte) (i : Nat) : CoinType := ⟨byteAt b (278 + 2 * i), byteAt b (279 + 2 * i)⟩

/-- Offset 310: tube `i + 1`. -/
def tubeAt (b : List Byte) (i : Nat) : TubeSetting :=
  ⟨flagOf (byteAt b (310 + 3 * i)), byteAt b (311 + 3 * i), byteAt b (312 + 3 * i)⟩

/-- Offset 341: point `i` of the sensor table. -/
def pointAt (b : List Byte) (i : Nat) : TablePoint := ⟨wordAt b (341 + 4 * i), signedAt b (343 + 4 * i)⟩

/-- Offsets 325 and 341. -/
def coolingAt (b : List Byte) : CoolingSettings where
  setpoint := signedAt b 325
  differential := byteAt b 327
  condenserLimit := signedAt b 328
  holdLimit := signedAt b 330
  holdDelayMin := byteAt b 332
  inrushSec := byteAt b 333
  causeRunTime := bitOf (byteAt b 334) 0
  causeCoilIce := bitOf (byteAt b 334) 1
  causeDoorCount := bitOf (byteAt b 334) 2
  intervalHours := byteAt b 335
  doorLimit := byteAt b 336
  heaterMethod := byteAt b 337 = 1
  terminationTemp := signedAt b 338
  maxDefrostMin := byteAt b 340
  table := (List.range 9).map (pointAt b)

/-- R56: the coin tables are read at a payment station only. -/
def paymentAt (b : List Byte) : Bool := byteAt b 2 = 1

/-- The settings that an image gives. -/
def settingsOf (b : List Byte) : Settings where
  address := byteAt b 0
  letter := byteAt b 1
  role := if paymentAt b then .payment else .vendOnly
  stationCount := byteAt b 3
  coolingFitted := flagOf (byteAt b 4)
  trayMap := byteAt b 5
  baseUnitCode := byteAt b 6
  decimals := byteAt b 7
  bankBudget := wordAt b 8
  base := figAt b 10
  declaredMax := figAt b 12
  allowance := figAt b 14
  vendMotor := figAt b 16
  inrush := figAt b 18
  run := figAt b 20
  heater := figAt b 22
  timeoutCode := byteAt b 24
  multiVend := byteAt b 25 = 1
  guarantee := byteAt b 26 = 1
  extraTurns := byteAt b 27
  openThreshold := wordAt b 28
  jamThreshold := wordAt b 30
  shortThreshold := wordAt b 32
  creditLimit := wordAt b 34
  inactivitySec := wordAt b 36
  planogram := (List.range 60).map (planRecordAt b)
  coinTypes := if paymentAt b then (List.range 16).map (coinTypeAt b) else []
  tubes := if paymentAt b then (List.range 5).map (tubeAt b) else []
  cooling := coolingAt b
  lampAdvisory := bitOf (byteAt b 377) 0
  lampDegraded := bitOf (byteAt b 377) 1
  lampOutOfService := bitOf (byteAt b 377) 2

/-! ### Validity -/

def within (low n high : Nat) : Bool := low ≤ n && n ≤ high

def withinInt (low : Int) (n : Int) (high : Int) : Bool := low ≤ n && n ≤ high

/-- R2: a record by itself, at the `i`-th position. -/
def planRecordOk (r : PlanRecord) (i : Nat) : Bool :=
  !r.fitted || (within 1 r.capacity 63 && r.price ≤ 2000 && (!r.wide || i % 10 ≤ 8))

/-- R2: a wide record and the record to its right. The wide field of an unfitted record is not checked. -/
def widePairsOk : List PlanRecord → Bool
  | r :: q :: rest => (!(r.fitted && r.wide) || !q.fitted) && widePairsOk (q :: rest)
  | _ => true

/-- R2. -/
def planogramOk (plan : List PlanRecord) : Bool :=
  ((plan.zipIdx).all fun p => planRecordOk p.1 p.2) && widePairsOk plan && plan.any fun r => r.fitted

/-- R34. -/
def thresholdsOk (c : Settings) : Bool :=
  within 20 c.openThreshold 500 && within 100 c.jamThreshold 3000 && within 200 c.shortThreshold 6000 &&
    c.openThreshold < c.jamThreshold && c.jamThreshold < c.shortThreshold

/-- R57: the tube setting of a tube number. -/
def tubeSetting (tubes : List TubeSetting) (tube : Nat) : TubeSetting := tubes.getD (tube - 1) ⟨false, 0, 0⟩

/-- R57: a coin type by itself and against the tubes. -/
def coinTypeOk' (tubes : List TubeSetting) (t : CoinType) : Bool :=
  t.value ≤ 200 && t.tube ≤ 5 && (t.value != 0 || t.tube = 0) && (t.tube = 0 || (tubeSetting tubes t.tube).fitted)

/-- R57: all coin types of one tube have one value. -/
def sameValues (types : List CoinType) : Bool :=
  types.all fun t => types.all fun u => t.tube = 0 || t.tube != u.tube || t.value = u.value

/-- R57: a fitted tube is named, and its marks are in order. -/
def tubeSettingOk (types : List CoinType) (tube : Nat) (t : TubeSetting) : Bool :=
  !t.fitted || ((types.any fun u => u.tube = tube) && t.lowMark < t.fullMark && t.fullMark ≤ 250)

/-- R57. -/
def coinTablesOk (types : List CoinType) (tubes : List TubeSetting) : Bool :=
  types.all (coinTypeOk' tubes) && (tubes.any fun t => t.fitted) && (types.any fun t => t.value != 0) &&
    sameValues types && (tubes.zipIdx).all fun p => tubeSettingOk types (p.2 + 1) p.1

/-- R199: codes strictly rising. -/
def rising : List Nat → Bool
  | a :: b :: rest => a < b && rising (b :: rest)
  | _ => true

/-- R199: the cooling settings, with the bytes whose codes settings do not keep. -/
def coolingOk (b : List Byte) (c : CoolingSettings) : Bool :=
  withinInt (-50) c.setpoint 120 && within 5 c.differential 50 && withinInt 300 c.condenserLimit 800 &&
    withinInt 50 c.holdLimit 150 && within 5 c.holdDelayMin 120 && within 1 c.inrushSec 5 && byteAt b 334 < 8 &&
    within 2 c.intervalHours 24 && within 1 c.doorLimit 50 && byteAt b 337 ≤ 1 && withinInt 20 c.terminationTemp 150 &&
    within 10 c.maxDefrostMin 60 && rising (c.table.map fun p => p.code) && (c.table.all fun p => p.code ≤ 1023) &&
    c.table.all fun p => withinInt (-400) p.temp 1000

/-- R199: the power figures. -/
def figuresOk (c : Settings) : Bool :=
  ([c.base, c.declaredMax, c.allowance, c.vendMotor, c.inrush, c.run, c.heater].all fun f => f.scale ≤ 3) &&
    watts c.run ≤ watts c.inrush && within 500 c.bankBudget 20000

/-- R165, R199: the allowance in force reaches the base and the vend motor. -/
def allowanceOk (c : Settings) : Bool := watts c.base + watts c.vendMotor ≤ allowanceInForce c

/-- R199: the identity, money and service fields. -/
def identityOk (b : List Byte) (c : Settings) : Bool :=
  within 1 c.address 8 && c.letter ≤ 7 && byteAt b 2 ≤ 1 && within 1 c.stationCount 8 && c.baseUnitCode ≤ 7 &&
    c.decimals ≤ 2 && within 1 c.creditLimit 4000 && within 30 c.inactivitySec 600 && c.timeoutCode ≤ 3 &&
    c.extraTurns ≤ 3 && byteAt b 25 ≤ 1 && byteAt b 26 ≤ 1 && c.trayMap < 64 && byteAt b 377 < 8

/-- R199 and the rules it names. -/
def imageRulesOk (b : List Byte) (c : Settings) : Bool :=
  identityOk b c && figuresOk c && planogramOk c.planogram && thresholdsOk c &&
    (!isPayment c || coinTablesOk c.coinTypes c.tubes) && (!c.coolingFitted || coolingOk b c.cooling) && allowanceOk c

/-- R198: the check word over bytes 0 to 377. -/
def imageCheckOk (b : List Byte) : Bool := wordAt b 378 = crc16 (b.take 378)

/-- R198: a valid image. -/
def imageValid (b : List Byte) : Bool := imageCheckOk b && imageRulesOk b (settingsOf b)

end Sys2Proof.Machine
end

