-- ==== Sys2Proof/Machine/SavedBlock.lean ====
section
/-! DEFINITION. The saved block (12, R200, R201): the 718 bytes written at a halt, and what a cold start reads from
them. -/

namespace Sys2Proof.Machine

/-! ### Writing -/

def flagByte (b : Bool) : Byte := if b then 1 else 0

def tubeStatusCode : TubeStatus → Nat
  | .usable => 0
  | .payoutFault => 1

def spiralStatusCode : SpiralStatus → Nat
  | .inService => 0
  | .soldOut => 1
  | .jammed => 2
  | .motorFault => 3

/-- Stock 0 to 63, or 255 for UNKNOWN. -/
def stockCode : Stock → Nat
  | .known n => n
  | .unknown => 255

def tubeBytes (t : Tube) : List Byte := [flagByte t.fitted, byteOf t.estimate, byteOf (tubeStatusCode t.status)]

def spiralBytes (r : Spiral) : List Byte := [flagByte r.fitted, byteOf (stockCode r.stock), byteOf (spiralStatusCode r.status)]

/-- Offset 711; the hold timer in whole seconds. -/
def coolingBytes (c : Cooling) : List Byte :=
  flagByte c.coldHold :: (twoBytes (c.holdTimer / 1000) ++ [flagByte c.isLatched])

/-- Offsets 1035 and 1036. -/
def journalArea (journal : List JournalEntry) : List Byte :=
  byteOf journal.length :: (journal.flatMap journalBytes ++ List.replicate (6 * (32 - journal.length)) 0)

/-- Bytes 512 to 1227 from working state. -/
def blockContents (s : Station) : List Byte :=
  twoBytes s.seqCount ++ twoBytes s.txn.credit ++ s.coin.tubes.flatMap tubeBytes ++ s.spirals.flatMap spiralBytes ++
    coolingBytes s.cooling ++ auditImage s.audit s.coin.overrun ++ journalArea s.coin.journal

/-- The block with its check word, written last. -/
def savedBlock (s : Station) : List Byte := withCheck (blockContents s)

/-- What a write that is cut short or abandoned leaves: a check word that does not agree (notes/assumptions/7.md). -/
def cutBlock (block : List Byte) : List Byte :=
  block.take 716 ++ (block.drop 716).map fun b => ~~~b

/-- Where the block begins. -/
def blockAddress : Nat := 512

/-! ### Reading -/

/-- R201: the block's check word agrees. -/
def blockCheckOk (b : List Byte) : Bool := wordAt b 716 = crc16 (b.take 716)

/-- A code read as one of `n`; a code out of range is the free value (notes/assumptions/18.md). -/
def codeOf (n code : Nat) : Nat := if code < n then code else Config.otherCode code % n

def tubeStatusOf (code : Nat) : TubeStatus := if codeOf 2 code = 0 then .usable else .payoutFault

def spiralStatusOf (code : Nat) : SpiralStatus :=
  [SpiralStatus.inService, .soldOut, .jammed, .motorFault].getD (codeOf 4 code) .inService

/-- A code that is neither 0 to 63 nor 255 is the free value (notes/assumptions/18.md). -/
def stockOf (code : Nat) : Stock :=
  let c := if code ≤ 63 then code else Config.otherCode code % 65
  if code = 255 || 63 < c then .unknown else .known c

/-- Offset 516: a saved tube, as the record that the start then configures. -/
def savedTubeAt (b : List Byte) (i : Nat) : Tube :=
  { Tube.blank with
    fitted := flagOf (byteAt b (4 + 3 * i))
    estimate := byteAt b (5 + 3 * i)
    status := tubeStatusOf (byteAt b (6 + 3 * i)) }

/-- Offset 531: a saved spiral, with consecutive-empty 0 (R12). -/
def savedSpiralAt (b : List Byte) (i : Nat) : Spiral :=
  { Spiral.blank with
    fitted := flagOf (byteAt b (19 + 3 * i))
    stock := stockOf (byteAt b (20 + 3 * i))
    status := spiralStatusOf (byteAt b (21 + 3 * i)) }

/-- The four-byte figure at an offset. -/
def longAt (b : List Byte) (i : Nat) : Nat := 65536 * wordAt b i + wordAt b (i + 2)

/-- The four-byte counters of an audit image from item `first` (counted from 0). -/
def countersAt (b : List Byte) (first n : Nat) : List Nat := (List.range n).map fun i => longAt b (203 + 4 * (first + i))

/-- Offset 715: the counters of the audit image, whose item 1 stands at byte 203 of the block. -/
def savedAudit (b : List Byte) : Audit :=
  let item (n : Nat) : Nat := longAt b (203 + 4 * (n - 1))
  { salesCount := item 1
    salesValue := item 2
    cashboxValue := item 3
    payoutValue := item 4
    forfeitedValue := item 5
    shortPayValue := item 6
    inDoubt := item 7
    lateResult := item 8
    lateDelivered := item 9
    lateCoins := item 10
    doubleDrops := item 11
    chuteActivity := item 12
    countUnderrun := item 13
    tubeOvercount := item 14
    txOverflow := item 15
    badFrames := item 16
    runHours := item 17
    defrosts := item 18
    lockouts := item 19
    outcomes := countersAt b 19 6
    coinsByType := countersAt b 25 16
    spiralSales := (List.range 60).map fun i => wordAt b (367 + 2 * i)
    dropped := byteAt b 489 }

/-- The journal overrun counter, item 102. -/
def savedOverrun (b : List Byte) : Nat := wordAt b 487

def journalKindOf (code : Nat) : JournalKind :=
  [JournalKind.inTube, .inCashbox, .reject, .out, .fill, .emptyTube].getD
    (if 1 ≤ code && code ≤ 6 then code - 1 else Config.otherCode code % 6) .inTube

/-- Offset 1036: a saved journal entry; 255 is an absent coin type. -/
def savedEntryAt (b : List Byte) (i : Nat) : JournalEntry :=
  let o := 524 + 6 * i
  { kind := journalKindOf (byteAt b o)
    which := if byteAt b (o + 1) = 255 then none else some (byteAt b (o + 1))
    value := wordAt b (o + 2)
    creditAfter := wordAt b (o + 4) }

def savedJournal (b : List Byte) : List JournalEntry := (List.range (codeOf 33 (byteAt b 523))).map (savedEntryAt b)

/-- What a cold start takes from the saved block, or by default (R201). -/
structure Saved where
  seqCount : Nat
  credit : Nat
  tubes : List Tube
  spirals : List Spiral
  coldHold : Bool
  holdTimer : Nat
  latched : Bool
  audit : Audit
  journal : List JournalEntry
  overrun : Nat
  deriving DecidableEq, Repr

/-- R201: the contents of a block whose check word agrees. -/
def restoreBlock (b : List Byte) : Saved where
  seqCount := wordAt b 0
  credit := wordAt b 2
  tubes := (List.range 5).map (savedTubeAt b)
  spirals := (List.range 60).map (savedSpiralAt b)
  coldHold := flagOf (byteAt b 199)
  holdTimer := 1000 * wordAt b 200
  latched := flagOf (byteAt b 202)
  audit := savedAudit b
  journal := savedJournal b
  overrun := savedOverrun b

/-- R201: the defaults of SAVE LOST. An unfitted saved tube takes the SAVE LOST value of R77. -/
def saveLost : Saved where
  seqCount := 0
  credit := 0
  tubes := List.replicate 5 Tube.blank
  spirals := List.replicate 60 Spiral.blank
  coldHold := false
  holdTimer := 0
  latched := false
  audit := Audit.blank
  journal := []
  overrun := 0

end Sys2Proof.Machine
end

