-- ==== Sys2Proof/Machine/Display.lean ====
section
/-! DEFINITION. What the display shows (R123, R124, R191, R193, R198, R203): the text read from the records, and what
alternates on it (notes/assumptions/23.md). -/

namespace Sys2Proof.Machine

/-! ### Text -/

/-- The unit of the base unit code in minor currency units (12, offset 0). -/
def baseUnit (code : Nat) : Nat := [1, 2, 5, 10, 20, 25, 50, 100].getD code 1

/-- Padded on the left to a width. -/
def padLeft (width : Nat) (fill : Char) (text : String) : String :=
  String.ofList (List.replicate (width - text.length) fill ++ text.toList)

/-- 07 The display: an amount in currency, right-aligned over eight characters. -/
def amountText (c : Settings) (n : Nat) : String :=
  let minor := n * baseUnit c.baseUnitCode
  let whole := minor / 10 ^ c.decimals
  let part := minor % 10 ^ c.decimals
  let text := if c.decimals = 0 then toString whole
    else toString whole ++ "." ++ padLeft c.decimals '0' (toString part)
  padLeft 8 ' ' text

/-- The letter of a letter code. -/
def letterText (letter : Nat) : String := ["A", "B", "C", "D", "E", "F", "G", "H"].getD letter ""

/-- R191: the outcome abbreviations. -/
def outcomeText : Outcome → String
  | .delivered => "DEL"
  | .empty => "EMP"
  | .jammed => "JAM"
  | .motorFault => "MOT"
  | .interrupted => "INT"
  | .noPower => "NOP"
  | _ => ""

/-- R123, R114, R191: the text of a timed message; NOT AVAIL is shown whole, in nine characters (notes/assumptions/23.md). -/
def messageText (c : Settings) : Message → String
  | .notAvail => "NOT AVAIL"
  | .soldOut => "SOLD OUT"
  | .jammed => "JAMMED"
  | .hold => "HOLD"
  | .service => "SERVICE"
  | .noAnswer => "NO ANSWR"
  | .exact => "EXACT"
  | .price p => amountText c p
  | .done => "DONE"
  | .refused => "REFUSED"
  | .testOutcome position o drops => "T" ++ toString position ++ " " ++ outcomeText o ++ toString drops

/-- R131: a sensor's name as a detail. -/
def sensorText : SensorName → String
  | .air => "AIR"
  | .coil => "COIL"
  | .cond => "COND"

/-- R188, R191: a notice as its code name and detail, whole also beyond eight characters (notes/assumptions/23.md). -/
def noticeText : Notice → String
  | .empty p => "EMPTY " ++ toString p
  | .jam p => "JAM " ++ toString p
  | .motor p => "MOTOR " ++ toString p
  | .chute => "CHUTE"
  | .tube t => "TUBE " ++ toString t
  | .shortPay n => "SHORT-PAY " ++ toString n
  | .sensor n => "SENSOR " ++ sensorText n
  | .compressor => "COMPRESSOR"
  | .coldHold => "COLD-HOLD"
  | .peer a => "PEER " ++ toString a
  | .letter l => "LETTER " ++ letterText l
  | .clash a => "CLASH " ++ toString a
  | .saveLost => "SAVE LOST"

/-- R193: the kind abbreviations. -/
def journalText : JournalKind → String
  | .inTube => "IT"
  | .inCashbox => "IC"
  | .reject => "RJ"
  | .out => "OU"
  | .fill => "FL"
  | .emptyTube => "ET"

/-- R193: a counter, as its lowest eight decimal digits when it has more. -/
def counterText (n : Nat) : String :=
  if n < 100000000 then toString n else padLeft 8 '0' (toString (n % 100000000))

/-- R193: the content of an item. -/
def Station.itemText (s : Station) (item : Nat) : String :=
  if item ≤ 103 then counterText ((auditItems s.audit s.coin.overrun).getD (item - 1) 0)
  else
    match s.coin.journal[item - 104]? with
    | some e =>
      journalText e.kind ++ " " ++ (match e.which with
        | some w => toString w ++ " "
        | none => "") ++ toString e.value
    | none => "NONE"

/-! ### What alternates (R123, R191, R193) -/

/-- R191: the service command entry is empty. -/
def ServiceEntry.isEmpty (e : ServiceEntry) : Bool := e.number = [] && e.arguments = []

/-- R123: IDLE with the exact-change indicator lit. -/
def Station.showsExact (s : Station) : Bool :=
  isPayment s.cfg && s.txn.state = .idle && !s.coin.faultStands && s.exactLit && s.panel.buffer = none

/-- What alternates on the display now. -/
def Station.alternates (s : Station) : Option Alternation :=
  if !s.running || s.panel.message.isSome then none
  else if s.faults.doorOpen then
    if !s.service.isEmpty then none
    else
      match s.service.item, s.faults.active with
      | some i, _ => some (.auditItem i)
      | none, some _ => some .serviceNotice
      | none, none => none
  else if s.showsExact then some .exactAmount
  else none

/-- An alternation begins with what its rule names first (notes/assumptions/16.md). -/
def Station.driveAlternation (s : Station) : Station :=
  if s.alternates = s.panel.alternation then s
  else { s with panel := { s.panel with alternation := s.alternates, secondShown := false, alternationTimer := 0 } }

/-! ### The display -/

/-- R124: the state display of a vend-only station. -/
def Station.payAtText (s : Station) : String :=
  match s.presentPeers.find? fun p => p.role = some .payment with
  | some p => "PAY AT " ++ (match p.letter with
      | some l => letterText l
      | none => "")
  | none => "NO PAY"

/-- R123: the state display. -/
def Station.stateText (s : Station) : String :=
  if !isPayment s.cfg then s.payAtText
  else
    match s.txn.state with
    | .idle =>
      if s.coin.faultStands then "NO COINS"
      else if s.exactLit && !s.panel.secondShown then "EXACT"
      else amountText s.cfg 0
    | .credit => amountText s.cfg s.txn.credit
    | .asking => amountText s.cfg s.txn.credit
    | .committed => if s.txn.shownPosition ≤ 1 then "VENDING" else "WAIT " ++ toString s.txn.shownPosition
    | .paying => amountText s.cfg s.payout.amount

/-- R123: what the customer sees. -/
def Station.customerText (s : Station) : String :=
  match s.panel.buffer, s.panel.message with
  | some b, _ => letterText b.letter ++ (match b.tray with
      | some t => toString t
      | none => "")
  | none, some m => messageText s.cfg m
  | none, none => s.stateText

/-- R191: what the technician sees. -/
def Station.serviceText (s : Station) : String :=
  match s.panel.message with
  | some m => messageText s.cfg m
  | none =>
    if !s.service.isEmpty then String.join ((s.service.number ++ s.service.arguments).map toString)
    else
      match s.service.item, s.faults.active with
      | some i, _ => if s.panel.secondShown then s.itemText i else "A" ++ toString i
      | none, some n => if s.panel.secondShown then noticeText n else "SERVICE"
      | none, none => "SERVICE"

/-- The display: not driven while HALTED, CONFIG for an invalid image (R198), else the customer's or the technician's. -/
def Station.display (s : Station) : String :=
  if s.configInvalid && s.line.state = .offline then "CONFIG"
  else if !s.running then ""
  else if s.faults.doorOpen then s.serviceText
  else s.customerText

end Sys2Proof.Machine
end

