-- ==== Sys2Proof/Machine/Finish.lean ====
section
/-! DEFINITION. The end of an event (notes/assumptions/10.md): what the rules compute "in every event that changes" an
input, in this order: the exact-change indicator (R91), the admission of waiting loads (R157, R166), the ice timer
(R140), the coin masks (R59), the conditions (R186), the lamp, the alternation and the output pins. -/

namespace Sys2Proof.Machine

/-- R91: an evaluation when the event has changed a tube's fitting, estimate or status since `o`. -/
def Station.evaluateIfChanged (s o : Station) : Station :=
  if isPayment s.cfg && s.running && s.coin.tubes.map tubeWatch != o.coin.tubes.map tubeWatch then s.evaluateIndicator else s

/-- R140: the ice timer restarts when its condition ceases to hold. -/
def Station.resetIce (s : Station) : Station :=
  if s.cooling.icing then s else s.setCooling fun c => { c with iceTimer := 0, iceTaken := false }

/-- The outputs that follow the records. -/
def Station.driveOutputs (s : Station) : Station := s.driveLamp.driveAlternation.drivePins

/-- The end of an event that began in `o`. -/
def finish (o s : Station) : Station :=
  (((s.evaluateIfChanged o).admitLoads).resetIce.sendChangedMasks).updateConditions.driveOutputs

/-- A command whose effect is on the station: the body's effect and the end of the event. -/
def event (s : State) (body : Station → Station) : State := { s with station := finish s.station (body s.station) }

end Sys2Proof.Machine
end

