-- ==== Sys2Proof/Machine/Time.lean ====
section
/-! DEFINITION. The passing of time (notes/assumptions/1.md, 2.md, 14.md): every timer that its rule lets run counts on
by a number of milliseconds and stops at its length. -/

namespace Sys2Proof.Machine

/-- A timer counted on while it runs, up to its length. -/
def count (runs : Bool) (length d t : Nat) : Nat := if runs then min length (t + d) else t

/-- The length of a vend phase's timer. -/
def phaseLength : VendPhase → Nat
  | .claiming => Config.claimTime
  | .starting => Config.leaveHomeTime
  | .turning => Config.revolutionTime
  | .settling => Config.dropWindow
  | .reversing .reversed => Config.reversingTime
  | .reversing _ => Config.reversePause

def Entry.advance (d : Nat) (e : Entry) : Entry :=
  { e with commitTimer := count (e.state = .awaitCommit) Config.commitTime d e.commitTimer }

/-- R34, R39, R41: `d` assessments of the current last read, one a millisecond, at a motor energised in a sense. -/
def Vend.assess (c : Settings) (d : Nat) (forward : Bool) (v : Vend) : Vend :=
  { v with
    onTime := count true Config.jamTime d v.onTime
    low := v.low && (d = 0 || Config.openCheckTime ≤ v.onTime || v.current < c.openThreshold)
    shorted := v.shorted || (d != 0 && v.onTime < Config.shortCheckTime && c.shortThreshold < v.current)
    jamRun := if d = 0 then v.jamRun
      else if forward && c.jamThreshold < v.current then count true Config.jamTime d v.jamRun
      else 0 }

/-- The vend in flight; no assessment is made while its motor is off (R34). -/
def Vend.advance (c : Settings) (d : Nat) (v : Vend) : Vend :=
  let timed := { v with timer := count true (phaseLength v.phase) d v.timer }
  match motorSense v with
  | some sense => timed.assess c d (sense = .forward)
  | none => timed

def Payout.advance (d : Nat) (p : Payout) : Payout :=
  { p with
    pulseTimer := count p.pulseOn.isSome Config.pulseTime d p.pulseTimer
    windowTimer := count (p.phase = .pulse) Config.confirmTime d p.windowTimer
    pauseTimer := count (p.phase = .pause) Config.missPause d p.pauseTimer }

/-- R109, R115: an offer to a peer. -/
def Txn.peerOwner (t : Txn) : Bool :=
  match t.offer with
  | some ⟨.peer _, _, _, _⟩ => true
  | _ => false

/-- The transaction's timers, by its state and the door alone (R109, R121), in OFFLINE too (notes/assumptions/36.md). -/
def Txn.advance (c : Settings) (doorOpen : Bool) (d : Nat) (t : Txn) : Txn :=
  { t with
    answerTimer := count (t.state = .asking && t.peerOwner) Config.answerTime d t.answerTimer
    resultTimer := count (t.state = .committed && t.peerOwner) (Config.resultTime c.timeoutCode) d t.resultTimer
    inactivityTimer := count (t.state = .credit && !doorOpen) (1000 * c.inactivitySec) d t.inactivityTimer }

def Panel.advance (d : Nat) (p : Panel) : Panel :=
  { p with
    bufferTimer := count p.buffer.isSome Config.bufferTime d p.bufferTimer
    messageTimer := count p.message.isSome p.messageLength d p.messageTimer
    alternationTimer := count p.alternation.isSome Config.alternationTime d p.alternationTimer }

def ServiceEntry.advance (d : Nat) (e : ServiceEntry) : ServiceEntry :=
  { e with timer := count (!e.isEmpty) Config.entryTime d e.timer }

def Sensor.advance (d : Nat) (r : Sensor) : Sensor := { r with sinceSample := count true Config.sampleTime d r.sinceSample }

/-- R138: the duty timer runs in phase ON only in RUN, in phase OFF always. -/
def Cooling.dutyRuns (c : Cooling) : Bool :=
  match c.duty with
  | some .on => c.compressor = .run
  | some .off => true
  | none => false

/-- The cooling controller's timers; none runs while it is OFF. -/
def Cooling.advance (set : CoolingSettings) (d : Nat) (c : Cooling) : Cooling :=
  if c.compressor = .off then c
  else
    let run : Bool := c.compressor = .run
    { c with
      sinceStop := count (!run) Config.minimumOff d c.sinceStop
      inrushTimer := count (run && !c.inrushDone) (inrushTime set) d c.inrushTimer
      minOnTimer := count run Config.minimumOn d c.minOnTimer
      runAccumulator := if run then c.runAccumulator + d else c.runAccumulator
      iceTimer := count c.icing Config.iceTime d c.iceTimer
      hourPart := count run Config.hour d c.hourPart
      lockoutTimer := count (c.compressor = .lockout) Config.lockoutTime d c.lockoutTimer
      dutyTimer := count c.dutyRuns Config.dutyTime d c.dutyTimer
      defrostTimer := count c.phase.melting (maxDefrostTime set) d c.defrostTimer
      heaterWaitTimer := count (c.phase = .heaterWait) Config.heaterWaitTime d c.heaterWaitTimer
      dripTimer := count (c.phase = .drip) Config.dripTime d c.dripTimer
      holdTimer := count (c.holdRuns set) (holdDelayTime set) d c.holdTimer
      air := c.air.advance d
      coil := c.coil.advance d
      cond := c.cond.advance d }

/-- The length of a request's phase timer (R160, R161). -/
def Request.length (address : Nat) (r : Request) : Nat :=
  if r.phase = .window then Config.windowTime else Config.backoffTime address

def Request.advance (address d : Nat) (r : Request) : Request :=
  { r with
    waited := count r.checked Config.starveTime d r.waited
    timer := count (r.phase = .window || r.phase = .backoff) (r.length address) d r.timer }

def Line.advance (c : Settings) (d : Nat) (l : Line) : Line :=
  { l with
    listenTimer := count (l.state = .listen) Config.listenTime d l.listenTimer
    silenceTimer := count (l.state = .active && c.stationCount != 1) Config.silenceTime d l.silenceTimer
    heartbeatTimer := count l.state.beats Config.heartbeatTime d l.heartbeatTimer
    declareTimer := count l.state.beats Config.declareTime d l.declareTimer
    declareDelay := l.declareDelay.map fun t => count l.state.beats (Config.declareDelay c.address) d t
    probeTimer := count (l.state = .isolated .lineFault) Config.probeTime d l.probeTimer }

def Peer.advance (d : Nat) (p : Peer) : Peer := { p with age := count true Config.goneAge d p.age }

/-- The chute's beam time, to the longer of the two times of R55. -/
def Chute.advance (d : Nat) (c : Chute) : Chute := { c with beamTime := count true Config.beamClearTime d c.beamTime }

/-- The validator link is read in LISTEN, ACTIVE and ISOLATED at a payment station (R56). -/
def Station.coinUnitWorks (s : Station) : Bool := s.running && isPayment s.cfg

def CoinUnit.advance (works : Bool) (d : Nat) (c : CoinUnit) : CoinUnit :=
  { c with statusTimer := count works Config.statusTime d c.statusTimer }

def FaultUnit.advance (d : Nat) (f : FaultUnit) : FaultUnit :=
  { f with
    doorTimer := count f.doorOpen Config.doorOpenTime d f.doorTimer
    flashTimer := count (f.lamp = .flashing) Config.flashTime d f.flashTimer }

/-- `d` milliseconds pass; in HALTED no timer runs (R203). -/
def Station.advance (d : Nat) (s : Station) : Station :=
  if s.line.state = .halted then { s with now := s.now + d }
  else { s with
    now := s.now + d
    queue := s.queue.map (Entry.advance d)
    vend := s.vend.map (Vend.advance s.cfg d)
    chute := s.chute.advance d
    coin := s.coin.advance s.coinUnitWorks d
    payout := s.payout.advance d
    txn := s.txn.advance s.cfg s.faults.doorOpen d
    panel := s.panel.advance d
    service := s.service.advance d
    cooling := s.cooling.advance s.cfg.cooling d
    power := { s.power with requests := s.power.requests.map (Request.advance s.cfg.address d) }
    line := s.line.advance s.cfg d
    peers := if s.running then s.peers.map (Peer.advance d) else s.peers
    faults := s.faults.advance d }

/-- Time passes to the expiry of a timer that stands at `elapsed` of `length`. -/
def Station.advanceTo (s : Station) (length elapsed : Nat) : Station := s.advance (length - elapsed)

end Sys2Proof.Machine
end

