-- ==== Sys2Proof/Machine/Starts.lean ====
section
/-! DEFINITION. Starts and the halt (12 and the start rules of the other chapters): reset events, the load event, and
the power-fail warning. -/

namespace Sys2Proof.Machine

/-! ### Reset events (R201, R202) -/

/-- R201: the reset event of a cold start. What the outside keeps is the clock of the model and where the spirals
stand. A message for the validator that was being sent or waited is dropped (notes/assumptions/42.md). -/
def Station.coldReset (s : Station) : Station := { Station.reset with now := s.now, homeOpen := s.homeOpen }

/-- R125: the transaction at a warm restart; the payout's remainder has its own rule. A message still shown is blanked
with the buffer (notes/assumptions/23.md). The inactivity timer starts here, and again at the load event
(notes/assumptions/47.md). -/
def Station.warmTransaction (s : Station) : Station :=
  let s1 :=
    if s.txn.state = .committed then
      let back := s.escrowBack
      { back with audit := { back.audit with inDoubt := rise32 back.audit.inDoubt 1 } }
    else s
  let s2 := s1.abandonPayout.toResting
  { s2 with txn := { s2.txn with answerTimer := 0, resultTimer := 0 }, panel := Panel.blank }

/-- R78: the coin unit at a warm restart, and the INHIBIT of R59. -/
def Station.warmCoinUnit (s : Station) : Station :=
  ({ s with coin := { s.coin with statusTimer := 0, faultStands := false, faultCode := none } }).sendInhibit allCoinTypes

/-- R202: the reset event of a warm restart. -/
def Station.warmReset (s : Station) : Station :=
  let s1 := s.warmTransaction.warmCoinUnit
  { s1 with
    start := .readingWarm
    configInvalid := false
    queue := []
    vend := none
    chute := { Chute.blank with blocked := s1.chute.blocked }
    exactLit := false
    power := Power.blank
    cooling := s1.cooling.warmReset
    line := Line.blank
    peers := []
    service := ServiceEntry.blank }

/-! ### Records clamped to the configuration -/

/-- R3. -/
def zoneOf (c : Settings) (position : Nat) : Zone :=
  if c.coolingFitted && c.trayMap / 2 ^ (position / 10 - 1) % 2 = 1 then .chilled else .ambient

/-- R12: a known stock above capacity becomes capacity. -/
def clampStock (capacity : Nat) : Stock → Stock
  | .known n => .known (min n capacity)
  | .unknown => .unknown

/-- R12, R14: the record of a position from the configuration and the record kept or restored. -/
def configureSpiral (c : Settings) (position : Nat) (r : PlanRecord) (old : Spiral) : Spiral :=
  let kept : Bool := r.fitted && old.fitted
  { fitted := r.fitted
    wide := r.wide
    price := r.price
    capacity := r.capacity
    zone := zoneOf c position
    stock := if kept then clampStock r.capacity old.stock else .unknown
    status := if kept then old.status else .inService
    consecutiveEmpty := if r.fitted && !old.fitted then 0 else old.consecutiveEmpty }

/-- The sixty records. -/
def configureSpirals (c : Settings) (old : List Spiral) : List Spiral :=
  (List.range 60).map fun i =>
    configureSpiral c (i + 10) (c.planogram.getD i ⟨false, false, 0, 0⟩) (old.getD i Spiral.blank)

/-- R57: the denomination of a tube. -/
def denominationOf (types : List CoinType) (tube : Nat) : Nat :=
  match types.find? fun t => t.tube = tube with
  | some t => t.value
  | none => 0

/-- R77: an estimate corrected against the sensor levels. -/
def correctEstimate (setting : TubeSetting) (low full : Bool) (estimate : Nat) : Nat :=
  if low then min estimate setting.lowMark
  else
    let e := max estimate (setting.lowMark + 1)
    if full then max e setting.fullMark else e

/-- R77: the SAVE LOST value. -/
def lostEstimate (setting : TubeSetting) (low : Bool) : Nat := if low then setting.lowMark else setting.lowMark + 1

/-- R77, R78: the record of a tube from the configuration, the record kept or restored, and the sensor levels. An unfitted
tube keeps its status, and its sensors are held as not asserted (notes/assumptions/37.md). -/
def configureTube (c : Settings) (tube : Nat) (low full : Bool) (old : Tube) : Tube :=
  let setting := tubeSetting c.tubes tube
  if setting.fitted then
    { fitted := true
      denomination := denominationOf c.coinTypes tube
      lowMark := setting.lowMark
      fullMark := setting.fullMark
      estimate := correctEstimate setting low full (if old.fitted then min 250 old.estimate else lostEstimate setting low)
      lowSensor := low
      fullSensor := full
      status := if old.fitted then old.status else .usable }
  else { Tube.blank with status := old.status }

/-- The five tubes. -/
def configureTubes (c : Settings) (low full : List Bool) (old : List Tube) : List Tube :=
  (List.range 5).map fun i =>
    configureTube c (i + 1) (low.getD i false) (full.getD i false) (old.getD i Tube.blank)

/-- R77: of the tubes of a saved block those that the configuration fits are restored; one that it does not fit is USABLE
(notes/assumptions/37.md). -/
def restoredTubes (c : Settings) (saved : List Tube) : List Tube :=
  (List.range 5).map fun i =>
    if (tubeSetting c.tubes (i + 1)).fitted then saved.getD i Tube.blank else Tube.blank

/-- R125: the credit a start leaves; a VEND-ONLY station's is 0 (R110, notes/assumptions/19.md). -/
def startCredit (c : Settings) (credit : Nat) : Nat := if isPayment c then credit else 0

/-- R125: the record a start leaves, with the inactivity timer at zero, in a warm restart too
(notes/assumptions/47.md). -/
def startTxn (c : Settings) (lastTag credit : Nat) : Txn :=
  { Txn.blank with
    credit := startCredit c credit, state := restingState (startCredit c credit), lastTag := lastTag }

/-- R148, R152: the hold timer under the configuration; while cold-hold stands it is held at the hold delay.
A timer limited here begins no cold-hold by itself (notes/assumptions/36.md). -/
def startHold (c : Settings) (coldHold : Bool) (timer : Nat) : Nat :=
  if !c.coolingFitted then timer
  else if coldHold then holdDelayTime c.cooling
  else min timer (holdDelayTime c.cooling)

/-- R152: cold-hold, hold timer and LATCHED under the configuration; without cooling the first and last are not taken. An
interval above the run accumulator has not been reached (R140). -/
def Cooling.configure (c : Settings) (k : Cooling) : Cooling :=
  { k with
    runTimeTaken := k.runTimeTaken && intervalTime c.cooling ≤ k.runAccumulator
    coldHold := k.coldHold && c.coolingFitted
    latchedHeld := k.latchedHeld && c.coolingFitted
    holdTimer := startHold c k.coldHold k.holdTimer }

/-! ### The load event (R198, R201, R202) -/

/-- R201: working state built at a cold start from the saved block or its defaults. -/
def Station.restore (s : Station) (c : Settings) (v : Saved) (doorOpen : Bool) : Station :=
  { s with
    seqCount := v.seqCount
    spirals := v.spirals
    coin := { s.coin with tubes := restoredTubes c v.tubes, journal := v.journal, overrun := v.overrun }
    txn := { Txn.blank with credit := v.credit }
    cooling := { Cooling.blank with coldHold := v.coldHold, holdTimer := v.holdTimer, latchedHeld := v.latched }
    audit := v.audit
    faults := { FaultUnit.blank with doorOpen := doorOpen } }

/-- R56: at a station that is not a payment station nothing is sent after the load event: what waits is dropped. -/
def CoinUnit.forRole (c : Settings) (u : CoinUnit) : CoinUnit :=
  if isPayment c then u else { u with waitingInhibit := none, waitingRoute := none }

/-- A valid image taken as the configuration of every block (R198), with the working state clamped to it, and the inputs
as they are read. The inactivity timer starts here in either start (notes/assumptions/47.md). -/
def Station.configure (s : Station) (c : Settings) (inp : LoadInputs) : Station :=
  { s with
    start := .none
    built := true
    cfg := c
    spirals := configureSpirals c s.spirals
    coin := { s.coin.forRole c with tubes := configureTubes c inp.tubeLow inp.tubeFull s.coin.tubes }
    txn := startTxn c s.txn.lastTag s.txn.credit
    cooling := s.cooling.configure c
    chute := { Chute.blank with blocked := inp.beamBlocked } }

/-- R140: the causes that a re-read configuration makes met by counts kept over a warm restart. -/
def Station.takeCauses (s : Station) (limitBefore : Nat) : Station :=
  let s1 :=
    if !s.cooling.runTimeTaken && intervalTime s.cfg.cooling ≤ s.cooling.runAccumulator then s.runTimeMet else s
  s1.doorCountMet s1.cooling.doorCounter limitBefore

/-- R127: the cooling controller leaves OFF where cooling is fitted. -/
def Station.startCooling (s : Station) (limitBefore : Nat) : Station :=
  if s.cfg.coolingFitted then (s.setCooling Cooling.leaveOff).takeCauses limitBefore else s

/-- R127, R177: the line enters LISTEN, the cooling controller leaves OFF, and the indicator is evaluated (R91).
`limitBefore` is the door count limit of the configuration held before. -/
def Station.goLive (s : Station) (limitBefore : Nat) : Station :=
  (s.enterListen.startCooling limitBefore).evaluateIndicator

/-- R198: an invalid image leaves the station OFFLINE. -/
def Station.loadInvalid (s : Station) : Station := { s with start := .none, configInvalid := true }

/-- R201: the block as a cold start finds it. -/
def readBlock (mem : Memory) (ack : Bool) : Option Saved :=
  let b := Memory.readFrom mem blockAddress 718
  if ack && blockCheckOk b then some (restoreBlock b) else none

/-- R201: the working state of a cold start: restored, or the defaults with the notice SAVE LOST. -/
def Station.buildCold (s : Station) (c : Settings) (mem : Memory) (inp : LoadInputs) : Station :=
  match readBlock mem inp.blockAck with
  | some v => s.restore c v inp.doorOpen
  | none => (s.restore c saveLost inp.doorOpen).raise .saveLost

/-- R201, R202: whether the saved block is read: at a cold start, and at any start before working state has been built
(R198, notes/assumptions/11.md). -/
def Station.readsBlock (s : Station) : Bool := s.start = .readingCold || !s.built

/-- The load event with a memory as the programmer has left it. -/
def Station.load (s : Station) (mem : Memory) (inp : LoadInputs) : Station :=
  let image := Memory.readFrom mem 0 380
  if inp.imageAck && imageValid image then
    let c := settingsOf image
    let s1 := if s.readsBlock then s.buildCold c mem inp else s
    (s1.configure c inp).goLive s1.cfg.cooling.doorLimit
  else s.loadInvalid

/-! ### The halt (R200, R203) -/

/-- R31, R51, R126: the vend in flight ends; a LOCAL sale whose drop was seen is booked, and no payout begins. -/
def Station.haltVend (s : Station) : Station :=
  match s.vend with
  | none => { s with queue := [] }
  | some v =>
    let o := interruptedOutcome v.drops
    let s1 := { s.recordVendEnd v o with vend := none, queue := [] }
    match v.entry.payer, v.entry.tag with
    | some .loc, some tag =>
      if o = .delivered && s1.txn.state = .committed && s1.answersOffer .loc tag then (s1.bookSale false v.drops).toResting
      else s1
    | _, _ => s1

/-- R126: any other COMMITTED transaction has its escrow added back, in doubt; an ASKING offer is dropped. -/
def Station.haltTransaction (s : Station) : Station :=
  let s1 :=
    if s.txn.state = .committed then
      let back := s.escrowBack
      { back with audit := { back.audit with inDoubt := rise32 back.audit.inDoubt 1 } }
    else s
  s1.toResting

/-- R180: the line HALTED, nothing sent; a latched address clash stays latched (R176). Error count 0 and no peer heard are
the model's choice (notes/assumptions/46.md), as are the timers (44.md). -/
def Line.halted (clashLatched : Bool) : Line := { Line.blank with state := .halted, clashLatched := clashLatched }

/-- R59, R79: the warning's INHIBIT. Only a station known to be VEND-ONLY sends none after the load event of a start (R56,
notes/assumptions/42.md). -/
def Station.warningInhibit (s : Station) : Station :=
  if isPayment s.cfg || s.start != .none || !s.built then s.sendInhibit allCoinTypes else s

/-- R200: the halt actions of every block, in its order. -/
def Station.halt (s : Station) : Station :=
  let s1 := (s.haltVend.abandonPayout).haltTransaction
  let s2 := s1.warningInhibit
  { s2 with
    start := .none
    configInvalid := false
    panel := Panel.blank
    service := ServiceEntry.blank
    cooling := s2.cooling.turnOff
    power := Power.blank
    line := Line.halted s2.line.clashLatched }

/-- R200: the sequence count of the write. -/
def Station.countWrite (s : Station) : Station := { s with seqCount := (s.seqCount + 1) % 65536 }

end Sys2Proof.Machine
end

