-- ==== Sys2Proof/Machine/Service.lean ====
section
/-! DEFINITION. The door (R190), the service commands by number (R192) and their effects, and the service command entry
(R191). -/

namespace Sys2Proof.Machine

/-! ### The door -/

/-- R190: the door is read: not in HALTED, nor in OFFLINE after an invalid image. -/
def Station.doorRead (s : Station) : Bool := s.line.state != .halted && !s.configInvalid

/-- R49: the door opening ends the vend in flight unless it is a test vend; the pick follows the removals. -/
def Station.doorEndsVend (s : Station) : Station :=
  match s.vend with
  | some v => if v.entry.test then s else s.finishVend v (interruptedOutcome v.drops)
  | none => s

/-- R190: the door opens: service mode, the vend and the queue (R49, R27, R24, R48), the payout (R102), the keypad
buffer (R111) and the display, the door counter (R140). -/
def Station.openDoor (s : Station) : Station :=
  let s1 := { s with faults := { s.faults with doorOpen := true, doorTimer := 0 } }
  let s2 := ((s1.doorEndsVend.removeForDoor).pick).settleClaim
  let s3 := s2.payoutDoorOpens.clearBuffer
  ({ s3 with panel := { s3.panel with message := none } }).countDoor

/-- R190: the door closes: the entry and the displays of service end (R191), the payout resumes (R104), a waiting test
entry is picked (R24), the inactivity timer starts (R121). -/
def Station.closeDoor (s : Station) : Station :=
  let s1 := { s with
    faults := { s.faults with doorOpen := false, doorTimer := 0, doorLeftOpen := false }
    service := ServiceEntry.blank
    panel := { s.panel with message := none } }
  s1.restartInactivity.payoutDoorCloses.pick

/-! ### Results (R191) -/

def Station.doneShown (s : Station) : Station := s.showService .done
def Station.refusedShown (s : Station) : Station := s.showService .refused

/-- A command taken or refused. -/
def Station.takenIf (s : Station) (taken : Bool) (effect : Station → Station) : Station :=
  if taken then (effect s).doneShown else s.refusedShown

/-- Service mode (R190) in a state in which keys are taken (R191). -/
def Station.serviceMode (s : Station) : Bool := s.running && s.faults.doorOpen

/-! ### Tube commands (R74 to R76) -/

/-- R74 to R76: a tube that a tube command may name. -/
def Station.tubeNamed (s : Station) (tube : Nat) : Bool := isPayment s.cfg && tubeNumberOk tube && (s.tube tube).fitted

/-- R64, R66, R74: an estimate limited to 250, and to the low mark while the low sensor is asserted. -/
def limitEstimate (t : Tube) (estimate : Nat) : Nat := if t.lowSensor then min (min 250 estimate) t.lowMark else min 250 estimate

/-- R74. -/
def Station.fillTube (s : Station) (tube count : Nat) : Station :=
  let t := s.tube tube
  let estimate := limitEstimate t (t.estimate + count)
  let s1 := s.setTube tube fun t => { t with estimate := estimate }
  (s1.writeJournal ⟨.fill, some tube, (estimate - t.estimate) * t.denomination, s.txn.credit⟩).noteTubesChanged

/-- R74: when FILL-TUBE is taken. -/
def Station.fillTaken (s : Station) (tube count : Nat) : Bool := s.tubeNamed tube && 1 ≤ count && count ≤ 250

/-- R75. -/
def Station.emptyTube (s : Station) (tube : Nat) : Station :=
  let t := s.tube tube
  let s1 := s.writeJournal ⟨.emptyTube, some tube, t.estimate * t.denomination, s.txn.credit⟩
  (s1.setTube tube fun t => { t with estimate := 0 }).noteTubesChanged

/-- R76. -/
def Station.clearTube (s : Station) (tube : Nat) : Station :=
  (s.setTube tube fun t => { t with status := .usable }).noteTubesChanged

/-- R76: when CLEAR-TUBE is taken. -/
def Station.clearTaken (s : Station) (tube : Nat) : Bool := s.tubeNamed tube && (s.tube tube).status = .payoutFault

/-! ### Spiral, cooling and bank commands -/

/-- R11: when CLEAR-SPIRAL is taken. -/
def Station.clearSpiralTaken (s : Station) (position : Nat) : Bool :=
  let r := s.spiral position
  r.fitted && !(s.vend.any fun v => v.entry.position = position) && (r.status = .jammed || r.status = .motorFault)

/-- R150: when ACK-HOLD is taken. -/
def Station.holdReadingGood (s : Station) : Bool :=
  !s.cooling.air.fault && (match s.cooling.air.reading with
    | some t => t ≤ s.cfg.cooling.holdLimit
    | none => false)

/-- R150: ACK-HOLD; a refusal by the sensor or the temperature shows HOLD. -/
def Station.ackHold (s : Station) : Station :=
  if !s.cfg.coolingFitted || !s.cooling.coldHold then s.refusedShown
  else if s.holdReadingGood then (s.setCooling fun c => { c with coldHold := false, holdTimer := 0 }).doneShown
  else s.showService .hold

/-- R30: TEST-VEND; a refusal shows its reason. -/
def Station.testVend (s : Station) (position : Nat) : Station :=
  match s.testRefusal position with
  | some r => s.showService (reasonMessage r)
  | none => (s.addTestEntry position).doneShown

/-- R141: when MANUAL-DEFROST is taken. -/
def Station.manualTaken (s : Station) : Bool := s.cfg.coolingFitted && s.cooling.defrostFree

/-- R137: CLEAR-COMPRESSOR's effect. -/
def Station.clearCompressor (s : Station) : Station := (s.setCooling fun c => { c with tripTimes := [] }).enterRest

/-- R137: when CLEAR-COMPRESSOR is taken. -/
def Station.clearCompressorTaken (s : Station) : Bool := s.cfg.coolingFitted && s.cooling.compressor = .latched

/-! ### The commands of R192 -/

/-- R191: a submission empties the entry and ends a SHOW-AUDIT display (R193). -/
def Station.submitted (s : Station) : Station := { s with service := ServiceEntry.blank }

/-- The thirteen commands with their arguments. -/
inductive ServiceCommand
  | ackAttention
  | ackHold
  | fillTube (tube count : Nat)
  | emptyTube (tube : Nat)
  | clearTube (tube : Nat)
  | refill
  | clearSpiral (position : Nat)
  | testVend (position : Nat)
  | manualDefrost
  | clearCompressor
  | forgetPeers
  | restart
  | showAudit (item : Nat)
  deriving DecidableEq, Repr

/-- R192: a command in the right form, taken or refused by its owning rule, with the result shown. -/
def Station.runService (s : Station) : ServiceCommand → Station
  | .ackAttention => s.acknowledge.doneShown
  | .ackHold => s.ackHold
  | .fillTube tube count => s.takenIf (s.fillTaken tube count) fun s => s.fillTube tube count
  | .emptyTube tube => s.takenIf (s.tubeNamed tube) fun s => s.emptyTube tube
  | .clearTube tube => s.takenIf (s.clearTaken tube) fun s => s.clearTube tube
  | .refill => s.refill.doneShown
  | .clearSpiral position => s.takenIf (s.clearSpiralTaken position) fun s => s.setSpiral position clearRecord
  | .testVend position => s.testVend position
  | .manualDefrost => s.takenIf s.manualTaken Station.requestDefrost
  | .clearCompressor => s.takenIf s.clearCompressorTaken Station.clearCompressor
  | .forgetPeers => s.forgetPeers.doneShown
  | .restart => s.warmReset
  | .showAudit item =>
    if itemOk item then { s with service := { s.service with item := some item } } else s.refusedShown

/-- R191: a key in service mode ends the showing of a result and restarts the 30 s. -/
def Station.serviceKey (s : Station) : Station :=
  { s with service := { s.service with timer := 0 }, panel := { s.panel with message := none } }

/-- A service command submitted: taken in service mode, with the ENT that ends the showing of a result. -/
def Station.submit (s : Station) (c : ServiceCommand) : Station :=
  if s.serviceMode then s.serviceKey.submitted.runService c else s

/-! ### The entry (R191, R192) -/

/-- The number that digits spell. -/
def digitsValue (digits : List Nat) : Nat := digits.foldl (fun n d => 10 * n + d) 0

/-- A command number of two digits; any other length names none. -/
def commandNumber : List Nat → Option Nat
  | [a, b] => some (10 * a + b)
  | _ => none

/-- R192: a command without argument. -/
def noArgument (c : ServiceCommand) (arguments : List Nat) : Option ServiceCommand := if arguments = [] then some c else none

/-- R192: a command whose argument has between `low` and `high` digits. -/
def oneArgument (low high : Nat) (c : Nat → ServiceCommand) (arguments : List Nat) : Option ServiceCommand :=
  if low ≤ arguments.length && arguments.length ≤ high then some (c (digitsValue arguments)) else none

/-- R192: FILL-TUBE's tube of one digit and count of one to three. -/
def fillArguments : List Nat → Option ServiceCommand
  | tube :: count => if 1 ≤ count.length && count.length ≤ 3 then some (.fillTube tube (digitsValue count)) else none
  | [] => none

/-- R192: the command of a number with its arguments, if the number is in the table and the digits fit. -/
def serviceCommand (number : Nat) (arguments : List Nat) : Option ServiceCommand :=
  match number with
  | 1 => noArgument .ackAttention arguments
  | 2 => noArgument .ackHold arguments
  | 10 => fillArguments arguments
  | 11 => oneArgument 1 1 .emptyTube arguments
  | 12 => oneArgument 1 1 .clearTube arguments
  | 20 => noArgument .refill arguments
  | 21 => oneArgument 2 2 .clearSpiral arguments
  | 22 => oneArgument 2 2 .testVend arguments
  | 30 => noArgument .manualDefrost arguments
  | 31 => noArgument .clearCompressor arguments
  | 40 => noArgument .forgetPeers arguments
  | 50 => noArgument .restart arguments
  | 60 => oneArgument 1 3 .showAudit arguments
  | _ => none

/-- R192: the command that the entry spells. -/
def ServiceEntry.command (e : ServiceEntry) : Option ServiceCommand :=
  match commandNumber e.number with
  | some n => serviceCommand n e.arguments
  | none => none

/-- R191, R192: ENT in service mode. -/
def Station.submitEntry (s : Station) : Station :=
  match s.service.command with
  | some c => s.submitted.runService c
  | none => s.submitted.refusedShown

/-- R191: a digit added to the entry. -/
def ServiceEntry.addDigit (e : ServiceEntry) (digit : Nat) : ServiceEntry :=
  if e.number.length < 2 then { e with number := e.number ++ [digit] }
  else if e.arguments.length < 4 then { e with arguments := e.arguments ++ [digit] }
  else e

/-- R193: the item shown steps on or back. -/
def Station.stepItem (s : Station) (f : Nat → Nat) : Station :=
  { s with service := { s.service with item := s.service.item.map f } }

/-- R191: CLR empties the entry and leaves a SHOW-AUDIT display. -/
def Station.clearEntry (s : Station) : Station := { s with service := ServiceEntry.blank }

/-- R191: 30 s with no key: the entry is emptied. -/
def Station.timeOutEntry (s : Station) : Station := { s with service := { ServiceEntry.blank with item := s.service.item } }

end Sys2Proof.Machine
end

