-- ==== Sys2Proof/Machine/Event.lean ====
section
/-! DEFINITION. The frame of a meaning: a command's effect on the station, the end of the event, and expiries, which move
the clock to the instant they name (notes/assumptions/2.md, 3.md). -/

namespace Sys2Proof.Machine

/-- The outcome of a command whose effect is on the station alone. -/
def happen (s : State) (body : Station → Station) : Host.Outcome State Fault Refusal := .next (event s body)

/-- An expiry of a timer that stands at `elapsed` of `length`: the clock moves on to it and the effect follows; with its
timer not running it cannot occur. -/
def expire (runs : Bool) (length elapsed : Nat) (effect : Station → Station) (s : Station) : Station :=
  if runs then effect (s.advanceTo length elapsed) else s

/-- R35, R67, R98, R175, R190: a change of an input is taken when the new level has been held for its time
(notes/assumptions/13.md). -/
def ifHeld (time held : Nat) (change : Station → Station) (s : Station) : Station := if time ≤ held then change s else s

/-- An effect on the vend in flight. -/
def Station.onVend (s : Station) (f : Vend → Station → Station) : Station :=
  match s.vend with
  | some v => f v s
  | none => s

/-- The vend in flight is in a phase. -/
def Station.vendIn (s : Station) (phase : VendPhase) : Bool := s.vend.any fun v => v.phase = phase

/-- The phase timer of the vend in flight. -/
def Station.vendTimer (s : Station) : Nat := (s.vend.map fun v => v.timer).getD 0

/-- The vend's motor is energised, in STARTING or TURNING. -/
def Station.motorForward (s : Station) : Bool := s.vendIn .starting || s.vendIn .turning

/-- The vend's motor is energised. -/
def Station.motorOn (s : Station) : Bool := s.motorForward || s.vendIn (.reversing .reversed)

/-- A reading of IMOT. -/
def Vend.read (current : Nat) (v : Vend) : Vend := { v with current := current }

/-- R34: an assessment of the current of the energised motor. -/
def Station.readCurrent (s : Station) (current : Nat) : Station :=
  ({ s with vend := s.vend.map (Vend.read current) }).advance 1

/-- R34: assessments, one a millisecond, while a motor is energised. -/
def Station.assess (s : Station) (currents : List Nat) : Station :=
  if s.motorOn then currents.foldl Station.readCurrent s else s

/-- R39: a reading of the first 50 ms of the energising was above the short threshold. -/
def Station.shortFound (s : Station) : Bool := s.motorOn && s.vend.any fun v => v.shorted

/-- R39: every reading of the first 100 ms of the forward energising was below the open threshold. -/
def Station.openFound (s : Station) : Bool :=
  s.motorForward && s.vend.any fun v => v.low && Config.openCheckTime ≤ v.onTime

/-- R41: the current has been above the jam threshold for 150 ms, with no finding of R39 before. -/
def Station.jamFound (s : Station) : Bool :=
  s.motorForward && !s.shortFound && !s.openFound && s.vend.any fun v => Config.jamTime ≤ v.jamRun

end Sys2Proof.Machine
end

