-- ==== Sys2Proof/Machine/Bank.lean ====
section
/-! DEFINITION. Meanings: sending, the line's timers, presence, and the power budget unit's timers. -/

namespace Sys2Proof.Machine

/-! ### Sending (R173 to R175) -/

/-- TRANSMIT_START (R169, R174): the line, recessive for some bit times, is idle, and the frame at the head is begun. -/
def execTransmitStart (s : State) (recessive : Nat := 10) : Host.Outcome State Fault Refusal :=
  happen s fun o =>
    if o.running && Config.idleBits ≤ recessive && o.line.queue != [] then { o with line := { o.line with sending := true } }
    else o

/-- R174: the frame being sent loses contention to a head byte on the line. -/
def Station.losesContention (s : Station) (head : Nat) : Bool :=
  match s.line.sending, s.line.queue with
  | true, f :: _ => losesTo (byteBits (headByte s.cfg.address f)) (byteBits (byteOf head))
  | _, _ => false

/-- LOST_CONTENTION (R174): the station stops driving; the frame stays at the head. -/
def execLostContention (s : State) (head : Nat := 0) : Host.Outcome State Fault Refusal :=
  happen s fun o => if o.losesContention head then { o with line := { o.line with sending := false } } else o

/-- TRANSMIT_ERROR (R175). -/
def execTransmitError (s : State) : Host.Outcome State Fault Refusal :=
  happen s fun o => if o.line.sending then o.transmitError else o

/-- BRX_DOMINANT (R175): a line fault, when the line has been read dominant for 10 ms. -/
def execBrxDominant (s : State) (held : Nat := 10) : Host.Outcome State Fault Refusal :=
  happen s <| ifHeld Config.dominantHold held Station.lineFault

/-- FRAME_SENT (R173, R159). -/
def execFrameSent (s : State) : Host.Outcome State Fault Refusal :=
  happen s fun o => if o.line.sending then o.frameSent else o

/-! ### Timers of the line (R178, R179, R181) -/

/-- LISTEN_TIMER_EXPIRY (R178). -/
def execListenTimerExpiry (s : State) : Host.Outcome State Fault Refusal :=
  happen s fun o => expire (o.line.state = .listen) Config.listenTime o.line.listenTimer Station.endListen o

/-- SILENCE_TIMER_EXPIRY (R178). -/
def execSilenceTimerExpiry (s : State) : Host.Outcome State Fault Refusal :=
  happen s fun o => expire (o.active && o.cfg.stationCount != 1) Config.silenceTime o.line.silenceTimer
    (fun t => t.enterIsolated .silence) o

/-- HEARTBEAT_TIMER_EXPIRY (R181). -/
def execHeartbeatTimerExpiry (s : State) : Host.Outcome State Fault Refusal :=
  happen s fun o => expire o.line.state.beats Config.heartbeatTime o.line.heartbeatTimer
    (fun t => ({ t with line := { t.line with heartbeatTimer := 0 } }).queueHeartbeat) o

/-- PROBE_TIMER_EXPIRY (R179). -/
def execProbeTimerExpiry (s : State) : Host.Outcome State Fault Refusal :=
  happen s fun o => expire (o.line.state = .isolated .lineFault) Config.probeTime o.line.probeTimer
    (fun t => ({ t with line := { t.line with probeTimer := 0 } }).queueHeartbeat) o

/-- DECLARE_TIMER_EXPIRY (R181). -/
def execDeclareTimerExpiry (s : State) : Host.Outcome State Fault Refusal :=
  happen s fun o => expire o.line.state.beats Config.declareTime o.line.declareTimer
    (fun t => ({ t with line := { t.line with declareTimer := 0 } }).queueDeclare) o

/-- DECLARE_DELAY_EXPIRY (R181 case 3). -/
def execDeclareDelayExpiry (s : State) : Host.Outcome State Fault Refusal :=
  happen s fun o => expire (o.line.state.beats && o.line.declareDelay.isSome) (Config.declareDelay o.cfg.address)
    (o.line.declareDelay.getD 0) (fun t => ({ t with line := { t.line with declareDelay := none } }).queueDeclare) o

/-! ### Presence (R183) -/

/-- A peer of the view in a presence. -/
def Station.peerIn (s : Station) (address : Nat) (presence : Presence) : Option Peer :=
  s.peers.find? fun p => p.address = address && p.presence = presence

/-- R183: the presence of a peer changes by age. -/
def Station.agePeer (s : Station) (address : Nat) (before after : Presence) : Station :=
  match s.peerIn address before with
  | some p => s.setPresence p after
  | none => s

/-- PEER_SILENT: a PRESENT peer's age has reached 3.5 s. -/
def execPeerSilent (address : Nat) (s : State) : Host.Outcome State Fault Refusal :=
  happen s fun o =>
    match o.peerIn address .present with
    | some p => expire o.running Config.silentAge p.age (fun t => t.agePeer address .present .silent) o
    | none => o

/-- PEER_GONE: a SILENT peer's age has reached 30 s; the notice PEER. -/
def execPeerGone (address : Nat) (s : State) : Host.Outcome State Fault Refusal :=
  happen s fun o =>
    match o.peerIn address .silent with
    | some p => expire o.running Config.goneAge p.age (fun t => (t.agePeer address .silent .gone).raise (.peer address)) o
    | none => o

/-! ### The power budget unit (R155, R160, R161) -/

/-- A request of the waiting list in a phase. -/
def Station.requestIn (s : Station) (phase : RequestPhase) : Option Request :=
  s.power.requests.find? fun r => r.phase = phase

/-- The request of a class. -/
def Station.requestOf (s : Station) (cls : LoadClass) : Option Request := s.power.requests.find? fun r => r.cls = cls

/-- R160: the window that is open is decided. -/
def Station.windowEndsNow (s : Station) : Station :=
  match s.requestIn .window with
  | some r => s.decideWindow r
  | none => s

/-- WINDOW_TIMER_EXPIRY (R160). -/
def execWindowTimerExpiry (s : State) : Host.Outcome State Fault Refusal :=
  happen s fun o =>
    match o.requestIn .window with
    | some r => expire true Config.windowTime r.timer Station.windowEndsNow o
    | none => o

/-- BACKOFF_TIMER_EXPIRY (R161). -/
def execBackoffTimerExpiry (cls : LoadClass) (s : State) : Host.Outcome State Fault Refusal :=
  happen s fun o =>
    match o.requestOf cls with
    | some r => expire (r.phase = .backoff) (Config.backoffTime o.cfg.address) r.timer
        (fun t => t.setRequest cls fun q => { q with phase := .ready, timer := 0 }) o
    | none => o

/-- STARVED (R155): in the instant at which the waited time reaches 300 s (notes/assumptions/36.md). -/
def execStarved (cls : LoadClass) (s : State) : Host.Outcome State Fault Refusal :=
  happen s fun o =>
    match o.requestOf cls with
    | some r => expire (r.checked && !r.starved) Config.starveTime r.waited
        (fun t => t.setRequest cls fun q => { q with starved := true }) o
    | none => o

end Sys2Proof.Machine
end

