-- ==== Sys2Proof/Machine/Chilling.lean ====
section
/-! DEFINITION. Meanings: the cooling controller's samples and timers. -/

namespace Sys2Proof.Machine

/-- R127: the controller is not OFF. -/
def Station.coolingOn (s : Station) : Bool := s.cooling.compressor != .off

/-- SENSOR_SAMPLE of one sensor (R128). -/
def execSensorSample (sensor : SensorName) (code : Nat) (s : State) : Host.Outcome State Fault Refusal :=
  happen s fun o => expire (o.coolingOn && sensorCodeOk code) Config.sampleTime (o.cooling.sensor sensor).sinceSample
    (fun t => t.takeSample sensor code) o

/-- MINIMUM_OFF_TIME_END (R133). -/
def execMinimumOffTimeEnd (s : State) : Host.Outcome State Fault Refusal :=
  happen s fun o => expire (o.cooling.compressor = .rest) Config.minimumOff o.cooling.sinceStop Station.leaveRest o

/-- R135: the COMPRESSOR slot is lowered to run watts. -/
def Station.endInrush (s : Station) : Station :=
  (s.setCooling fun c => { c with inrushDone := true }).request .compressor s.cfg.run

/-- INRUSH_END (R135, R162). -/
def execInrushEnd (s : State) : Host.Outcome State Fault Refusal :=
  happen s fun o => expire (o.cooling.compressor = .run && !o.cooling.inrushDone) (inrushTime o.cfg.cooling)
    o.cooling.inrushTimer Station.endInrush o

/-- R135: the minimum on time has passed. -/
def Station.minimumOnPassed (s : Station) : Station :=
  if !s.cooling.demand || s.cooling.defrostRequest then s.normalStop else s

/-- MINIMUM_ON_TIME_END (R135, R142). -/
def execMinimumOnTimeEnd (s : State) : Host.Outcome State Fault Refusal :=
  happen s fun o => expire (o.cooling.compressor = .run) Config.minimumOn o.cooling.minOnTimer Station.minimumOnPassed o

/-- RUN_HOUR (R135): a full hour of relay-on time. -/
def execRunHour (s : State) : Host.Outcome State Fault Refusal :=
  happen s fun o => expire (o.cooling.compressor = .run || (o.coolingOn && Config.hour ≤ o.cooling.hourPart)) Config.hour
    o.cooling.hourPart
    (fun t => { t.setCooling (fun c => { c with hourPart := 0 }) with
      audit := { t.audit with runHours := rise32 t.audit.runHours 1 } }) o

/-- LOCKOUT_TIMER_EXPIRY (R137). -/
def execLockoutTimerExpiry (s : State) : Host.Outcome State Fault Refusal :=
  happen s fun o => expire (o.cooling.compressor = .lockout) Config.lockoutTime o.cooling.lockoutTimer Station.enterRest o

/-- R138: the duty phase changes. -/
def Station.changeDuty (s : Station) : Station :=
  let before := s.cooling.demand
  match s.cooling.duty with
  | some .on =>
    (s.setCooling fun c => { c with demand := false, duty := some .off, dutyTimer := 0 }).demandChanged before
  | some .off =>
    (s.setCooling fun c => { c with demand := true, duty := some .on, dutyTimer := 0 }).demandChanged before
  | none => s

/-- DUTY_TIMER_EXPIRY (R138). -/
def execDutyTimerExpiry (s : State) : Host.Outcome State Fault Refusal :=
  happen s fun o => expire (o.coolingOn && o.cooling.dutyRuns) Config.dutyTime o.cooling.dutyTimer Station.changeDuty o

/-- R140: the run accumulator runs on to the interval, or reached it in the event that stopped it, and that has not been
taken. -/
def Station.runTimeDue (s : Station) : Bool :=
  !s.cooling.runTimeTaken && s.coolingOn &&
    (s.cooling.compressor = .run || intervalTime s.cfg.cooling ≤ s.cooling.runAccumulator)

/-- RUN_TIME (R140): the run accumulator has reached the defrost interval. -/
def execRunTime (s : State) : Host.Outcome State Fault Refusal :=
  happen s fun o => expire o.runTimeDue (intervalTime o.cfg.cooling) o.cooling.runAccumulator Station.runTimeMet o

/-- COIL_ICE (R140): the ice timer has reached 15 min. -/
def execCoilIce (s : State) : Host.Outcome State Fault Refusal :=
  happen s fun o => expire (o.cooling.icing && !o.cooling.iceTaken) Config.iceTime o.cooling.iceTimer
    (fun t => (t.setCooling fun c => { c with iceTaken := true }).causeMet t.cfg.cooling.causeCoilIce) o

/-- HEATER_WAIT_TIMER_EXPIRY (R144). -/
def execHeaterWaitTimerExpiry (s : State) : Host.Outcome State Fault Refusal :=
  happen s fun o => expire (o.cooling.phase = .heaterWait) Config.heaterWaitTime o.cooling.heaterWaitTimer
    (fun t => (t.setCooling fun c => { c with phase := .offCycle }).withdrawRequest .defrostHeater) o

/-- DEFROST_TIMER_EXPIRY (R145). -/
def execDefrostTimerExpiry (s : State) : Host.Outcome State Fault Refusal :=
  happen s fun o => expire o.cooling.phase.melting (maxDefrostTime o.cfg.cooling) o.cooling.defrostTimer
    Station.terminateDefrost o

/-- DRIP_TIMER_EXPIRY (R146). -/
def execDripTimerExpiry (s : State) : Host.Outcome State Fault Refusal :=
  happen s fun o => expire (o.cooling.phase = .drip) Config.dripTime o.cooling.dripTimer Station.dripEnds o

/-- R148: the hold timer runs. -/
def Station.holdRuns (s : Station) : Bool := s.cooling.holdRuns s.cfg.cooling

/-- COLD_HOLD (R149): only while the hold timer runs (notes/assumptions/36.md). -/
def execColdHold (s : State) : Host.Outcome State Fault Refusal :=
  happen s fun o => expire o.holdRuns (holdDelayTime o.cfg.cooling) o.cooling.holdTimer Station.beginColdHold o

end Sys2Proof.Machine
end

