-- ==== Sys2Proof/Machine/Coins.lean ====
section
/-! DEFINITION. Meanings: the validator link, the tube sensors and the payout unit. -/

namespace Sys2Proof.Machine

/-! ### Coins (R63 to R65) -/

/-- R57: the entry of a coin type. -/
def Station.coinTypeOf (s : Station) (coinType : Nat) : CoinType := s.cfg.coinTypes.getD coinType ⟨0, 0⟩

/-- R63: credit, the inactivity timer and the counters. -/
def Station.creditCoin (s : Station) (coinType : Nat) : Station :=
  let late : Bool := s.coin.lastInhibit.contains coinType
  let s1 := (s.addCredit (s.coinTypeOf coinType).value).restartInactivity
  { s1 with audit := { s1.audit with
    lateCoins := if late then rise32 s1.audit.lateCoins 1 else s1.audit.lateCoins
    coinsByType := updateAt s1.audit.coinsByType coinType fun n => rise32 n 1 } }

/-- R64: a coin in its tube. -/
def Station.coinInTube (s : Station) (coinType tube : Nat) : Station :=
  let s1 := if (s.tube tube).estimate < 250 then s
    else { s with audit := { s.audit with tubeOvercount := rise32 s.audit.tubeOvercount 1 } }
  let s2 := s1.setTube tube fun t => { t with estimate := limitEstimate t (t.estimate + 1) }
  s2.writeJournal ⟨.inTube, some coinType, (s.coinTypeOf coinType).value, s.txn.credit⟩

/-- R64: a coin in the cashbox. -/
def Station.coinInCashbox (s : Station) (coinType : Nat) : Station :=
  let value := (s.coinTypeOf coinType).value
  let s1 := { s with audit := { s.audit with cashboxValue := rise32 s.audit.cashboxValue value } }
  s1.writeJournal ⟨.inCashbox, some coinType, value, s1.txn.credit⟩

/-- R63, R64: a COIN message. -/
def Station.takeCoin (s : Station) (coinType : Nat) (path : CoinPath) : Station :=
  let s1 := s.creditCoin coinType
  let tube := (s.coinTypeOf coinType).tube
  if path = .tube && tubeNumberOk tube && (s1.tube tube).fitted then s1.coinInTube coinType tube
  else s1.coinInCashbox coinType

/-- COIN. -/
def execCoin (coinType : Nat) (path : CoinPath) (s : State) : Host.Outcome State Fault Refusal :=
  happen s fun o => if o.coinUnitWorks && coinTypeOk coinType then o.takeCoin coinType path else o

/-- REJECT (R65). -/
def execReject (s : State) : Host.Outcome State Fault Refusal :=
  happen s fun o =>
    if o.coinUnitWorks then (o.writeJournal ⟨.reject, none, 0, o.txn.credit⟩).restartInactivity else o

/-! ### Supervision (R60) -/

/-- R60: a coin unit fault begins, or its held code is replaced. -/
def Station.coinFault (s : Station) (code : Option Nat) : Station :=
  { s with coin := { s.coin with faultStands := true, faultCode := code } }

/-- FAULT (R60). -/
def execFault (code : Nat) (s : State) : Host.Outcome State Fault Refusal :=
  happen s fun o => if o.coinUnitWorks && faultCodeOk code then o.coinFault (some code) else o

/-- R60: READY ends the fault, and the current sets are sent (R59). -/
def Station.coinReady (s : Station) : Station :=
  if s.coin.faultStands then
    ({ s with coin := { s.coin with faultStands := false, faultCode := none } }).sendMasks
  else s

/-- R60: a STATUS. -/
def Station.takeStatus (s : Station) (condition : Nat) : Station :=
  let s1 := { s with coin := { s.coin with statusTimer := 0 } }
  if condition = 0 then s1.coinReady else s1.coinFault (some condition)

/-- STATUS (R60). -/
def execStatus (condition : Nat) (s : State) : Host.Outcome State Fault Refusal :=
  happen s fun o => if o.coinUnitWorks && statusOk condition then o.takeStatus condition else o

/-- STATUS_TIMER_EXPIRY (R60): a fault with no code, unless one stands. -/
def execStatusTimerExpiry (s : State) : Host.Outcome State Fault Refusal :=
  happen s fun o => expire o.coinUnitWorks Config.statusTime o.coin.statusTimer
    (fun t => if t.coin.faultStands then t else t.coinFault none) o

/-! ### The transmitter (R59) -/

/-- R59: the transmitter is free: a waiting INHIBIT is sent first, then a waiting ROUTE. -/
def CoinUnit.transmitterFree (c : CoinUnit) : CoinUnit :=
  match c.waitingInhibit, c.waitingRoute with
  | some types, _ => { c with onTransmitter := some (.inhibit types), waitingInhibit := none }
  | none, some types => { c with onTransmitter := some (.route types), waitingRoute := none }
  | none, none => { c with onTransmitter := none }

/-- TRANSMITTER_FREE (R59). -/
def execTransmitterFree (s : State) : Host.Outcome State Fault Refusal :=
  happen s fun o => { o with coin := o.coin.transmitterFree }

/-! ### Tube sensors (R67 to R69) -/

/-- R68: the estimate after the low sensor's change. -/
def lowSensorEstimate (t : Tube) (asserted : Bool) : Nat :=
  if asserted then min t.estimate t.lowMark else max t.estimate (t.lowMark + 1)

/-- R68: the estimate after the full sensor's change. -/
def fullSensorEstimate (t : Tube) (asserted : Bool) : Nat :=
  if asserted && !t.lowSensor then max t.estimate t.fullMark else t.estimate

/-- R68: a tube after a sensor change; a level that does not change is no change. -/
def Tube.sensed (t : Tube) (sensor : TubeSensor) (asserted : Bool) : Tube :=
  match sensor with
  | .low => if t.lowSensor = asserted then t else { t with lowSensor := asserted, estimate := lowSensorEstimate t asserted }
  | .full =>
    if t.fullSensor = asserted then t else { t with fullSensor := asserted, estimate := fullSensorEstimate t asserted }

/-- TUBE_SENSOR_CHANGE (R67, R68); an unfitted tube's sensor is not taken (notes/assumptions/37.md). -/
def execTubeSensorChange (tube : Nat) (sensor : TubeSensor) (asserted : Bool) (s : State) (held : Nat := 50) :
    Host.Outcome State Fault Refusal :=
  happen s <| ifHeld Config.tubeSensorHold held fun o =>
    if o.coinUnitWorks && (o.tube tube).fitted then o.setTube tube fun t => t.sensed sensor asserted else o

/-! ### The payout unit (R96 to R100) -/

/-- COUT_EDGE (R97, R98). -/
def execCoutEdge (s : State) (held : Nat := 2) : Host.Outcome State Fault Refusal :=
  happen s <| ifHeld Config.coutHold held fun o => if o.running then o.coutEdge else o

/-- PULSE_TIMER_EXPIRY (R96). -/
def execPulseTimerExpiry (s : State) : Host.Outcome State Fault Refusal :=
  happen s fun o => expire o.payout.pulseOn.isSome Config.pulseTime o.payout.pulseTimer Station.pulseEnds o

/-- MISS (R99, R100, R102). -/
def execMiss (s : State) : Host.Outcome State Fault Refusal :=
  happen s fun o => expire (o.payout.phase = .pulse) Config.confirmTime o.payout.windowTimer Station.missCoin o

/-- PAUSE_TIMER_EXPIRY (R96, R99, R100). -/
def execPauseTimerExpiry (s : State) : Host.Outcome State Fault Refusal :=
  happen s fun o => expire (o.payout.phase = .pause) Config.missPause o.payout.pauseTimer Station.nextCoin o

end Sys2Proof.Machine
end

