-- ==== Sys2Proof/Machine/Hearing.lean ====
section
/-! DEFINITION. Meanings: frames taken from the bank line (R170 to R172). -/

namespace Sys2Proof.Machine

/-- R17: the queue's answer to an OFFER, on the line. -/
def Station.takeOffer (src tag tray column : Nat) (s : Station) : Station :=
  match s.queueOffer (.peer src) tag tray column with
  | (s1, .accept price queuePos) => s1.hand src (.accept tag price queuePos)
  | (s1, .refuse r) => s1.hand src (.refuse tag r)

/-- OFFER (R17 to R20). -/
def execOffer (src dst tag tray column : Nat) (s : State) : Host.Outcome State Fault Refusal :=
  happen s fun o => o.takeFrame (offerOk src dst tag tray column) src dst id id (Station.takeOffer src tag tray column)

/-- R22: the queue's answer to a COMMIT, on the line. -/
def Station.takeCommit (src tag price : Nat) (s : Station) : Station :=
  match s.queueCommit (.peer src) tag price with
  | (s1, some r) => s1.hand src (.refuse tag r)
  | (s1, none) => s1

/-- COMMIT (R22). -/
def execCommit (src dst tag price : Nat) (s : State) : Host.Outcome State Fault Refusal :=
  happen s fun o => o.takeFrame (commitOk src dst tag price) src dst id id (Station.takeCommit src tag price)

/-- WITHDRAW (R23). -/
def execWithdraw (src dst tag : Nat) (s : State) : Host.Outcome State Fault Refusal :=
  happen s fun o => o.takeFrame (withdrawOk src dst tag) src dst id id fun t => t.queueWithdraw (.peer src) tag

/-- ACCEPT (R114, R116). -/
def execAccept (src dst tag price queuePos : Nat) (s : State) : Host.Outcome State Fault Refusal :=
  happen s fun o => o.takeFrame (acceptOk src dst tag price queuePos) src dst id id fun t =>
    t.takeAccept (.peer src) tag price queuePos

/-- REFUSE (R115, R116, R118). -/
def execRefuse (src dst tag reason : Nat) (s : State) : Host.Outcome State Fault Refusal :=
  happen s fun o => o.takeFrame (refuseOk src dst tag reason) src dst id id fun t =>
    t.takeRefuse (.peer src) tag (reasonOf reason)

/-- RESULT (R117, R120). -/
def execResult (src dst tag outcome drops : Nat) (s : State) : Host.Outcome State Fault Refusal :=
  happen s fun o => o.takeFrame (resultOk src dst tag outcome drops) src dst id id fun t =>
    t.takeResult (.peer src) tag (outcomeOf outcome) drops

/-- CLAIM (R159, R182). -/
def execClaim (src dst cls rank value scale : Nat) (s : State) : Host.Outcome State Fault Refusal :=
  happen s fun o => o.takeFrame (claimOk src dst cls rank value scale) src dst (applySlot cls (watts ⟨value, scale⟩))
    (fun t => t.recordClaim src cls rank) id

/-- RELEASE (R182). -/
def execRelease (src dst cls : Nat) (s : State) : Host.Outcome State Fault Refusal :=
  happen s fun o => o.takeFrame (releaseOk src dst cls) src dst (applySlot cls 0) id id

/-- R181 case 3: a valid DECLARE of a peer that is to be answered. -/
def Station.declareAnswered (s : Station) (ok : Bool) (src : Nat) : Bool :=
  s.running && ok && src != s.cfg.address && s.answersDeclare src

/-- DECLARE (R181, R182). -/
def execDeclare (src dst : Nat) (fields : DeclareFields) (s : State) : Host.Outcome State Fault Refusal :=
  happen s fun o =>
    let t := o.takeFrame (declareOk src dst fields) src dst (applyDeclare fields) id id
    if o.declareAnswered (declareOk src dst fields) src then t.scheduleDeclare else t

/-- HEARTBEAT (R182). -/
def execHeartbeat (src dst : Nat) (fields : HeartbeatFields) (s : State) : Host.Outcome State Fault Refusal :=
  happen s fun o => o.takeFrame (heartbeatOk src dst fields) src dst (applyHeartbeat fields) id id

/-- AUDIT (R172): acts only through the peer view. -/
def execAudit (src dst block : Nat) (content : List Byte) (s : State) : Host.Outcome State Fault Refusal :=
  happen s fun o => o.takeFrame (auditOk src dst block content) src dst id id id

/-- AUDIT_QUERY, blocks 0 to 31 (R195). -/
def execAuditQuery (src dst block : Nat) (s : State) : Host.Outcome State Fault Refusal :=
  happen s fun o => o.takeQuery src dst block

/-- AUDIT_QUERY_JOURNAL, blocks 32 to 63 (R73, R196). -/
def execAuditQueryJournal (src dst block : Nat) (s : State) : Host.Outcome State Fault Refusal :=
  happen s fun o => o.takeQuery src dst block

/-- BAD_FRAME (R169, R170): bits that are no valid frame are discarded and counted. -/
def execBadFrame (s : State) (bits : List Bool := []) : Host.Outcome State Fault Refusal :=
  happen s fun o => if o.running && readBits bits = none then o.countBadFrame else o

end Sys2Proof.Machine
end

