-- ==== Sys2Proof/Machine/Keys.lean ====
section
/-! DEFINITION. Meanings: keys, the transaction's timers, and the display's timers. -/

namespace Sys2Proof.Machine

/-! ### Keys (R111, R191): the customer's while the door is closed, the technician's while it is open -/

/-- A key, by whose it is; in OFFLINE and HALTED the keypad is not scanned. -/
def Station.key (s : Station) (customer technician : Station → Station) : Station :=
  if s.customerKeys then customer s.keyTaken else if s.serviceMode then technician s.serviceKey else s

/-- A customer's key that enters the buffer only in IDLE and CREDIT. -/
def Station.ifBufferOpen (s : Station) (effect : Station → Station) : Station := if s.bufferOpen then effect s else s

/-- KEY_DIGIT (R112, R191). -/
def execKeyDigit (digit : Nat) (s : State) : Host.Outcome State Fault Refusal :=
  happen s fun o =>
    if digitOk digit then
      o.key (fun t => t.ifBufferOpen fun u => u.bufferDigit digit) (fun t => { t with service := t.service.addDigit digit })
    else o

/-- KEY_CAB (R111); ignored at a vend-only station (R124) and in service mode (R191). -/
def execKeyCab (s : State) : Host.Outcome State Fault Refusal :=
  happen s fun o => o.key (fun t => if isPayment t.cfg then t.ifBufferOpen Station.stepLetter else t) id

/-- KEY_CLR (R111, R191). -/
def execKeyClr (s : State) : Host.Outcome State Fault Refusal :=
  happen s fun o => o.key (fun t => t.ifBufferOpen Station.clearBuffer) Station.clearEntry

/-- KEY_RET (R111, R121); ignored at a vend-only station and in service mode. -/
def execKeyRet (s : State) : Host.Outcome State Fault Refusal :=
  happen s fun o => o.key
    (fun t => if isPayment t.cfg then (t.ifBufferOpen Station.clearBuffer).returnKey else t) id

/-- KEY_NEXT (R193). -/
def execKeyNext (s : State) : Host.Outcome State Fault Refusal := happen s fun o => o.key id fun t => t.stepItem nextItem

/-- KEY_PREV (R193). -/
def execKeyPrev (s : State) : Host.Outcome State Fault Refusal := happen s fun o => o.key id fun t => t.stepItem previousItem

/-- KEY_ENT (R191, R192). -/
def execKeyEnt (s : State) : Host.Outcome State Fault Refusal := happen s fun o => o.key id Station.submitEntry

/-- BUFFER_TIMEOUT (R111): in the instant at which 10 s have passed (notes/assumptions/31.md). -/
def execBufferTimeout (s : State) : Host.Outcome State Fault Refusal :=
  happen s fun o => expire o.panel.buffer.isSome Config.bufferTime o.panel.bufferTimer Station.clearBuffer o

/-- ENTRY_TIMEOUT (R191). -/
def execEntryTimeout (s : State) : Host.Outcome State Fault Refusal :=
  happen s fun o => expire (!o.service.isEmpty) Config.entryTime o.service.timer Station.timeOutEntry o

/-! ### The transaction's timers (R115, R119, R121) -/

/-- ANSWER_TIMER_EXPIRY (R115). -/
def execAnswerTimerExpiry (s : State) : Host.Outcome State Fault Refusal :=
  happen s fun o => expire (o.timersRun && o.txn.state = .asking && o.txn.peerOwner) Config.answerTime o.txn.answerTimer
    (fun t => (t.showCustomer .noAnswer Config.messageTime).toResting) o

/-- R119: the WITHDRAW of the sale that is given up. -/
def Station.withdrawSale (s : Station) : Station :=
  match s.txn.offer with
  | some o => s.withdrawFrom o.owner o.tag
  | none => s

/-- RESULT_TIMER_EXPIRY (R119). -/
def execResultTimerExpiry (s : State) : Host.Outcome State Fault Refusal :=
  happen s fun o => expire (o.timersRun && o.txn.state = .committed && o.txn.peerOwner) (Config.resultTime o.cfg.timeoutCode)
    o.txn.resultTimer (fun t => t.withdrawSale.giveUpSale) o

/-- INACTIVITY_TIMEOUT (R121): in CREDIT with the door closed, whatever the line state but HALTED (R203). -/
def execInactivityTimeout (s : State) : Host.Outcome State Fault Refusal :=
  happen s fun o => expire (o.timersRun && o.txn.state = .credit && !o.faults.doorOpen) (1000 * o.cfg.inactivitySec)
    o.txn.inactivityTimer Station.forfeit o

/-! ### The display and the lamp (R123, R187, R191, R193) -/

/-- MESSAGE_TIME_END. -/
def execMessageTimeEnd (s : State) : Host.Outcome State Fault Refusal :=
  happen s fun o => expire o.panel.message.isSome o.panel.messageLength o.panel.messageTimer
    (fun t => { t with panel := { t.panel with message := none } }) o

/-- DISPLAY_ALTERNATION. -/
def execDisplayAlternation (s : State) : Host.Outcome State Fault Refusal :=
  happen s fun o => expire o.panel.alternation.isSome Config.alternationTime o.panel.alternationTimer
    (fun t => { t with panel := { t.panel with secondShown := !t.panel.secondShown, alternationTimer := 0 } }) o

/-- LAMP_FLASH. -/
def execLampFlash (s : State) : Host.Outcome State Fault Refusal :=
  happen s fun o => expire (o.faults.lamp = .flashing) Config.flashTime o.faults.flashTimer
    (fun t => { t with faults := { t.faults with flashOn := !t.faults.flashOn, flashTimer := 0 } }) o

end Sys2Proof.Machine
end

