-- ==== Sys2Proof/Machine/Starting.lean ====
section
/-! DEFINITION. Meanings: starts, the load event, the power-fail warning and the end of the saved-block write. -/

namespace Sys2Proof.Machine

/-- R200: the memory after a write that is cut off, if one was in progress. -/
def cutWrite (mem : Memory) (write : Option (List Byte)) : Memory :=
  match write with
  | some block => Memory.writeFrom mem blockAddress (cutBlock block)
  | none => mem

/-- A cold start's reset event (R201). -/
def coldStart (s : State) : State :=
  { s with
    station := finish s.station s.station.coldReset
    mem := cutWrite s.mem s.saveWrite
    saveWrite := none }

/-- POWER_ON (R201, R56, R59): the reset event of a cold start. -/
def execPowerOn (s : State) : Host.Outcome State Fault Refusal := .next (coldStart s)

/-- RESET_INPUT (R201, R202): a cold start while HALTED or before a cold start's load event, else a warm restart. -/
def execResetInput (s : State) : Host.Outcome State Fault Refusal :=
  if s.station.line.state = .halted || s.station.start = .readingCold then .next (coldStart s)
  else happen s Station.warmReset

/-- LOAD_EVENT (R198): the image, as the programmer has left it, is judged and taken; no start in progress, no load. -/
def execLoadEvent (inp : LoadInputs) (s : State) : Host.Outcome State Fault Refusal :=
  if s.station.start = .none then .next s
  else
    let mem := Memory.writeCells s.mem inp.programmed
    .next { s with station := finish s.station (s.station.load mem inp), mem := mem }

/-- POWER_FAIL_WARNING (R200, R203): the halt actions, and the saved block begun when working state has been built. -/
def execPowerFailWarning (s : State) : Host.Outcome State Fault Refusal :=
  if s.station.line.state = .halted then .next s
  else if s.station.built then
    let halted := s.station.halt.countWrite
    .next { s with station := finish s.station halted, saveWrite := some (savedBlock halted) }
  else happen s Station.halt

/-- SAVED_BLOCK_WRITTEN (R200): the write ends with its check word, or is abandoned. -/
def execSavedBlockWritten (complete : Bool) (s : State) : Host.Outcome State Fault Refusal :=
  match s.saveWrite with
  | none => .next s
  | some block =>
    .next { s with
      mem := Memory.writeFrom s.mem blockAddress (if complete then block else cutBlock block)
      saveWrite := none }

end Sys2Proof.Machine
end

