-- ==== Sys2Proof/Machine/Technician.lean ====
section
/-! DEFINITION. Meanings: the service commands, each as its submission in service mode (R192, notes/assumptions/24.md). -/

namespace Sys2Proof.Machine

/-- ACK_ATTENTION (R189). -/
def execAckAttention (s : State) : Host.Outcome State Fault Refusal := happen s fun o => o.submit .ackAttention

/-- ACK_HOLD (R150). -/
def execAckHold (s : State) : Host.Outcome State Fault Refusal := happen s fun o => o.submit .ackHold

/-- FILL_TUBE (R74). -/
def execFillTube (tube count : Nat) (s : State) : Host.Outcome State Fault Refusal := happen s fun o => o.submit (.fillTube tube count)

/-- EMPTY_TUBE (R75). -/
def execEmptyTube (tube : Nat) (s : State) : Host.Outcome State Fault Refusal := happen s fun o => o.submit (.emptyTube tube)

/-- CLEAR_TUBE (R76). -/
def execClearTube (tube : Nat) (s : State) : Host.Outcome State Fault Refusal := happen s fun o => o.submit (.clearTube tube)

/-- REFILL (R10). -/
def execRefill (s : State) : Host.Outcome State Fault Refusal := happen s fun o => o.submit .refill

/-- CLEAR_SPIRAL (R11). -/
def execClearSpiral (position : Nat) (s : State) : Host.Outcome State Fault Refusal :=
  happen s fun o => o.submit (.clearSpiral position)

/-- TEST_VEND (R30). -/
def execTestVend (position : Nat) (s : State) : Host.Outcome State Fault Refusal := happen s fun o => o.submit (.testVend position)

/-- MANUAL_DEFROST (R141). -/
def execManualDefrost (s : State) : Host.Outcome State Fault Refusal := happen s fun o => o.submit .manualDefrost

/-- CLEAR_COMPRESSOR (R137). -/
def execClearCompressor (s : State) : Host.Outcome State Fault Refusal := happen s fun o => o.submit .clearCompressor

/-- FORGET_PEERS (R184). -/
def execForgetPeers (s : State) : Host.Outcome State Fault Refusal := happen s fun o => o.submit .forgetPeers

/-- R192, R202: RESTART in service mode, and in OFFLINE after an invalid image with the door open
(notes/assumptions/25.md). -/
def Station.restart (s : Station) : Station :=
  if s.configInvalid && s.line.state = .offline && s.faults.doorOpen then s.warmReset else s.submit .restart

/-- RESTART (R192, R202). -/
def execRestart (s : State) : Host.Outcome State Fault Refusal := happen s Station.restart

/-- SHOW_AUDIT (R193). -/
def execShowAudit (item : Nat) (s : State) : Host.Outcome State Fault Refusal := happen s fun o => o.submit (.showAudit item)

end Sys2Proof.Machine
end

