-- ==== Sys2Proof/Machine/Vending.lean ====
section
/-! DEFINITION. Meanings: the door, the vend cycle, the chute, and the commit window. -/

namespace Sys2Proof.Machine

/-! ### The door (R190) -/

/-- DOOR_OPENS. -/
def execDoorOpens (s : State) (held : Nat := 100) : Host.Outcome State Fault Refusal :=
  happen s <| ifHeld Config.doorHold held fun o => if o.doorRead && !o.faults.doorOpen then o.openDoor else o

/-- DOOR_CLOSES. -/
def execDoorCloses (s : State) (held : Nat := 100) : Host.Outcome State Fault Refusal :=
  happen s <| ifHeld Config.doorHold held fun o => if o.doorRead && o.faults.doorOpen then o.closeDoor else o

/-- DOOR_LEFT_OPEN: the door has been open for 600 s; the timer runs also where the door is not read. -/
def execDoorLeftOpen (s : State) : Host.Outcome State Fault Refusal :=
  happen s fun o => expire (o.line.state != .halted && o.faults.doorOpen) Config.doorOpenTime o.faults.doorTimer
    (fun t => { t with faults := { t.faults with doorLeftOpen := true } }) o

/-! ### The vend cycle -/

/-- CLAIM_TIMER_EXPIRY (R37): NO-POWER. -/
def execClaimTimerExpiry (s : State) : Host.Outcome State Fault Refusal :=
  happen s fun o => expire (o.vendIn .claiming) Config.claimTime o.vendTimer (fun t => t.endVend .noPower) o

/-- The level of HOME at the vend's spiral. -/
def Station.setHome (s : Station) (v : Vend) (isOpen : Bool) : Station :=
  { s with homeOpen := updateAt s.homeOpen (v.entry.position - 10) fun _ => isOpen }

/-- R40: HOME opens at the energised motor. -/
def Station.homeOpens (s : Station) (v : Vend) : Station :=
  let s1 := s.setHome v true
  if v.phase = .starting then { s1 with vend := some { v with phase := .turning, timer := 0 } } else s1

/-- HOME_OPENS (R35, R40). -/
def execHomeOpens (s : State) (held : Nat := 10) : Host.Outcome State Fault Refusal :=
  happen s <| ifHeld Config.homeHold held fun o => if o.motorOn then o.onVend fun v t => t.homeOpens v else o

/-- R43: HOME closes at the energised motor. -/
def Station.homeCloses (s : Station) (v : Vend) : Station :=
  let s1 := s.setHome v false
  if v.phase = .turning then s1.revolutionEnds v else s1

/-- HOME_CLOSES (R35, R43, R46). -/
def execHomeCloses (s : State) (held : Nat := 10) : Host.Outcome State Fault Refusal :=
  happen s <| ifHeld Config.homeHold held fun o => if o.motorOn then o.onVend fun v t => t.homeCloses v else o

/-- LEAVE_HOME_TIMER_EXPIRY (R40): JAMMED. -/
def execLeaveHomeTimerExpiry (s : State) : Host.Outcome State Fault Refusal :=
  happen s fun o => expire (o.vendIn .starting) Config.leaveHomeTime o.vendTimer (fun t => t.endVend .jammed) o

/-- REVOLUTION_TIMER_EXPIRY (R43): JAMMED. -/
def execRevolutionTimerExpiry (s : State) : Host.Outcome State Fault Refusal :=
  happen s fun o => expire (o.vendIn .turning) Config.revolutionTime o.vendTimer (fun t => t.endVend .jammed) o

/-- DROP_WINDOW_EXPIRY (R44): a further turn, or EMPTY. -/
def execDropWindowExpiry (s : State) : Host.Outcome State Fault Refusal :=
  happen s fun o => expire (o.vendIn .settling) Config.dropWindow o.vendTimer
    (fun t => t.onVend fun v u => u.windowEnds v) o

/-- An event that R34's assessments have found, once they are made. -/
def Station.ifFound (s : Station) (currents : List Nat) (found : Station → Bool) (effect : Station → Station) : Station :=
  let t := s.assess currents
  if found t then effect t else t

/-- JAM (R34, R41): the current has stayed above the jam threshold for 150 ms. -/
def execJam (s : State) (currents : List Nat := []) : Host.Outcome State Fault Refusal :=
  happen s fun o => o.ifFound currents Station.jamFound fun t => t.onVend fun v u => u.jamTaken v

/-- SHORT_CHECK (R34, R39, R42): a short in the first 50 ms of an energising. -/
def execShortCheck (s : State) (currents : List Nat := []) : Host.Outcome State Fault Refusal :=
  happen s fun o => o.ifFound currents Station.shortFound fun t => t.endVend .motorFault

/-- OPEN_CHECK (R34, R39): no current in the first 100 ms of a forward energising. -/
def execOpenCheck (s : State) (currents : List Nat := []) : Host.Outcome State Fault Refusal :=
  happen s fun o => o.ifFound currents Station.openFound fun t => t.endVend .motorFault

/-- REVERSE_PAUSE_END (R42): the motor is energised reversed. -/
def execReversePauseEnd (s : State) : Host.Outcome State Fault Refusal :=
  happen s fun o => expire (o.vendIn (.reversing .firstPause)) Config.reversePause o.vendTimer
    (fun t => t.onVend fun v u => { u with vend := some (v.energised (.reversing .reversed) .reversed) }) o

/-- REVERSING_TIMER_EXPIRY (R42): the motor is off for the second pause. -/
def execReversingTimerExpiry (s : State) : Host.Outcome State Fault Refusal :=
  happen s fun o => expire (o.vendIn (.reversing .reversed)) Config.reversingTime o.vendTimer
    (fun t => t.onVend fun v u => { u with vend := some { v with phase := .reversing .secondPause, timer := 0 } }) o

/-- FORWARD_PAUSE_END (R42, R38): forward again, by HOME. -/
def execForwardPauseEnd (s : State) : Host.Outcome State Fault Refusal :=
  happen s fun o => expire (o.vendIn (.reversing .secondPause)) Config.reversePause o.vendTimer Station.energise o

/-! ### The chute (R35, R44, R45, R53 to R55) -/

/-- The beam becomes blocked or clear, and its time begins. -/
def Station.setBeam (s : Station) (blocked : Bool) : Station :=
  { s with chute := { s.chute with blocked := blocked, beamTime := 0 } }

/-- R35: the clear beam becomes blocked: a DROP edge when it has been clear for 10 ms, else the same object still. -/
def Station.beamBlocks (s : Station) : Station :=
  let s1 := s.setBeam true
  if Config.dropGap ≤ s.chute.beamTime then s1.dropTaken else s1

/-- DROP_EDGE: the beam becomes blocked (R35, R45). -/
def execDropEdge (s : State) : Host.Outcome State Fault Refusal :=
  happen s fun o => if o.doorRead && !o.chute.blocked then o.beamBlocks else o

/-- BEAM_CLEARS: the beam becomes clear, and its clear time begins (R35, R55). -/
def execBeamClears (s : State) : Host.Outcome State Fault Refusal :=
  happen s fun o => if o.doorRead && o.chute.blocked then o.setBeam false else o

/-- CHUTE_ACTIVITY_RATE_END (R54): the oldest of the 21 kept times passes 60 minutes of age. -/
def execChuteActivityRateEnd (s : State) : Host.Outcome State Fault Refusal :=
  happen s fun o => expire (o.doorRead && o.chute.rate) Config.hour (o.now - o.chute.edges.headD 0)
    (fun t => { t with chute := { t.chute with rate := false } }) o

/-- R55: the beam is timed, from the load event of a start on. -/
def Station.beamTimed (s : Station) : Bool := s.doorRead && s.start = .none

/-- R55: a chute fault begins; with the delivery guarantee on the queue's entries are removed (R29). -/
def Station.chuteFaultBegins (s : Station) : Station :=
  let s1 := ({ s with chute := { s.chute with fault := true } }).raise .chute
  if s1.cfg.guarantee then s1.removeForChute else s1

/-- CHUTE_FAULT: the beam has been blocked for 2 s. -/
def execChuteFault (s : State) : Host.Outcome State Fault Refusal :=
  happen s fun o => expire (o.beamTimed && o.chute.blocked && !o.chute.fault) Config.beamBlockedTime o.chute.beamTime
    Station.chuteFaultBegins o

/-- CHUTE_FAULT_CLEAR: the beam has been clear for 5 s. -/
def execChuteFaultClear (s : State) : Host.Outcome State Fault Refusal :=
  happen s fun o => expire (o.beamTimed && !o.chute.blocked && o.chute.fault) Config.beamClearTime o.chute.beamTime
    (fun t => { t with chute := { t.chute with fault := false } }) o

/-! ### The commit window (R21) -/

/-- The commit timer of the AWAIT-COMMIT entry of a payer and tag. -/
def Station.awaiting (s : Station) (payer : Payer) (tag : Nat) : Option Entry :=
  s.queue.find? fun e => entryIs payer tag e && e.state = .awaitCommit

/-- COMMIT_TIMER_EXPIRY: the entry is removed. -/
def execCommitTimerExpiry (payer : Payer) (tag : Nat) (s : State) : Host.Outcome State Fault Refusal :=
  happen s fun o =>
    match o.awaiting payer tag with
    | some e => (o.advanceTo Config.commitTime e.commitTimer).expireEntry payer tag
    | none => o

end Sys2Proof.Machine
end

