-- ==== Sys2Proof/Machine/Dispatch.lean ====
section
/-! DEFINITION. One arm per command, each a direct call of its meaning. -/

namespace Sys2Proof.Machine

def exec (i : Instr) (s : State) : Host.Outcome State Fault Refusal :=
  match i with
  | .powerOn => Sys2Proof.Machine.execPowerOn s
  | .resetInput => Sys2Proof.Machine.execResetInput s
  | .loadEvent inp => Sys2Proof.Machine.execLoadEvent inp s
  | .powerFailWarning => Sys2Proof.Machine.execPowerFailWarning s
  | .savedBlockWritten complete => Sys2Proof.Machine.execSavedBlockWritten complete s
  | .doorOpens held => Sys2Proof.Machine.execDoorOpens s held
  | .doorCloses held => Sys2Proof.Machine.execDoorCloses s held
  | .doorLeftOpen => Sys2Proof.Machine.execDoorLeftOpen s
  | .claimTimerExpiry => Sys2Proof.Machine.execClaimTimerExpiry s
  | .homeOpens held => Sys2Proof.Machine.execHomeOpens s held
  | .homeCloses held => Sys2Proof.Machine.execHomeCloses s held
  | .leaveHomeTimerExpiry => Sys2Proof.Machine.execLeaveHomeTimerExpiry s
  | .revolutionTimerExpiry => Sys2Proof.Machine.execRevolutionTimerExpiry s
  | .dropWindowExpiry => Sys2Proof.Machine.execDropWindowExpiry s
  | .jam currents => Sys2Proof.Machine.execJam s currents
  | .shortCheck currents => Sys2Proof.Machine.execShortCheck s currents
  | .openCheck currents => Sys2Proof.Machine.execOpenCheck s currents
  | .reversePauseEnd => Sys2Proof.Machine.execReversePauseEnd s
  | .reversingTimerExpiry => Sys2Proof.Machine.execReversingTimerExpiry s
  | .forwardPauseEnd => Sys2Proof.Machine.execForwardPauseEnd s
  | .dropEdge => Sys2Proof.Machine.execDropEdge s
  | .chuteActivityRateEnd => Sys2Proof.Machine.execChuteActivityRateEnd s
  | .chuteFault => Sys2Proof.Machine.execChuteFault s
  | .chuteFaultClear => Sys2Proof.Machine.execChuteFaultClear s
  | .commitTimerExpiry payer tag => Sys2Proof.Machine.execCommitTimerExpiry payer tag s
  | .offer src dst tag tray column => Sys2Proof.Machine.execOffer src dst tag tray column s
  | .commit src dst tag price => Sys2Proof.Machine.execCommit src dst tag price s
  | .withdraw src dst tag => Sys2Proof.Machine.execWithdraw src dst tag s
  | .accept src dst tag price queuePos => Sys2Proof.Machine.execAccept src dst tag price queuePos s
  | .refuse src dst tag reason => Sys2Proof.Machine.execRefuse src dst tag reason s
  | .result src dst tag outcome drops => Sys2Proof.Machine.execResult src dst tag outcome drops s
  | .claim src dst cls rank value scale => Sys2Proof.Machine.execClaim src dst cls rank value scale s
  | .release src dst cls => Sys2Proof.Machine.execRelease src dst cls s
  | .declare src dst fields => Sys2Proof.Machine.execDeclare src dst fields s
  | .heartbeat src dst fields => Sys2Proof.Machine.execHeartbeat src dst fields s
  | .audit src dst block content => Sys2Proof.Machine.execAudit src dst block content s
  | .auditQuery src dst block => Sys2Proof.Machine.execAuditQuery src dst block s
  | .auditQueryJournal src dst block => Sys2Proof.Machine.execAuditQueryJournal src dst block s
  | .badFrame bits => Sys2Proof.Machine.execBadFrame s bits
  | .transmitStart recessive => Sys2Proof.Machine.execTransmitStart s recessive
  | .lostContention head => Sys2Proof.Machine.execLostContention s head
  | .transmitError => Sys2Proof.Machine.execTransmitError s
  | .brxDominant held => Sys2Proof.Machine.execBrxDominant s held
  | .frameSent => Sys2Proof.Machine.execFrameSent s
  | .listenTimerExpiry => Sys2Proof.Machine.execListenTimerExpiry s
  | .silenceTimerExpiry => Sys2Proof.Machine.execSilenceTimerExpiry s
  | .heartbeatTimerExpiry => Sys2Proof.Machine.execHeartbeatTimerExpiry s
  | .probeTimerExpiry => Sys2Proof.Machine.execProbeTimerExpiry s
  | .declareTimerExpiry => Sys2Proof.Machine.execDeclareTimerExpiry s
  | .declareDelayExpiry => Sys2Proof.Machine.execDeclareDelayExpiry s
  | .peerSilent address => Sys2Proof.Machine.execPeerSilent address s
  | .peerGone address => Sys2Proof.Machine.execPeerGone address s
  | .windowTimerExpiry => Sys2Proof.Machine.execWindowTimerExpiry s
  | .backoffTimerExpiry cls => Sys2Proof.Machine.execBackoffTimerExpiry cls s
  | .starved cls => Sys2Proof.Machine.execStarved cls s
  | .coin coinType path => Sys2Proof.Machine.execCoin coinType path s
  | .reject => Sys2Proof.Machine.execReject s
  | .fault code => Sys2Proof.Machine.execFault code s
  | .status condition => Sys2Proof.Machine.execStatus condition s
  | .statusTimerExpiry => Sys2Proof.Machine.execStatusTimerExpiry s
  | .transmitterFree => Sys2Proof.Machine.execTransmitterFree s
  | .tubeSensorChange tube sensor asserted held => Sys2Proof.Machine.execTubeSensorChange tube sensor asserted s held
  | .coutEdge held => Sys2Proof.Machine.execCoutEdge s held
  | .pulseTimerExpiry => Sys2Proof.Machine.execPulseTimerExpiry s
  | .miss => Sys2Proof.Machine.execMiss s
  | .pauseTimerExpiry => Sys2Proof.Machine.execPauseTimerExpiry s
  | .keyDigit digit => Sys2Proof.Machine.execKeyDigit digit s
  | .keyCab => Sys2Proof.Machine.execKeyCab s
  | .keyClr => Sys2Proof.Machine.execKeyClr s
  | .keyRet => Sys2Proof.Machine.execKeyRet s
  | .keyNext => Sys2Proof.Machine.execKeyNext s
  | .keyPrev => Sys2Proof.Machine.execKeyPrev s
  | .bufferTimeout => Sys2Proof.Machine.execBufferTimeout s
  | .entryTimeout => Sys2Proof.Machine.execEntryTimeout s
  | .answerTimerExpiry => Sys2Proof.Machine.execAnswerTimerExpiry s
  | .resultTimerExpiry => Sys2Proof.Machine.execResultTimerExpiry s
  | .inactivityTimeout => Sys2Proof.Machine.execInactivityTimeout s
  | .messageTimeEnd => Sys2Proof.Machine.execMessageTimeEnd s
  | .displayAlternation => Sys2Proof.Machine.execDisplayAlternation s
  | .lampFlash => Sys2Proof.Machine.execLampFlash s
  | .sensorSample sensor code => Sys2Proof.Machine.execSensorSample sensor code s
  | .minimumOffTimeEnd => Sys2Proof.Machine.execMinimumOffTimeEnd s
  | .inrushEnd => Sys2Proof.Machine.execInrushEnd s
  | .minimumOnTimeEnd => Sys2Proof.Machine.execMinimumOnTimeEnd s
  | .runHour => Sys2Proof.Machine.execRunHour s
  | .lockoutTimerExpiry => Sys2Proof.Machine.execLockoutTimerExpiry s
  | .dutyTimerExpiry => Sys2Proof.Machine.execDutyTimerExpiry s
  | .runTime => Sys2Proof.Machine.execRunTime s
  | .coilIce => Sys2Proof.Machine.execCoilIce s
  | .heaterWaitTimerExpiry => Sys2Proof.Machine.execHeaterWaitTimerExpiry s
  | .defrostTimerExpiry => Sys2Proof.Machine.execDefrostTimerExpiry s
  | .dripTimerExpiry => Sys2Proof.Machine.execDripTimerExpiry s
  | .coldHold => Sys2Proof.Machine.execColdHold s
  | .ackAttention => Sys2Proof.Machine.execAckAttention s
  | .ackHold => Sys2Proof.Machine.execAckHold s
  | .fillTube tube count => Sys2Proof.Machine.execFillTube tube count s
  | .emptyTube tube => Sys2Proof.Machine.execEmptyTube tube s
  | .clearTube tube => Sys2Proof.Machine.execClearTube tube s
  | .refill => Sys2Proof.Machine.execRefill s
  | .clearSpiral position => Sys2Proof.Machine.execClearSpiral position s
  | .testVend position => Sys2Proof.Machine.execTestVend position s
  | .manualDefrost => Sys2Proof.Machine.execManualDefrost s
  | .clearCompressor => Sys2Proof.Machine.execClearCompressor s
  | .forgetPeers => Sys2Proof.Machine.execForgetPeers s
  | .restart => Sys2Proof.Machine.execRestart s
  | .showAudit item => Sys2Proof.Machine.execShowAudit item s
  | .keyEnt => Sys2Proof.Machine.execKeyEnt s
  | .beamClears => Sys2Proof.Machine.execBeamClears s

end Sys2Proof.Machine
end

