-- ==== Sys2Proof/Machine/Step.lean ====
section
/-! DEFINITION. A step takes the command at the front of the queue; with none waiting a millisecond passes
(notes/assumptions/1.md). -/

namespace Sys2Proof.Machine

/-- The state with another queue. -/
def State.withPending (s : State) (pending : List Instr) : State := { s with pending := pending }

/-- The station's time base: one millisecond. -/
def tick (s : State) : Host.Outcome State Fault Refusal := happen s (Station.advance 1)

/-- One step. -/
def step (s : State) : Host.Outcome State Fault Refusal :=
  match s.pending with
  | [] => tick s
  | c :: rest => exec c (s.withPending rest)

/-- The command that a word spells put at the front of the queue; no word spells one. -/
def State.withFetchWord (s : State) (nbits w : Nat) : State :=
  match decodeTableWord nbits w with
  | some c => s.withPending (c :: s.pending)
  | none => s

end Sys2Proof.Machine
end

