-- ==== Sys2Proof/Safety.lean ====
section
/-! DEFINITION. What the statements speak of: the answer of a command, the regions of the station and what keeping one
means, and the invariants that every step keeps. -/

namespace Sys2Proof.Machine

/-! ### The answer of a command -/

/-- The command answers a next state that keeps the configuration memory, the write in progress and the queue, and whose
station meets `P`. -/
def Gives (i : Instr) (s : State) (P : Station → Prop) : Prop :=
  ∃ t, exec i s = .next t ∧ t.mem = s.mem ∧ t.saveWrite = s.saveWrite ∧ t.pending = s.pending ∧ P t.station

/-! ### Frames -/

/-- The regions of the station. What the end of every event derives from them is left out: the exact-change indicator,
the sets of R59 and their transmitter, standing and notice flags, the lamp, what alternates on the display, and the
output pins; `Settled` and statements of their own speak of these. -/
inductive Region
  | clock
  | setup
  | spirals
  | home
  | queue
  | vend
  | chute
  | tubes
  | journal
  | coinLink
  | payout
  | txn
  | buffer
  | message
  | service
  | meters
  | cooling
  | power
  | line
  | lineQueue
  | peers
  | door
  | latch
  | counters
  deriving DecidableEq, Repr

/-- The audit counters but for tx overflow and dropped notices, which belong to the transmit queue and the latch. -/
def Audit.owned (a : Audit) : Audit := { a with txOverflow := 0, dropped := 0 }

/-- The cooling controller but for the ice timer, which the end of an event restarts (R140). -/
def Cooling.owned (c : Cooling) : Cooling := { c with iceTimer := 0, iceTaken := false }

/-- The cooling controller but for what a grant changes (R134, R144) and the ice timer. -/
def Cooling.measured (c : Cooling) : Cooling :=
  { c.owned with compressor := .off, phase := .none, inrushTimer := 0, inrushDone := false, minOnTimer := 0 }

/-- The line interface but for its queue. -/
def Line.owned (l : Line) : Line := { l with queue := [] }

/-- No waiting load is to be checked (R157, R166): none is READY, or a window is held, or the line state checks none. -/
def Station.loadsSettled (s : Station) : Bool :=
  bestReady s.power.requests = none || (s.active && windowHeld s.power.requests) || !(s.active || s.line.state.isIsolated)

/-- A compressor or a heater waits for its grant (R134, R144). -/
def Cooling.waits (c : Cooling) : Bool := c.compressor = .waitPower || c.phase = .heaterWait

/-- A region of `b` is as it is in `a`. At the end of an event loads that wait may be checked, sent as CLAIM frames and
granted (R157, R166), unless there is none to check. -/
def Region.same : Region → Station → Station → Prop
  | .clock, a, b => b.now = a.now
  | .setup, a, b =>
    b.start = a.start ∧ b.built = a.built ∧ b.configInvalid = a.configInvalid ∧ b.seqCount = a.seqCount ∧ b.cfg = a.cfg
  | .spirals, a, b => b.spirals = a.spirals
  | .home, a, b => b.homeOpen = a.homeOpen
  | .queue, a, b => b.queue = a.queue
  | .vend, a, b => a.loadsSettled = true ∨ a.vendIn .claiming = false → b.vend = a.vend
  | .chute, a, b => b.chute = a.chute
  | .tubes, a, b => b.coin.tubes = a.coin.tubes
  | .journal, a, b => b.coin.journal = a.coin.journal ∧ b.coin.overrun = a.coin.overrun
  | .coinLink, a, b =>
    b.coin.statusTimer = a.coin.statusTimer ∧ b.coin.faultStands = a.coin.faultStands ∧ b.coin.faultCode = a.coin.faultCode
  | .payout, a, b => b.payout = a.payout
  | .txn, a, b => b.txn = a.txn
  | .buffer, a, b => b.panel.buffer = a.panel.buffer ∧ b.panel.bufferTimer = a.panel.bufferTimer
  | .message, a, b =>
    b.panel.message = a.panel.message ∧ b.panel.messageTimer = a.panel.messageTimer ∧
      b.panel.messageLength = a.panel.messageLength
  | .service, a, b => b.service = a.service
  | .meters, a, b => b.cooling.measured = a.cooling.measured
  | .cooling, a, b => a.loadsSettled = true ∨ a.cooling.waits = false → b.cooling.owned = a.cooling.owned
  | .power, a, b => a.loadsSettled = true → b.power = a.power
  | .line, a, b => b.line.owned = a.line.owned
  | .lineQueue, a, b => a.loadsSettled = true → b.line.queue = a.line.queue ∧ b.audit.txOverflow = a.audit.txOverflow
  | .peers, a, b => b.peers = a.peers
  | .door, a, b =>
    b.faults.doorOpen = a.faults.doorOpen ∧ b.faults.doorTimer = a.faults.doorTimer ∧
      b.faults.doorLeftOpen = a.faults.doorLeftOpen
  | .latch, a, b =>
    b.faults.active = a.faults.active ∧ b.faults.pendingNotice = a.faults.pendingNotice ∧ b.audit.dropped = a.audit.dropped
  | .counters, a, b => b.audit.owned = a.audit.owned

/-- Every region but the listed ones is kept. -/
def KeepsBut (regions : List Region) (a b : Station) : Prop := ∀ r, r ∉ regions → r.same a b

/-! ### Invariants -/

/-- What the end of every event leaves true: the outputs follow the records (R33, R59, R147, R187, R198, R203), the sets
of R61 and R62 have been handed to the validator, the indicator describes the tubes (R91, R92), the conditions of R186 stand as their sources hold them, and the
display alternates what its rules name. -/
def Settled (s : Station) : Prop :=
  s.pins = s.outputs ∧ s.faults.lamp = s.lampMode ∧ s.panel.alternation = s.alternates ∧
    (s.coinUnitWorks = true → s.coin.lastInhibit = s.inhibitSet ∧ s.coin.lastRoute = s.routeSet) ∧
    (s.running = true → s.exactLit = (isPayment s.cfg && indicatorLit s.cfg.coinTypes s.coin.tubes)) ∧
    (s.line.state = .offline → s.exactLit = false) ∧
    (s.keepsConditions = true → s.faults.standing = allConditions.filter s.holds)

/-- R203: what a station that has halted looks like. That the timers of the records so cleared hold 0, the error count 0 and
the record of a peer heard no, and the empty payout record attempt 1, is the model's choice (notes/assumptions/44.md, 46.md,
39.md). -/
def AtHalt (s : Station) : Prop :=
  s.line = Line.halted s.line.clashLatched ∧ s.start = .none ∧ s.configInvalid = false ∧ s.queue = [] ∧ s.vend = none ∧
    s.payout = Payout.blank ∧ s.panel = Panel.blank ∧ s.service = ServiceEntry.blank ∧ s.power = Power.blank ∧
    s.cooling.compressor = .off ∧ s.cooling.phase = .none ∧ s.faults.lamp = .off ∧ s.pins = Pins.off

/-- R133 to R147: the phases of a melting coil and of DRIP belong to compressor state DEFROST, so that compressor and
heater are never on together. -/
def HeatOrCool (s : Station) : Prop :=
  (s.cooling.phase.melting = true ∨ s.cooling.phase = .drip → s.cooling.compressor = .defrost) ∧
    ¬(s.pins.cmp = true ∧ s.pins.dfh = true)

/-- The buffers of the station within their sizes: the vend queue (R16), the transmit queue (R173), the journal (R71);
credit within its width (R109); estimates up to 250, and up to the low mark while the low sensor is asserted, with the
marks of a fitted tube in order (R66, R57); a pending notice only with an active one (R188). -/
def Bounded (s : Station) : Prop :=
  s.queue.length ≤ 4 ∧ s.line.queue.length ≤ 8 ∧ s.coin.journal.length ≤ 32 ∧ s.txn.credit ≤ 65535 ∧
    (∀ r ∈ s.coin.tubes, r.estimate ≤ 250 ∧ (r.fitted = true →
      r.lowMark < r.fullMark ∧ r.fullMark ≤ 250 ∧ (r.lowSensor = true → r.estimate ≤ r.lowMark))) ∧
    (s.faults.active = none → s.faults.pendingNotice = none)

/-- R127, R168, R177, R198, R203: what a station in OFFLINE or HALTED holds nothing of; a start is in progress only
there. -/
def AtRest (s : Station) : Prop :=
  (s.start ≠ .none → s.running = false) ∧
    (s.running = false →
      s.queue = [] ∧ s.vend = none ∧ s.power = Power.blank ∧ s.payout.state = .idle ∧ s.txn.state ≠ .asking ∧
        s.txn.state ≠ .committed ∧ s.cooling.compressor = .off ∧ s.cooling.phase = .none)

/-- Payer and tag of an entry; a test entry has neither. -/
def entryKey (e : Entry) : Option (Payer × Nat) :=
  match e.payer, e.tag with
  | some p, some n => some (p, n)
  | _, _ => none

/-- R16, R4, R20: no two entries of the queue have one payer and tag, the vend in flight is that of the one VENDING entry,
and no spiral of known stock is named by more entries than it holds. -/
def QueueLaw (s : Station) : Prop :=
  (s.queue.filterMap entryKey).Nodup ∧
    (s.queue.filter fun e => e.state = .vending) = (s.vend.map fun v => v.entry).toList ∧
    (∀ position n, (s.spiral position).stock = .known n → s.namingCount position ≤ n) ∧ AtRest s

/-- R33, R48, R134, R139, R144, R153: a load runs exactly while its slot stands: the vend's motor belongs to a vend past
CLAIMING, the compressor to RUN, the heater to HEATER. A class has one request at most, and none while its slot
stands. -/
def LoadLaw (s : Station) : Prop :=
  (s.power.vendMotor.isSome = true ↔ ∃ v, s.vend = some v ∧ v.phase ≠ .claiming) ∧
    (s.power.compressor.isSome = true ↔ s.cooling.compressor = .run) ∧
    (s.power.heater.isSome = true ↔ s.cooling.phase = .heater) ∧
    (s.cooling.phase.melting = true ∨ s.cooling.phase = .drip ↔ s.cooling.compressor = .defrost) ∧
    (s.power.requests.map fun r => r.cls).Nodup ∧
    (∀ cls, (s.power.slot cls).isSome = true → hasRequest s.power.requests cls = false) ∧ AtRest s

/-- R109, R110, R93: the escrow is the price of the committed offer and 0 without one, IDLE and CREDIT follow the credit, a
payout is held exactly in PAYING, and what is planned of it and paid is within its amount. -/
def MoneyLaw (s : Station) : Prop :=
  (s.txn.state ≠ .committed → s.txn.escrow = 0) ∧
    (s.txn.state = .committed → ∃ o, s.txn.offer = some o ∧ o.quoted = some s.txn.escrow) ∧
    (s.txn.state = .asking → s.txn.offer ≠ none) ∧ (s.txn.state = .idle → s.txn.credit = 0) ∧
    (s.txn.state = .credit → s.txn.credit ≠ 0) ∧ (s.payout.state = .idle ↔ s.txn.state ≠ .paying) ∧
    (s.payout.state = .idle → s.payout.amount = s.payout.paid) ∧ (s.payout.phase ≠ .none → s.payout.state = .running) ∧
    s.payout.paid + planTotal s.payout.plan ≤ s.payout.amount ∧ AtRest s

/-- R109: the money that the station holds for its customer. -/
def Station.held (s : Station) : Nat := s.txn.credit + s.txn.escrow + (s.payout.amount - s.payout.paid)

/-- R63: the money that a command brings in: the value of a COIN that is taken. -/
def Station.takenValue (s : Station) : Instr → Nat
  | .coin coinType _ => if s.coinUnitWorks && coinTypeOk coinType then (s.coinTypeOf coinType).value else 0
  | _ => 0

/-- R109: the money that has left it: sales, coins paid out, forfeits. -/
def Station.gone (s : Station) : Nat := s.audit.salesValue + s.audit.payoutValue + s.audit.forfeitedValue

/-- R165 to R167: in ISOLATED the own sum is within the allowance in force, which reaches the base and the vend motor; only
an ACTIVE station has a claim out. -/
def IsolatedLaw (s : Station) : Prop :=
  (s.line.state.isIsolated = true → s.ownSum ≤ allowanceInForce s.cfg) ∧
    (s.running = true → watts s.cfg.base + watts s.cfg.vendMotor ≤ allowanceInForce s.cfg) ∧
    (∀ f, s.power.vendMotor = some f → f = s.cfg.vendMotor) ∧
    (∀ r ∈ s.power.requests, (r.cls = .vendMotor → r.power = s.cfg.vendMotor) ∧
      (s.active = false → r.phase ≠ .sending ∧ r.phase ≠ .window)) ∧ AtRest s

/-- R176, R177, R179: an address clash is latched wherever it has isolated the station, and besides only in HALTED; a start in
progress stands in OFFLINE or HALTED and has none. -/
def ClashLaw (s : Station) : Prop :=
  (s.line.state = .isolated .clash → s.line.clashLatched = true) ∧
    (s.line.clashLatched = true → s.line.state = .isolated .clash ∨ s.line.state = .halted) ∧
    (s.start ≠ .none → s.running = false ∧ s.line.clashLatched = false)

/-! ### Tables of the statements -/

/-- Sender and destination of a frame command. -/
def frameRoute : Instr → Option (Nat × Nat)
  | .offer src dst _ _ _ => some (src, dst)
  | .commit src dst _ _ => some (src, dst)
  | .withdraw src dst _ => some (src, dst)
  | .accept src dst _ _ _ => some (src, dst)
  | .refuse src dst _ _ => some (src, dst)
  | .result src dst _ _ _ => some (src, dst)
  | .claim src dst _ _ _ _ => some (src, dst)
  | .release src dst _ => some (src, dst)
  | .declare src dst _ => some (src, dst)
  | .heartbeat src dst _ => some (src, dst)
  | .audit src dst _ _ => some (src, dst)
  | .auditQuery src dst _ => some (src, dst)
  | .auditQueryJournal src dst _ => some (src, dst)
  | _ => none

/-- R170, R171: a frame command whose fields lie in their ranges. -/
def frameValid : Instr → Bool
  | .auditQuery src dst block => auditQueryOk src dst block
  | .auditQueryJournal src dst block => auditQueryOk src dst block
  | c => c.wellFormed

/-- R37, R40, R43: the timers that end a vend, with its outcome and the time until they have run out. -/
def endsVend (c : Instr) (v : Vend) : Option (Outcome × Nat) :=
  match c with
  | .claimTimerExpiry => if v.phase = .claiming then some (.noPower, 15000 - v.timer) else none
  | .leaveHomeTimerExpiry => if v.phase = .starting then some (.jammed, 600 - v.timer) else none
  | .revolutionTimerExpiry => if v.phase = .turning then some (.jammed, 5000 - v.timer) else none
  | _ => none

/-- R34, R39: one of the readings, taken in the first 50 ms of the energising, is above the short threshold. -/
def ReadsShort (c : Settings) (v : Vend) (currents : List Nat) : Prop :=
  ∃ i x, currents[i]? = some x ∧ v.onTime + i < 50 ∧ c.shortThreshold < x

/-- R34, R39: one of the readings of the first 100 ms is not below the open threshold. -/
def ReadsCurrent (c : Settings) (v : Vend) (currents : List Nat) : Prop :=
  ∃ i x, currents[i]? = some x ∧ v.onTime + i < 100 ∧ c.openThreshold ≤ x

/-- R47, R195: the vend outcome counters with one outcome counted. -/
def countedOutcome (counters : List Nat) (o : Outcome) : List Nat := updateAt counters (outcomeIndex o) fun n => rise32 n 1

/-- R71: the journal with one entry written. -/
def journalWith (journal : List JournalEntry) (e : JournalEntry) : List JournalEntry :=
  if journal.length < 32 then journal ++ [e] else journal.tail ++ [e]

/-- R71: the overrun counter with one entry written. -/
def overrunWith (journal : List JournalEntry) (overrun : Nat) : Nat :=
  if journal.length < 32 then overrun else min 65535 (overrun + 1)

/-- The frame is queued when the transmit queue had room (R173). -/
def Queued (a b : Station) (dst : Nat) (body : FrameBody) : Prop :=
  a.line.queue.length < 8 → (⟨dst, body, false⟩ : Frame) ∈ b.line.queue

/-- The vend in flight, if there is one, has just been taken from the queue (R36, R38). -/
def FreshVend (s : Station) : Prop :=
  ∀ v, s.vend = some v → v.entry.state = .vending ∧ v.drops = 0 ∧ v.turnsUsed = 0 ∧ v.jams = 0

/-- R7, R8: the stock of the vend's spiral after the outcome. -/
def stockAfter (o : Outcome) (drops : Nat) (stock : Stock) : Stock :=
  match o, stock with
  | .empty, _ => .known 0
  | .delivered, .known n => if drops ≠ 0 then .known n else if n = 0 then .unknown else .known (n - 1)
  | _, _ => stock

/-- R8: its status, from the stock so left. -/
def statusAfter (o : Outcome) (left : Stock) (status : SpiralStatus) : SpiralStatus :=
  match o with
  | .delivered => if left = .known 0 then .soldOut else status
  | .empty => .soldOut
  | .jammed => .jammed
  | .motorFault => .motorFault
  | _ => status

/-- R8, R9: its consecutive-empty count. -/
def emptiesAfter (o : Outcome) (n : Nat) : Nat :=
  match o with
  | .delivered => 0
  | .empty => min 3 (n + 1)
  | _ => n

/-- R8, R9, R47: what the end of the vend `v` with an outcome records of the station `u`. -/
def VendRecorded (u t : Station) (v : Vend) (o : Outcome) : Prop :=
  t.audit.outcomes = countedOutcome u.audit.outcomes o ∧
    t.audit.doubleDrops = (if 2 ≤ v.drops then rise32 u.audit.doubleDrops 1 else u.audit.doubleDrops) ∧
    t.audit.spiralSales = (if o = .delivered ∧ v.entry.test = false then
      updateAt u.audit.spiralSales (v.entry.position - 10) (fun n => min 65535 (n + 1)) else u.audit.spiralSales) ∧
    (∀ q, q ≠ v.entry.position → t.spiral q = u.spiral q) ∧
    (positionInRange v.entry.position = true → v.entry.position - 10 < u.spirals.length →
      t.spiral v.entry.position = { u.spiral v.entry.position with
        stock := stockUnderNaming (stockAfter o v.drops (u.spiral v.entry.position).stock) (t.namingCount v.entry.position)
        status := statusAfter o (stockAfter o v.drops (u.spiral v.entry.position).stock) (u.spiral v.entry.position).status
        consecutiveEmpty := emptiesAfter o (u.spiral v.entry.position).consecutiveEmpty } ∧
      (u.faults.active = none →
        (o = .jammed → t.faults.active = some (.jam v.entry.position)) ∧
        (o = .motorFault → t.faults.active = some (.motor v.entry.position)) ∧
        (o = .empty → 2 ≤ (u.spiral v.entry.position).consecutiveEmpty →
          t.faults.active = some (.empty v.entry.position))))

/-! ### Notices -/

/-- R188: from `u` on one notice has been raised: into the active slot, else into the pending slot, else dropped and
counted. -/
def NoticeTaken (u t : Station) (n : Notice) : Prop :=
  (u.faults.active = none →
    t.faults.active = some n ∧ t.faults.pendingNotice = u.faults.pendingNotice ∧ t.audit.dropped = u.audit.dropped) ∧
    (u.faults.active ≠ none → t.faults.active = u.faults.active ∧
      (u.faults.pendingNotice = none → t.faults.pendingNotice = some n ∧ t.audit.dropped = u.audit.dropped) ∧
      (u.faults.pendingNotice ≠ none →
        t.faults.pendingNotice = u.faults.pendingNotice ∧ t.audit.dropped = min 255 (u.audit.dropped + 1)))

/-- R188: from `u` on a notice has been raised, and been the first of its event: it has the place that was free. Another,
SHORT-PAY, may follow it where the event has ended a committed sale whose credit was to be returned (R117, R122). -/
def NoticeFirst (u t : Station) (n : Notice) : Prop :=
  (u.faults.active = none → t.faults.active = some n ∧
    (u.faults.pendingNotice = none →
      t.faults.pendingNotice = none ∨ ∃ remainder, t.faults.pendingNotice = some (.shortPay remainder))) ∧
    (u.faults.active ≠ none → t.faults.active = u.faults.active ∧
      (u.faults.pendingNotice = none → t.faults.pendingNotice = some n) ∧
      (u.faults.pendingNotice ≠ none →
        t.faults.pendingNotice = u.faults.pendingNotice ∧ min 255 (u.audit.dropped + 1) ≤ t.audit.dropped)) ∧
    (u.txn.state ≠ .committed ∨ u.txn.returnRequested = false → NoticeTaken u t n)

/-! ### The compressor -/

/-- R136: the running compressor of the station `u` has tripped. The two most recent earlier trips, both within the 60
minutes before, make this one the third: LATCHED, with the notice COMPRESSOR; else LOCKOUT. That one exactly 60 minutes old is within them
is the model's reading (notes/assumptions/36.md). -/
def Tripped (u t : Station) : Prop :=
  t.audit.lockouts = rise32 u.audit.lockouts 1 ∧ t.cooling.sinceStop = 0 ∧ t.pins.cmp = false ∧
    t.power.compressor = none ∧ t.cooling.defrostRequest = u.cooling.defrostRequest ∧
    t.cooling.phase = (if u.cooling.phase = .pending then .none else u.cooling.phase) ∧
    t.cooling.tripTimes = (u.cooling.tripTimes ++ [u.now]).drop (u.cooling.tripTimes.length - 1) ∧
    (u.cooling.tripTimes.length = 2 ∧ (∀ x ∈ u.cooling.tripTimes, u.now ≤ x + 3600000) →
      t.cooling.compressor = .latched ∧ NoticeTaken u t .compressor) ∧
    (u.cooling.tripTimes.length ≠ 2 ∨ (∃ x ∈ u.cooling.tripTimes, x + 3600000 < u.now) →
      t.cooling.compressor = .lockout ∧ t.cooling.lockoutTimer = 0 ∧ Region.same .latch u t)

/-! ### Payouts and sales -/

/-- R96: the payout's coin has been begun from the current tube. -/
def CoinBegun (t : Station) : Prop :=
  t.payout.phase = .pulse ∧ t.payout.currentTube.isSome = true ∧ t.payout.pulseOn = t.payout.currentTube ∧
    t.payout.pulseTimer = 0 ∧ t.payout.windowTimer = 0

/-- R104: the payout that was held as `p` runs again with a plan and an attempt. -/
def PayoutResumed (t : Station) (p : Payout) (plan : List PlanEntry) (attempt : Nat) : Prop :=
  t.payout.state = .running ∧ t.payout.stop = .none ∧ t.payout.plan = plan ∧ t.payout.amount = p.amount ∧
    t.payout.paid = p.paid ∧ t.payout.attempt = attempt

/-- R101, R122: a payout has ended with a remainder. Attempt 1 in the empty record is the model's choice
(notes/assumptions/39.md). -/
def PayoutEnded (u t : Station) (remainder : Nat) : Prop :=
  t.payout = { Payout.blank with pulseOn := t.payout.pulseOn, pulseTimer := t.payout.pulseTimer } ∧
    t.txn.credit = min 65535 (u.txn.credit + remainder) ∧ t.txn.state = restingState t.txn.credit ∧ t.txn.offer = none ∧
    (remainder = 0 → t.audit.shortPayValue = u.audit.shortPayValue) ∧
    (remainder ≠ 0 → t.audit.shortPayValue = rise32 u.audit.shortPayValue remainder ∧
      (u.faults.active = none → u.faults.pendingNotice = none →
        t.faults.active = some (.shortPay remainder) ∨ t.faults.pendingNotice = some (.shortPay remainder)))

/-- R94, R122: all the credit, `amount`, is returned from the tubes of `u`: nothing to pay ends in IDLE, an empty plan ends at
once, else the payout runs, held where the door is open. Attempt 1 while it waits for a pulse still running is the model's
choice (notes/assumptions/39.md). -/
def Returned (u t : Station) (amount : Nat) : Prop :=
  t.txn.returnRequested = false ∧
    (amount = 0 → t.txn.credit = 0 ∧ t.txn.state = .idle ∧ t.txn.offer = none ∧ t.payout = u.payout) ∧
    (amount ≠ 0 → payoutPlan u.coin.tubes amount = [] →
      PayoutEnded { u with txn := { u.txn with credit := 0 } } t amount) ∧
    (amount ≠ 0 → payoutPlan u.coin.tubes amount ≠ [] →
      t.txn.state = .paying ∧ t.txn.credit = 0 ∧ t.txn.offer = none ∧ t.payout.amount = amount ∧ t.payout.paid = 0 ∧
      t.payout.plan = payoutPlan u.coin.tubes amount ∧ t.payout.attempt = 1 ∧ t.payout.tubesChanged = false ∧
      (u.faults.doorOpen = true → t.payout.state = .stopped ∧ t.payout.stop = .door ∧ t.payout.phase = .none) ∧
      (u.faults.doorOpen = false → t.payout.state = .running ∧ t.payout.stop = .none ∧
        (u.payout.pulseOn = none → t.payout.phase = .pulse ∧ t.payout.pulseOn = t.payout.currentTube)))

/-- R117, R118, R119: a sale that was not delivered gives its escrow back, and the credit is returned if that was asked
for. -/
def SaleFailed (u t : Station) : Prop :=
  t.txn.escrow = 0 ∧ t.audit.salesCount = u.audit.salesCount ∧ t.audit.salesValue = u.audit.salesValue ∧
    (u.txn.returnRequested = false →
      t.txn.credit = min 65535 (u.txn.credit + u.txn.escrow) ∧ t.txn.state = restingState t.txn.credit ∧
      t.txn.offer = none ∧ t.txn.returnRequested = false) ∧
    (u.txn.returnRequested = true → u.payout.state = .idle → Returned u t (min 65535 (u.txn.credit + u.txn.escrow)))

/-- R117: a sale is taken; the credit stays for another where that is allowed and no return was asked for, else it is
returned. -/
def SaleTaken (u t : Station) : Prop :=
  t.txn.escrow = 0 ∧ t.audit.salesCount = rise32 u.audit.salesCount 1 ∧
    t.audit.salesValue = rise32 u.audit.salesValue u.txn.escrow ∧
    (u.cfg.multiVend = true → u.txn.returnRequested = false →
      t.txn.credit = u.txn.credit ∧ t.txn.state = restingState u.txn.credit ∧ t.txn.offer = none) ∧
    (u.cfg.multiVend = false ∨ u.txn.returnRequested = true → u.payout.state = .idle → Returned u t u.txn.credit)

/-! ### Answers to entries, and the pick -/

/-- R26: the RESULT on the line for the entry of a peer. -/
def resultFrame (o : Outcome) (drops : Nat) (e : Entry) : Option Frame :=
  match e.payer, e.tag with
  | some (.peer a), some tag => some ⟨a, .result tag o drops, false⟩
  | _, _ => none

/-- R17: the REFUSE on the line for the entry of a peer. -/
def refuseFrame (r : Reason) (e : Entry) : Option Frame :=
  match e.payer, e.tag with
  | some (.peer a), some tag => some ⟨a, .refuse tag r, false⟩
  | _, _ => none

/-- R5, R27 to R29: the answer on the line to a removed entry: REFUSE while it is AWAIT-COMMIT, RESULT with 0 drops once it is
COMMITTED, none for a test entry, which has no payer. -/
def removedFrame (r : Reason) (o : Outcome) (e : Entry) : Option Frame :=
  match e.state with
  | .awaitCommit => refuseFrame r e
  | .committed => resultFrame o 0 e
  | .vending => none

/-- The line state lets a REFUSE and a RESULT be queued: LISTEN, ACTIVE or ISOLATED by SILENCE. -/
def Station.sendsAnswers (s : Station) : Prop :=
  s.line.state = .listen ∨ s.active = true ∨ s.line.state = .isolated .silence

/-- R27 to R29: the entries `removed`, taken from the queue of the station `u` by a condition, have been answered. To the peers
by frames in queue order, behind those that stood in the transmit queue and those that the event handed `before`, where the
line state sends them and the queue has room; where the line state sends none the queue is as it was. To the own customer by
the failure of his committed sale. -/
def RemovedAnswered (u t : Station) (before : List Frame) (r : Reason) (o : Outcome) (removed : List Entry) : Prop :=
  (u.sendsAnswers → u.line.queue.length + (before ++ removed.filterMap (removedFrame r o)).length ≤ 8 →
    u.line.queue ++ (before ++ removed.filterMap (removedFrame r o)) <+: t.line.queue) ∧
    (¬u.sendsAnswers → t.line.queue = u.line.queue) ∧
    ∀ e ∈ removed, ∀ tag, e.payer = some .loc → e.tag = some tag → e.state = .committed →
      u.answersOffer .loc tag = true → u.txn.state = .committed → SaleFailed u t

/-- R24: an entry that may be picked: COMMITTED, and not for a CHILLED spiral while cold-hold stands. -/
def mayBePicked (t : Station) (e : Entry) : Bool :=
  e.state = .committed && !((t.spiral e.position).zone = .chilled && t.cooling.coldHold)

/-- R24, R36: with no vend in flight the oldest entry of the queue `waiting` that may be picked has become VENDING, with a vend
of its own begun; the others keep their places. With none that may be picked nothing is in flight. -/
def Picked (waiting : List Entry) (t : Station) : Prop :=
  (∀ e, waiting.find? (mayBePicked t) = some e →
    t.queue = updateFirst (mayBePicked t) (fun f => { f with state := .vending }) waiting ∧
    ∃ v, t.vend = some v ∧ v.entry = { e with state := .vending } ∧ v.drops = 0 ∧ v.turnsUsed = 0 ∧ v.jams = 0) ∧
    (waiting.find? (mayBePicked t) = none → t.queue = waiting ∧ t.vend = none)

/-- R49, R27: the RESULT on the line for the vend of a customer that the door ends; a test vend goes on. -/
def interruptedFrame (v : Vend) : Option Frame :=
  if v.entry.test then none else resultFrame (if v.drops = 0 then .interrupted else .delivered) v.drops v.entry

/-! ### The end of a vend -/

/-- R5, R8: the end of the vend removes the other entries of its spiral. -/
def clearsQueue (o : Outcome) (left : Stock) (status : SpiralStatus) : Bool :=
  o = .empty || (status = .inService && statusAfter o left status != .inService)

/-- R5: the answers to the entries of peers that are removed with a spiral that is left in a status. -/
def removalAnswer (status : SpiralStatus) (e : Entry) : Option Frame :=
  if status = .soldOut then removedFrame .soldOut .soldOut e else removedFrame .jammed .jammed e

/-- R25, R5, R24, R48, R53: the vend `v` of the station `u` has ended with an outcome: it is recorded, its entry is gone and
answered, the entries removed with its spiral are answered, the oldest entry that may be picked has been, and the claim is
kept for that or let go. -/
def VendEnded (u t : Station) (v : Vend) (o : Outcome) : Prop :=
  VendRecorded u t v o ∧ FreshVend t ∧
    (positionInRange v.entry.position = true → v.entry.position - 10 < u.spirals.length →
      Picked ((removeFirst (fun e => e.state = .vending) u.queue).filter fun e =>
        !(clearsQueue o (stockAfter o v.drops (u.spiral v.entry.position).stock) (u.spiral v.entry.position).status &&
          e.position = v.entry.position)) t ∧
      (∀ e ∈ removeFirst (fun e => e.state = .vending) u.queue,
        ∀ f, removalAnswer (t.spiral v.entry.position).status e = some f → e.position = v.entry.position →
        clearsQueue o (stockAfter o v.drops (u.spiral v.entry.position).stock) (u.spiral v.entry.position).status = true →
        u.line.state = .listen ∨ u.active = true →
        u.line.queue.length + u.queue.length ≤ 7 → f ∈ t.line.queue)) ∧
    (v.entry.test = true → u.faults.doorOpen = true →
      t.panel.message = some (.testOutcome v.entry.position o v.drops)) ∧
    (∀ a tag, v.entry.test = false → v.entry.payer = some (.peer a) → v.entry.tag = some tag →
      u.line.state = .listen ∨ u.active = true → Queued u t a (.result tag o v.drops)) ∧
    (∀ tag, v.entry.test = false → v.entry.payer = some .loc → v.entry.tag = some tag →
      u.answersOffer .loc tag = true → u.txn.state = .committed →
      if o = .delivered then SaleTaken u t else SaleFailed u t) ∧
    (hasRequest u.power.requests .vendMotor = false ∨ u.power.vendMotor = none →
      (t.vend = none → t.power.vendMotor = none ∧
        (∀ r ∈ t.power.requests, r.cls = .vendMotor → r.withdrawn = true) ∧
        (u.power.vendMotor.isSome = true → u.line.state = .listen ∨ u.active = true →
          u.line.queue.length + u.queue.length ≤ 6 → ⟨0, .release .vendMotor, false⟩ ∈ t.line.queue)) ∧
      (t.vend ≠ none → ∀ f, u.power.vendMotor = some f → t.power.vendMotor = some f)) ∧
    (∀ r ∈ [Region.clock, .setup, .home, .chute, .tubes, .journal, .coinLink, .buffer, .service, .meters, .line, .peers,
      .door], r.same u t)

/-! ### The claim window -/

/-- R156, R157: the own standing sum, what the peers count and the watts of the request are within the bank budget. That a
station configured alone counts no peer (R165, R178), one that it nevertheless hears neither, is the model's reading
(notes/assumptions/45.md). -/
def Fits (t : Station) (r : Request) : Prop :=
  t.ownSum + (if t.cfg.stationCount = 1 then 0 else (t.peers.map fun p => p.counted t.cfg).sum) + watts r.power ≤
    t.cfg.bankBudget

/-- R155, R157: the request checked and left in a phase; its first check starts its waited time. -/
def Request.judged (r : Request) (phase : RequestPhase) : Request :=
  { r with checked := true, waited := if r.checked then r.waited else 0, phase := phase }

/-- R157: of the waiting requests of an ACTIVE station, those that the event has made READY among them, the free window has
been given to the READY ones in the order of rank and class, until the CLAIM of one is queued. `room` says that the transmit
queue could take it. A request that is not READY, or finds the window held, stays as it is. -/
def WindowGiven (requests : List Request) (room : Prop) (t : Station) : Prop :=
  ∀ r ∈ requests,
    (r.phase ≠ .ready ∨ windowHeld requests = true ∨
      (room ∧ ∃ q ∈ requests, q.phase = .ready ∧ q.betterThan r = true ∧ Fits t q) → t.requestOf r.cls = some r) ∧
    (r.phase = .ready → windowHeld requests = false →
      (¬room ∨ ∀ q ∈ requests, q.phase = .ready → q.betterThan r = true → ¬Fits t q) →
      (¬Fits t r → t.requestOf r.cls = some (r.judged .held)) ∧
      (Fits t r → room →
        t.requestOf r.cls = some { r.judged .sending with timer := 0 } ∧
        ⟨0, .claim r.cls r.rank r.power, true⟩ ∈ t.line.queue) ∧
      (Fits t r → ¬room → t.requestOf r.cls = some { r.judged .backoff with timer := 0, record := [] }))

/-- R158: an entry of the peer view that has become `q` counts less than `p` in a term, or is no longer SILENT. -/
def CountsLess (c : Settings) (p q : Peer) : Prop :=
  q.base < p.base ∨ q.vendMotor < p.vendMotor ∨ q.compressor < p.compressor ∨ q.heater < p.heater ∨
    q.counted c < p.counted c ∨ (p.presence = .silent ∧ q.presence ≠ .silent)

/-! ### ISOLATED -/

/-- R164, R166, R167, R174, R176, R179: ISOLATED has been entered with a cause from the station `u`: no claim is out, a frame
of the four kinds that was being sent is cut off, cause CLASH latches the clash, and where the own sum was above the allowance the heater was shed first and
then the compressor. -/
def EntersIsolated (u t : Station) (cause : Cause) : Prop :=
  t.line.state = .isolated cause ∧ t.line.probeTimer = 0 ∧ t.peers = u.peers ∧
    t.line.queue = (if cause = .silence then u.line.queue.filter (fun f => !f.body.onlyActive) else []) ∧
    t.line.sending = (decide (cause = .silence) && u.line.sending && !headOnlyActive u.line.queue) ∧
    t.line.declareDelay = (if cause = .silence then u.line.declareDelay else none) ∧
    t.line.clashLatched = (u.line.clashLatched || decide (cause = .clash)) ∧
    (∀ r ∈ t.power.requests, r.phase ≠ .sending ∧ r.phase ≠ .window) ∧
    (t.ownSum ≤ allowanceInForce t.cfg ∨ (t.power.heater = none ∧ t.power.compressor = none)) ∧
    (u.power.heater.isSome = true → u.cooling.phase = .heater → allowanceInForce u.cfg < u.ownSum →
      t.cooling.phase = .drip ∧ t.audit.defrosts = rise32 u.audit.defrosts 1) ∧
    (∀ f, u.power.compressor = some f → u.ownSum - slotWatts u.power.heater ≤ allowanceInForce u.cfg →
      hasRequest u.power.requests .compressor = false → t.power.compressor = some f) ∧
    (∀ r ∈ [Region.clock, .setup, .queue, .home, .spirals, .chute, .tubes, .journal, .coinLink, .payout, .txn, .buffer,
      .message, .service, .door], r.same u t)

/-- R192: the row of a service command. -/
def serviceRow : ServiceCommand → Instr
  | .ackAttention => .ackAttention
  | .ackHold => .ackHold
  | .fillTube tube count => .fillTube tube count
  | .emptyTube tube => .emptyTube tube
  | .clearTube tube => .clearTube tube
  | .refill => .refill
  | .clearSpiral position => .clearSpiral position
  | .testVend position => .testVend position
  | .manualDefrost => .manualDefrost
  | .clearCompressor => .clearCompressor
  | .forgetPeers => .forgetPeers
  | .restart => .restart
  | .showAudit item => .showAudit item

/-- R192: the command that the digits of a number and of its arguments spell, row by row. -/
def spelled (number arguments : List Nat) : Option ServiceCommand :=
  match number, arguments with
  | [0, 1], [] => some .ackAttention
  | [0, 2], [] => some .ackHold
  | [1, 0], [tube, a] => some (.fillTube tube a)
  | [1, 0], [tube, a, b] => some (.fillTube tube (10 * a + b))
  | [1, 0], [tube, a, b, c] => some (.fillTube tube (100 * a + 10 * b + c))
  | [1, 1], [tube] => some (.emptyTube tube)
  | [1, 2], [tube] => some (.clearTube tube)
  | [2, 0], [] => some .refill
  | [2, 1], [a, b] => some (.clearSpiral (10 * a + b))
  | [2, 2], [a, b] => some (.testVend (10 * a + b))
  | [3, 0], [] => some .manualDefrost
  | [3, 1], [] => some .clearCompressor
  | [4, 0], [] => some .forgetPeers
  | [5, 0], [] => some .restart
  | [6, 0], [a] => some (.showAudit a)
  | [6, 0], [a, b] => some (.showAudit (10 * a + b))
  | [6, 0], [a, b, c] => some (.showAudit (100 * a + 10 * b + c))
  | _, _ => none

/-- The command that a frame of the station is to the stations that hear it. -/
def commandOf (address : Nat) (f : Frame) : Instr :=
  match f.body with
  | .claim cls rank power => .claim address f.dst (classCode cls) rank power.value power.scale
  | .release cls => .release address f.dst (classCode cls)
  | .result tag outcome drops => .result address f.dst tag (outcomeCode outcome) drops
  | .commit tag price => .commit address f.dst tag price
  | .accept tag price queuePos => .accept address f.dst tag price queuePos
  | .refuse tag reason => .refuse address f.dst tag (reasonCode reason)
  | .offer tag tray column => .offer address f.dst tag tray column
  | .withdraw tag => .withdraw address f.dst tag
  | .declare fields => .declare address f.dst fields
  | .heartbeat fields => .heartbeat address f.dst fields
  | .audit block content => .audit address f.dst block content

/-- R192: a service command taken with its result shown: the entry is empty and the display shows DONE. -/
def Done (t : Station) : Prop := t.service = ServiceEntry.blank ∧ t.panel.message = some .done

/-- R192: a service command refused: the entry is empty, a message is shown, and nothing else has changed. -/
def RefusedWith (m : Message) (s t : Station) : Prop :=
  t.service = ServiceEntry.blank ∧ t.panel.message = some m ∧ KeepsBut [.service, .message] s t

end Sys2Proof.Machine
end

