-- ==== Sys2Proof/Certificates/Slice0/Obligations.lean ====
section
/-! DEFINITION. The statements for the provers. `s` is the machine's state before a command, `u` the station when a timer
expires (time has passed to its expiry), `t` the station after the event. -/

open Sys2Proof Sys2Proof.Machine

/-! ### Steps, starts, the halt -/

/-- A step runs the command at the front of the queue, on the state with the queue's rest. -/
def Obligations.StepRunsTheFrontCommand : Prop :=
  ∀ (c : Instr) (rest : List Instr) (s : State), s.pending = c :: rest → step s = exec c (s.withPending rest)

/-- No command faults or is refused, and none touches the commands that wait behind it. -/
def Obligations.EveryCommandAnswersNext : Prop :=
  ∀ (c : Instr) (s : State), ∃ t, exec c s = .next t ∧ t.pending = s.pending

/-- With no command waiting a millisecond passes (the model's choice, notes/assumptions/1.md): the clock moves, records and
money stay, the phase timer of a vend, the answer timer, and the inactivity timer in CREDIT with the door closed, in OFFLINE
too, count up to their lengths (where they stand still: the model's choice, notes/assumptions/14.md), and in HALTED no timer
runs. -/
def Obligations.IdleStepLetsTimePass : Prop :=
  ∀ s : State, s.pending = [] →
    ∃ t, step s = .next t ∧ t.mem = s.mem ∧ t.saveWrite = s.saveWrite ∧ t.pending = [] ∧
      t.station.now = s.station.now + 1 ∧
      (∀ r ∈ [Region.setup, .spirals, .home, .tubes, .journal, .counters], r.same s.station t.station) ∧
      t.station.txn.credit = s.station.txn.credit ∧ t.station.txn.escrow = s.station.txn.escrow ∧
      t.station.queue.length = s.station.queue.length ∧
      (∀ v, s.station.vend = some v → s.station.line.state ≠ .halted →
        s.station.loadsSettled = true ∨ v.phase ≠ .claiming →
        ∃ w, t.station.vend = some w ∧ w.timer = min (phaseLength v.phase) (v.timer + 1) ∧ w.phase = v.phase ∧
          w.entry = v.entry ∧ w.turnsUsed = v.turnsUsed ∧ w.jams = v.jams ∧ w.drops = v.drops) ∧
      (s.station.line.state ≠ .halted → s.station.txn.state = .asking → s.station.txn.peerOwner = true →
        t.station.txn.answerTimer = min 300 (s.station.txn.answerTimer + 1)) ∧
      (s.station.line.state ≠ .halted → s.station.txn.state = .credit → s.station.faults.doorOpen = false →
        t.station.txn.inactivityTimer =
          min (1000 * s.station.cfg.inactivitySec) (s.station.txn.inactivityTimer + 1)) ∧
      (s.station.line.state = .halted → KeepsBut [.clock] s.station t.station)

/-- The machine right after the reset event of a power-on (R56, R59, R93, R125, R127, R168, R177, R197, R201): line
OFFLINE, queues empty, no load standing, outputs off, an INHIBIT of every coin type on its way. The invariants that every
step keeps hold there. That a run begins there, with a memory that lists nothing and with blank records that the first load
event replaces, is the model's choice (notes/assumptions/5.md, 6.md, 30.md). -/
def Obligations.ResetIsTheResetEventOfAColdStart : Prop :=
  State.reset.pending = [] ∧ State.reset.mem = [] ∧ State.reset.saveWrite = none ∧ Memory.wf State.reset.mem = true ∧
    Settled State.reset.station ∧ HeatOrCool State.reset.station ∧ Bounded State.reset.station ∧
    QueueLaw State.reset.station ∧ LoadLaw State.reset.station ∧ MoneyLaw State.reset.station ∧
    IsolatedLaw State.reset.station ∧ ClashLaw State.reset.station ∧
    State.reset.station.start = .readingCold ∧ State.reset.station.line.state = .offline ∧
    State.reset.station.line.queue = [] ∧ State.reset.station.line.errors = 0 ∧ State.reset.station.peers = [] ∧
    State.reset.station.power = ⟨none, none, none, []⟩ ∧ State.reset.station.queue = [] ∧
    State.reset.station.vend = none ∧ State.reset.station.payout.state = .idle ∧
    State.reset.station.panel.buffer = none ∧ State.reset.station.panel.message = none ∧
    State.reset.station.cooling.compressor = .off ∧ State.reset.station.faults.active = none ∧
    State.reset.station.faults.pendingNotice = none ∧ State.reset.station.pins = Pins.off ∧
    State.reset.station.coin.onTransmitter = some (.inhibit (List.range 16))

/-- The configuration memory keeps its canonical form in every step: addresses rising, and no byte listed that is 0, which
an unlisted one reads as (the model's choice, notes/assumptions/6.md). -/
def Obligations.StepKeepsMemoryCanonical : Prop :=
  ∀ s t : State, Memory.wf s.mem = true → step s = .next t → Memory.wf t.mem = true

/-- After every step the outputs, the lamp, the coin masks, the exact-change indicator (R91), the conditions and the
alternation are those the records call for. The model's readings in it: a set counts as sent when it is handed to the
transmitter (notes/assumptions/9.md), BTX holds the whole frame being sent (27.md), and conditions and lamp before the load
event and in OFFLINE (32.md). -/
def Obligations.StepKeepsStationSettled : Prop :=
  ∀ s t : State, Settled s.station → step s = .next t → Settled t.station

/-- No step lets the vend queue grow above 4, the transmit queue above 8, the journal above 32, the credit above 65535 or
an estimate above 250; an estimate is not above the low mark while the low sensor is asserted (R66); a notice is pending
only behind an active one (R188). Every step keeps the queue's law (R4, R16, R20): one entry for a payer and tag, the vend
in flight the one VENDING entry's, no spiral of known stock named by more entries than it holds. -/
def Obligations.StepKeepsBuffersBounded : Prop :=
  (∀ s t : State, Bounded s.station → step s = .next t → Bounded t.station) ∧
  ∀ s t : State, QueueLaw s.station → step s = .next t → QueueLaw t.station

/-- The melting phases and DRIP stay within compressor state DEFROST, and CMP and DFH are never on together. A load runs
exactly while its slot stands: no motor, compressor or heater without a standing claim (R33, R134, R144). In ISOLATED the
own sum stays within the allowance in force, and a claim is out only while ACTIVE (R164 to R167). An address clash is latched
wherever it has isolated the station, and besides only in HALTED (R176, R177). -/
def Obligations.StepNeverHeatsAndCools : Prop :=
  (∀ s t : State, HeatOrCool s.station → step s = .next t → HeatOrCool t.station) ∧
  (∀ s t : State, LoadLaw s.station → step s = .next t → LoadLaw t.station) ∧
  (∀ s t : State, IsolatedLaw s.station → step s = .next t → IsolatedLaw t.station) ∧
  ∀ s t : State, ClashLaw s.station → step s = .next t → ClashLaw t.station

/-- Only starts, load events and the saved-block write reach the configuration memory; only the halt begins a write. -/
def Obligations.OtherCommandsKeepTheMemory : Prop :=
  ∀ (c : Instr) (s t : State), c ≠ .powerOn → c ≠ .resetInput → (∀ inp, c ≠ .loadEvent inp) →
    (∀ b, c ≠ .savedBlockWritten b) → exec c s = .next t →
    t.mem = s.mem ∧ (c ≠ .powerFailWarning → t.saveWrite = s.saveWrite)

/-- R203: while HALTED nothing but a reset, a power-on and the end of the write has an effect, and every output stays off.
TRANSMITTER_FREE is left out: it ends the INHIBIT sent at the halt (R79). -/
def Obligations.HaltedTakesOnlyReset : Prop :=
  ∀ (c : Instr) (s : State), AtHalt s.station → c ≠ .powerOn → c ≠ .resetInput → c ≠ .transmitterFree →
    (∀ b, c ≠ .savedBlockWritten b) →
    Gives c s fun t => KeepsBut [] s.station t ∧ AtHalt t

/-- R201: POWER_ON, and RESET_INPUT while HALTED or before a cold start's load event, leave the machine as right after
reset. The clock of the model and the parked spirals stay, blank settings are held, and timers not started yet stand at 0 (the
model's choices, notes/assumptions/8.md, 30.md), a message for the validator that was being sent or waited is dropped for the INHIBIT of the
start (42.md), and a write in progress is cut off, in the bytes of notes/assumptions/7.md. -/
def Obligations.ColdStartResets : Prop :=
  ∀ (c : Instr) (s : State),
    c = .powerOn ∨ (c = .resetInput ∧ (s.station.line.state = .halted ∨ s.station.start = .readingCold)) →
    exec c s = .next { State.reset with
      station := { Station.reset with now := s.station.now, homeOpen := s.station.homeOpen },
      mem := cutWrite s.mem s.saveWrite, pending := s.pending }

/-- R202, R125, R106, R78, R152, R168, R177, R197: a warm restart, by the RESET input, by RESTART in service mode, and by
RESTART in OFFLINE after an invalid image with the door open (the model's choice, notes/assumptions/25.md). Every block is
cleared as its own rule gives: the credit takes the escrow and the unpaid rest of a payout, and a COMMITTED sale is in
doubt. The model's choices besides: the message shown is blanked (notes/assumptions/23.md), the hold timer keeps whole
seconds (14.md), the sensors are blank from the reset event on (36.md), demand and fixed duty are cleared there (48.md), an
INHIBIT that waits counts as the last set sent (9.md), the lamp is off in OFFLINE (32.md), the inactivity timer starts there
and again in the load event (47.md), the empty payout record holds attempt 1 (39.md), and the line's timers and the answer
and result timers stand at 0 (30.md, 44.md). The record of the money is stated of a state that R109 allows: escrow only
while COMMITTED. -/
def Obligations.WarmRestartClearsTheStation : Prop :=
  ∀ (c : Instr) (s : State) (credit total : Nat),
    (c = .resetInput ∧ s.station.line.state ≠ .halted ∧ s.station.start ≠ .readingCold) ∨
      (c = .restart ∧ (s.station.serviceMode = true ∨
        (s.station.configInvalid = true ∧ s.station.line.state = .offline ∧ s.station.faults.doorOpen = true))) →
    total = s.station.txn.credit + s.station.txn.escrow + (s.station.payout.amount - s.station.payout.paid) →
    credit = min 65535 total →
    Gives c s fun t =>
      t.start = .readingWarm ∧ t.configInvalid = false ∧ t.line = Line.blank ∧ t.peers = [] ∧ t.queue = [] ∧
      t.vend = none ∧ t.power = Power.blank ∧ t.panel = Panel.blank ∧ t.service = ServiceEntry.blank ∧
      t.payout = Payout.blank ∧ t.pins = Pins.off ∧ t.exactLit = false ∧
      t.chute = { Chute.blank with blocked := s.station.chute.blocked } ∧
      t.cfg = s.station.cfg ∧ t.built = s.station.built ∧ t.seqCount = s.station.seqCount ∧
      (∀ r ∈ [Region.clock, .spirals, .home, .tubes, .journal, .door, .latch], r.same s.station t) ∧
      (t.cooling.compressor = .off ∧ t.cooling.phase = .none ∧ t.cooling.defrostRequest = false ∧
        t.cooling.latchedHeld = s.station.cooling.isLatched ∧ t.cooling.coldHold = s.station.cooling.coldHold ∧
        t.cooling.holdTimer = 1000 * (s.station.cooling.holdTimer / 1000) ∧
        t.cooling.runAccumulator = s.station.cooling.runAccumulator ∧
        t.cooling.doorCounter = s.station.cooling.doorCounter ∧ t.cooling.tripTimes = s.station.cooling.tripTimes ∧
        t.cooling.demand = false ∧ t.cooling.duty = none ∧ t.cooling.iceTimer = 0 ∧ t.cooling.air = Sensor.blank ∧
        t.cooling.coil = Sensor.blank ∧ t.cooling.cond = Sensor.blank) ∧
      (t.coin.faultStands = false ∧ t.coin.faultCode = none ∧ t.coin.statusTimer = 0 ∧
        t.coin.lastInhibit = allCoinTypes ∧
        (s.station.coin.onTransmitter = none → t.coin.onTransmitter = some (.inhibit allCoinTypes)) ∧
        (s.station.coin.onTransmitter ≠ none → t.coin.waitingInhibit = some allCoinTypes)) ∧
      (∀ k ∈ s.station.faults.noticed, k ∈ t.faults.noticed) ∧ t.faults.lamp = .off ∧
      ((s.station.txn.state ≠ .committed → s.station.txn.escrow = 0) →
        t.txn = { Txn.blank with
          credit := credit, state := restingState credit, lastTag := s.station.txn.lastTag,
          shownPosition := s.station.txn.shownPosition } ∧
        t.audit = { s.station.audit with
          forfeitedValue := rise32 s.station.audit.forfeitedValue (total - credit),
          inDoubt := if s.station.txn.state = .committed then rise32 s.station.audit.inDoubt 1
            else s.station.audit.inDoubt })

/-- R198: an image that cannot be read or is not valid leaves the station OFFLINE with nothing else changed. With no start
in progress there is no load event (the model's choice, notes/assumptions/3.md). -/
def Obligations.InvalidImageLeavesTheStationOffline : Prop :=
  (∀ (inp : LoadInputs) (s : State), s.station.start = .none → exec (.loadEvent inp) s = .next s) ∧
  ∀ (inp : LoadInputs) (s : State) (mem : Memory), s.station.start ≠ .none → mem = Memory.writeCells s.mem inp.programmed →
    inp.imageAck = false ∨ imageValid (Memory.readFrom mem 0 380) = false →
    ∃ t, exec (.loadEvent inp) s = .next t ∧ t.mem = mem ∧ t.saveWrite = s.saveWrite ∧ t.pending = s.pending ∧
      KeepsBut [.setup] s.station t.station ∧ t.station.start = .none ∧ t.station.configInvalid = true ∧
      (s.station.line.state = .offline → t.station.line.state = .offline) ∧
      t.station.cfg = s.station.cfg ∧ t.station.built = s.station.built

/-- R198, R201, R202, R177, R178: a valid image becomes the settings, the line enters LISTEN with a DECLARE queued, and the
working state is the saved block's where the start reads it, else what stands, each clamped to the settings (R12, R77, R110,
R152). The model's choices: which starts read the block (notes/assumptions/11.md), the credit of a VEND-ONLY station
(19.md), the tubes that are not fitted (37.md), RUN-TIME met at the load event by a re-read interval (34.md), the inactivity
timer started in the load event of a warm restart too (47.md), the hold timer limited to the hold delay and the waiting
messages of a VEND-ONLY station dropped (36.md). -/
def Obligations.ValidImageIsTakenAndLineListens : Prop :=
  ∀ (inp : LoadInputs) (s : State) (mem : Memory) (cfg : Settings) (v : Saved),
    s.station.start ≠ .none → mem = Memory.writeCells s.mem inp.programmed → inp.imageAck = true →
    imageValid (Memory.readFrom mem 0 380) = true → cfg = settingsOf (Memory.readFrom mem 0 380) →
    v = (readBlock mem inp.blockAck).getD saveLost →
    ∃ t, exec (.loadEvent inp) s = .next t ∧ t.mem = mem ∧ t.saveWrite = s.saveWrite ∧ t.pending = s.pending ∧
      t.station.cfg = cfg ∧ t.station.start = .none ∧ t.station.built = true ∧ t.station.line.state = .listen ∧
      t.station.line.heartbeatTimer = 0 ∧ t.station.line.declareTimer = 0 ∧ t.station.line.listenTimer = 0 ∧
      t.station.line.errors = 0 ∧ t.station.line.heard = false ∧
      Queued s.station t.station 0 (.declare t.station.declareFields) ∧
      t.station.chute = { Chute.blank with blocked := inp.beamBlocked } ∧ t.station.coin.statusTimer = 0 ∧
      (isPayment cfg = true →
        t.station.coin.lastInhibit = t.station.inhibitSet ∧ t.station.coin.lastRoute = t.station.routeSet) ∧
      (isPayment cfg = false → t.station.coin.waitingInhibit = none ∧ t.station.coin.waitingRoute = none) ∧
      (s.station.readsBlock = true →
        t.station.seqCount = v.seqCount ∧ t.station.spirals = configureSpirals cfg v.spirals ∧
        t.station.coin.tubes = configureTubes cfg inp.tubeLow inp.tubeFull (restoredTubes cfg v.tubes) ∧
        t.station.coin.journal = v.journal ∧ t.station.coin.overrun = v.overrun ∧
        t.station.txn = startTxn cfg 15 v.credit ∧
        t.station.audit.owned = v.audit.owned ∧ t.station.faults.doorOpen = inp.doorOpen ∧
        t.station.cooling.coldHold = (v.coldHold && cfg.coolingFitted) ∧
        t.station.cooling.holdTimer = startHold cfg v.coldHold v.holdTimer ∧
        t.station.cooling.compressor =
          (if cfg.coolingFitted then (if v.latched then .latched else .rest) else .off) ∧
        t.station.faults.active = (if readBlock mem inp.blockAck = none then some .saveLost else none) ∧
        t.station.faults.pendingNotice = none) ∧
      (s.station.readsBlock = false →
        t.station.seqCount = s.station.seqCount ∧ t.station.spirals = configureSpirals cfg s.station.spirals ∧
        t.station.coin.tubes = configureTubes cfg inp.tubeLow inp.tubeFull s.station.coin.tubes ∧
        t.station.txn = startTxn cfg s.station.txn.lastTag s.station.txn.credit ∧
        (∀ r ∈ [Region.journal, .door, .latch, .counters], r.same s.station t.station) ∧
        t.station.cooling.coldHold = (s.station.cooling.coldHold && cfg.coolingFitted) ∧
        t.station.cooling.holdTimer = startHold cfg s.station.cooling.coldHold s.station.cooling.holdTimer ∧
        (cfg.coolingFitted = false → t.station.cooling.compressor = s.station.cooling.compressor) ∧
        (cfg.coolingFitted = true →
          (s.station.cooling.runTimeTaken = true ∨
            s.station.cooling.runAccumulator < 3600000 * cfg.cooling.intervalHours) →
          (s.station.cooling.doorCounter < cfg.cooling.doorLimit ∨
            s.station.cfg.cooling.doorLimit ≤ s.station.cooling.doorCounter) →
          t.station.cooling.compressor = (if s.station.cooling.latchedHeld then .latched else .rest)) ∧
        (cfg.coolingFitted = true → cfg.cooling.causeRunTime = true → s.station.cooling.runTimeTaken = false →
          3600000 * cfg.cooling.intervalHours ≤ s.station.cooling.runAccumulator →
          t.station.cooling.defrostRequest = true ∨ t.station.cooling.compressor = .defrost))

/-- R200, R203, R51, R126, R105, R47, R59, R79, R186: the power-fail warning halts the station, switches every output off,
and begins the write of the saved block when working state has been built. A vend in flight ends DELIVERED or INTERRUPTED. A
COMMITTED LOCAL sale whose drop was seen is taken; any other COMMITTED sale gives its escrow back, in doubt, a LOCAL one
without a drop too (the model's reading, notes/assumptions/33.md); the unpaid rest of a payout goes to credit. The INHIBIT
of every type is sent, or waits for the transmitter, but at a station that its load event has shown to be VEND-ONLY (after
an invalid image by the settings still held: the model's choice, notes/assumptions/42.md). The conditions follow what the
halt leaves (the model's reading, notes/assumptions/32.md), `isolated` among them; an address clash stays latched and stands
on (R176). That the timers of the cleared records hold 0 (44.md), the error count 0 and the record of a peer heard no
(46.md), and the payout record attempt 1 (39.md) is the model's choice. A further warning is no event. -/
def Obligations.PowerFailWarningHalts : Prop :=
  (∀ s : State, s.station.line.state = .halted → exec .powerFailWarning s = .next s) ∧
  ∀ (s : State) (rest : Nat), s.station.line.state ≠ .halted →
    rest = s.station.payout.amount - s.station.payout.paid →
    ∃ t, exec .powerFailWarning s = .next t ∧ t.mem = s.mem ∧ t.pending = s.pending ∧
      AtHalt t.station ∧ t.station.peers = s.station.peers ∧
      t.station.line.clashLatched = s.station.line.clashLatched ∧
      t.station.coin.tubes = s.station.coin.tubes ∧ t.station.coin.journal = s.station.coin.journal ∧
      t.station.coin.overrun = s.station.coin.overrun ∧ t.station.coin.lastRoute = s.station.coin.lastRoute ∧
      (s.station.cfg.role = .payment ∨ s.station.start ≠ .none ∨ s.station.built = false →
        t.station.coin.lastInhibit = List.range 16 ∧
        (s.station.coin.onTransmitter = none → t.station.coin.onTransmitter = some (.inhibit (List.range 16))) ∧
        (s.station.coin.onTransmitter ≠ none → t.station.coin.waitingInhibit = some (List.range 16))) ∧
      (s.station.cfg.role ≠ .payment → s.station.start = .none → s.station.built = true →
        t.station.coin = s.station.coin) ∧
      (s.station.built = true → t.station.faults.standing = allConditions.filter t.station.holds ∧
        Condition.isolated ∉ t.station.faults.standing ∧
        (Condition.addressClash ∈ t.station.faults.standing ↔ s.station.line.clashLatched = true) ∧
        (Condition.noSpiralAvailable ∈ t.station.faults.standing ↔ t.station.anyAvailable = false)) ∧
      (s.station.built = true →
        t.saveWrite = some (savedBlock t.station) ∧ t.station.seqCount = (s.station.seqCount + 1) % 65536) ∧
      (s.station.built = false → t.saveWrite = s.saveWrite ∧ t.station.seqCount = s.station.seqCount) ∧
      (∀ v, s.station.vend = some v →
        VendRecorded s.station t.station v (if v.drops = 0 then .interrupted else .delivered)) ∧
      t.station.txn.offer = none ∧ t.station.txn.state = restingState t.station.txn.credit ∧
      t.station.txn.returnRequested = false ∧
      (∀ v tag, s.station.vend = some v → v.entry.payer = some .loc → v.entry.tag = some tag → v.drops ≠ 0 →
        s.station.txn.state = .committed → s.station.answersOffer .loc tag = true →
        t.station.txn.credit = min 65535 (s.station.txn.credit + rest) ∧ t.station.txn.escrow = 0 ∧
        t.station.audit.salesCount = rise32 s.station.audit.salesCount 1 ∧
        t.station.audit.salesValue = rise32 s.station.audit.salesValue s.station.txn.escrow ∧
        t.station.audit.inDoubt = s.station.audit.inDoubt) ∧
      (s.station.txn.state = .committed →
        (∀ v tag, s.station.vend = some v → v.entry.payer = some .loc → v.entry.tag = some tag →
          s.station.answersOffer .loc tag = true → v.drops = 0) →
        t.station.txn.credit = min 65535 (s.station.txn.credit + s.station.txn.escrow + rest) ∧
        t.station.txn.escrow = 0 ∧ t.station.audit.salesCount = s.station.audit.salesCount ∧
        t.station.audit.salesValue = s.station.audit.salesValue ∧
        t.station.audit.inDoubt = rise32 s.station.audit.inDoubt 1) ∧
      (s.station.txn.state ≠ .committed → s.station.txn.escrow = 0 →
        t.station.txn.credit = min 65535 (s.station.txn.credit + rest) ∧ t.station.txn.escrow = 0 ∧
        t.station.audit.salesCount = s.station.audit.salesCount ∧
        t.station.audit.salesValue = s.station.audit.salesValue ∧
        t.station.audit.inDoubt = s.station.audit.inDoubt)

/-- R200: the write ends with the block in the memory from address 512, or is abandoned and leaves a block whose check
word does not agree (the bytes are the model's choice, notes/assumptions/7.md); no other byte changes. With no write in
progress nothing happens (the model's choice, notes/assumptions/3.md). -/
def Obligations.SavedBlockWriteEnds : Prop :=
  (∀ (complete : Bool) (s : State), s.saveWrite = none → exec (.savedBlockWritten complete) s = .next s) ∧
  ∀ (complete : Bool) (block : List Byte) (s : State), s.saveWrite = some block → Memory.wf s.mem = true →
    ∃ t, exec (.savedBlockWritten complete) s = .next t ∧ t.station = s.station ∧ t.pending = s.pending ∧
      t.saveWrite = none ∧
      (∀ a, a < 512 ∨ 512 + block.length ≤ a → Memory.read t.mem a = Memory.read s.mem a) ∧
      (complete = true → Memory.readFrom t.mem 512 block.length = block) ∧
      (complete = false → block.length = 718 → blockCheckOk block = true →
        blockCheckOk (Memory.readFrom t.mem 512 718) = false)

/-! ### The door -/

/-- R190, R27, R49, R24, R102, R140: the door opens: a sale in flight ends DELIVERED or INTERRUPTED, a payout stops, and the
buffer is cleared. Under the queue's law only test entries are left in the queue: the entries that await their COMMIT are
answered REFUSE SERVICE and the customers' committed ones RESULT SERVICE with 0 drops, in queue order behind the RESULT of
the sale in flight, the COMMITTED test entries stay, and the oldest of them that cold-hold does not withhold is picked unless a
test vend is in flight, which goes on. With cooling fitted the door counter rises, and its reaching the limit is a cause of the set DOOR-COUNT that makes
a defrost request, in every compressor state (also while the controller is OFF: the model's reading,
notes/assumptions/26.md). That a message shown is cleared as well is the model's choice (notes/assumptions/23.md). A level
not held for 100 ms is no change (given as an operand: the model's reading, notes/assumptions/13.md). -/
def Obligations.DoorOpeningStopsSales : Prop :=
  (∀ (s : State) (u : Station) (held : Nat), s.station.doorRead = true → s.station.faults.doorOpen = false → 100 ≤ held →
    u = { s.station with faults := { s.station.faults with doorOpen := true, doorTimer := 0 } } →
    Gives (.doorOpens held) s fun t =>
      t.faults.doorOpen = true ∧ t.faults.doorTimer = 0 ∧
      (∀ e ∈ t.queue, e.test = true ∨ e.state = .vending) ∧
      (QueueLaw s.station →
        (∀ e ∈ t.queue, e.test = true) ∧
        RemovedAnswered u t (u.vend.bind interruptedFrame).toList .service .service
          (u.queue.filter fun e => e.state = .awaitCommit || (e.state = .committed && !e.test)) ∧
        ((∀ v, u.vend = some v → v.entry.test = false) →
          Picked (u.queue.filter fun e => e.state = .committed && e.test) t) ∧
        (∀ v, u.vend = some v → v.entry.test = true →
          t.queue = (u.queue.filter fun e => e.state = .vending || (e.state = .committed && e.test)) ∧
          (t.vend.map fun w => w.entry) = some v.entry) ∧
        (∀ v tag, u.vend = some v → v.entry.test = false → v.entry.payer = some .loc → v.entry.tag = some tag →
          u.answersOffer .loc tag = true → u.txn.state = .committed →
          if v.drops = 0 then SaleFailed u t else SaleTaken u t)) ∧ t.panel.buffer = none ∧ t.panel.message = none ∧
      (s.station.payout.state = .running →
        t.payout.stop = .door ∧ (s.station.payout.phase ≠ .pulse → t.payout.state = .stopped)) ∧
      (∀ v, s.station.vend = some v → v.entry.test = false → FreshVend t ∧
        t.audit.outcomes =
          countedOutcome s.station.audit.outcomes (if v.drops = 0 then .interrupted else .delivered) ∧
        (QueueLaw s.station →
          VendRecorded s.station t v (if v.drops = 0 then .interrupted else .delivered))) ∧
      (s.station.cfg.coolingFitted = false → Region.same .meters s.station t) ∧
      (s.station.cfg.coolingFitted = true →
        t.cooling.doorCounter = min 255 (s.station.cooling.doorCounter + 1) ∧
        (s.station.cfg.cooling.causeDoorCount = true → s.station.cooling.defrostFree = true →
          s.station.cooling.doorCounter < s.station.cfg.cooling.doorLimit →
          s.station.cfg.cooling.doorLimit ≤ t.cooling.doorCounter →
          t.cooling.defrostRequest = true ∨ t.cooling.compressor = .defrost) ∧
        (s.station.cfg.cooling.causeDoorCount = false ∨ s.station.cooling.defrostFree = false ∨
            s.station.cfg.cooling.doorLimit ≤ s.station.cooling.doorCounter ∨
            t.cooling.doorCounter < s.station.cfg.cooling.doorLimit →
          t.cooling.defrostRequest = s.station.cooling.defrostRequest)) ∧
      (∀ r ∈ [Region.clock, .setup, .home, .chute, .tubes, .journal, .coinLink, .service, .line, .peers], r.same s.station t)) ∧
  ∀ (s : State) (held : Nat), held < 100 → Gives (.doorOpens held) s fun t => KeepsBut [] s.station t

/-- R190, R191, R121, R24, R104, R95, R101: the door closes: service entry and displays end, the inactivity timer starts,
and with no vend in flight a waiting test entry is picked. A stopped payout goes on in that event: with the tubes not
changed it keeps plan, amount, paid and attempt (1 while STOPPED, R102); with the tubes changed its unpaid rest is planned
anew with attempt 1, and an empty plan ends it. Its coin is begun from the tube that R95 gives, or waits for a pulse still
running. A payout that is not stopped keeps its record, with a stop pending cancelled. That a message shown ends is the
model's choice (notes/assumptions/23.md), and so is attempt 1 while a resumed payout waits for a pulse still running
(39.md). A level not held for 100 ms is no change (notes/assumptions/13.md). -/
def Obligations.DoorClosingEndsService : Prop :=
  (∀ (s : State) (held : Nat) (p : Payout), s.station.doorRead = true → s.station.faults.doorOpen = true → 100 ≤ held →
    p = s.station.payout →
    Gives (.doorCloses held) s fun t =>
      t.faults.doorOpen = false ∧ t.faults.doorTimer = 0 ∧ t.faults.doorLeftOpen = false ∧
      t.service = ServiceEntry.blank ∧ t.panel.message = none ∧ t.txn.inactivityTimer = 0 ∧ t.payout.stop = .none ∧
      t.payout.state ≠ .stopped ∧
      (s.station.vend = none → Picked s.station.queue t) ∧ (s.station.vend ≠ none → t.queue = s.station.queue) ∧
      (p.state ≠ .stopped →
        t.payout = { p with stop := .none } ∧ t.txn = { s.station.txn with inactivityTimer := 0 }) ∧
      (p.state = .stopped → p.tubesChanged = false →
        PayoutResumed t p p.plan p.attempt ∧ t.txn = { s.station.txn with inactivityTimer := 0 } ∧
        (∀ on, p.pulseOn = some on → t.payout = { p with state := .running, stop := .none }) ∧
        (∀ run tube, p.pulseOn = none → currentRun p.plan = some run → p.currentTube = some tube →
          CoinBegun t ∧ (p.attempt = 1 → t.payout.currentTube = some (stepTube s.station run tube)))) ∧
      (p.state = .stopped → p.tubesChanged = true →
        (payoutPlan s.station.coin.tubes (p.amount - p.paid) = [] → PayoutEnded s.station t (p.amount - p.paid)) ∧
        (payoutPlan s.station.coin.tubes (p.amount - p.paid) ≠ [] →
          PayoutResumed t p (payoutPlan s.station.coin.tubes (p.amount - p.paid)) 1 ∧
          t.txn = { s.station.txn with inactivityTimer := 0 } ∧
          (∀ on, p.pulseOn = some on →
            t.payout.phase = .none ∧ t.payout.pulseOn = some on ∧ t.payout.pulseTimer = p.pulseTimer) ∧
          (p.pulseOn = none → CoinBegun t ∧
            ∀ run, currentRun t.payout.plan = some run → t.payout.currentTube = runStartTube s.station run))) ∧
      (∀ r ∈ [Region.clock, .setup, .spirals, .home, .chute, .tubes, .journal, .coinLink, .buffer, .line, .peers],
        r.same s.station t)) ∧
  ∀ (s : State) (held : Nat), held < 100 → Gives (.doorCloses held) s fun t => KeepsBut [] s.station t

/-! ### The vend cycle (03) -/

/-- R37, R40, R43, R39, R47, R25, R24: the timers and checks that end a vend, with what that leaves (`VendEnded`): its
record, its answer, and the pick of the oldest COMMITTED entry that cold-hold does not withhold (`Picked`). A short or an
open circuit is found by the assessments of R34: a reading above the short threshold in the first 50 ms of an energising, or
none at the open threshold or above in the first 100 ms of a forward one. Without a finding only time has passed. Which
assessments those are, the first 50 and the first 100, and that the current counts as 0 before the first reading of an
energising, is the model's choice (notes/assumptions/28.md). -/
def Obligations.VendEndsByItsTimersAndChecks : Prop :=
  (∀ (c : Instr) (s : State) (v : Vend) (o : Outcome) (d : Nat) (u : Station),
    s.station.vend = some v → endsVend c v = some (o, d) → u = s.station.advance d →
    Gives c s fun t => VendEnded u t v o) ∧
  (∀ (s : State) (v : Vend) (currents : List Nat) (u : Station), s.station.vend = some v →
    (motorSense v).isSome = true → s.station.line.state ≠ .halted → u = s.station.assess currents →
    Gives (.shortCheck currents) s fun t =>
      (v.shorted = true ∨ ReadsShort s.station.cfg v currents → VendEnded u t v .motorFault) ∧
      (v.shorted = false → ¬ReadsShort s.station.cfg v currents → KeepsBut [] u t)) ∧
  ∀ (s : State) (v : Vend) (currents : List Nat) (u : Station), s.station.vend = some v →
    s.station.line.state ≠ .halted → u = s.station.assess currents →
    Gives (.openCheck currents) s fun t =>
      (motorSense v = some .forward → v.low = true → ¬ReadsCurrent s.station.cfg v currents →
        100 ≤ v.onTime + currents.length → VendEnded u t v .motorFault) ∧
      (motorSense v ≠ some .forward ∨ v.low = false ∨ ReadsCurrent s.station.cfg v currents ∨
        v.onTime + currents.length < 100 → KeepsBut [] u t)

/-- R35, R40, R43, R46: HOME opens and closes at the energised motor, its level held for 10 ms; held for less it is no change
(the operand: the model's reading, notes/assumptions/13.md). Opening in STARTING turns the vend to TURNING; closing in
TURNING ends a revolution: SETTLING when the delivery guarantee is on and no drop was seen, else DELIVERED. In other phases
only the level is kept, one for each spiral (the model's choice, notes/assumptions/8.md). -/
def Obligations.HomeLevelsDriveTheVend : Prop :=
  (∀ (s : State) (v : Vend) (held : Nat), s.station.vend = some v → (motorSense v).isSome = true → 10 ≤ held →
    Gives (.homeOpens held) s fun t =>
      t.homeOpen = updateAt s.station.homeOpen (v.entry.position - 10) (fun _ => true) ∧
      t.vend = some (if v.phase = .starting then { v with phase := .turning, timer := 0 } else v) ∧
      KeepsBut [.home, .vend] s.station t) ∧
  (∀ (s : State) (v : Vend) (held : Nat), s.station.vend = some v → (motorSense v).isSome = true → 10 ≤ held →
    Gives (.homeCloses held) s fun t =>
      t.homeOpen = updateAt s.station.homeOpen (v.entry.position - 10) (fun _ => false) ∧
      (v.phase ≠ .turning → t.vend = some v ∧ KeepsBut [.home, .vend] s.station t) ∧
      (v.phase = .turning → v.drops = 0 → s.station.cfg.guarantee = true →
        t.vend = some { v with phase := .settling, turnsUsed := v.turnsUsed + 1, timer := 0 } ∧
        KeepsBut [.home, .vend] s.station t) ∧
      (v.phase = .turning → v.drops ≠ 0 ∨ s.station.cfg.guarantee = false →
        VendEnded (s.station.setHome v false) t v .delivered)) ∧
  ∀ (c : Instr) (s : State) (held : Nat), c = .homeOpens held ∨ c = .homeCloses held → held < 10 →
    Gives c s fun t => KeepsBut [] s.station t

/-- R41, R42, R44, R38: the drop window ends in a further turn while extra turns are left, else EMPTY; the first jam
reverses the vend (20 ms off, 400 ms reversed, 20 ms off, forward again by HOME), a further one ends it JAMMED. A jam is a
current above the jam threshold at every assessment of 150 ms; one assessment not above it begins the run anew (R34).
That every EMPTY removes the spiral's other entries (R5, R8, in `VendEnded`) is the model's reading
(notes/assumptions/35.md), and that an energising begins with the current 0 its choice (28.md). -/
def Obligations.TurnsJamsAndReversals : Prop :=
  (∀ (s : State) (u : Station) (v : Vend), u = s.station.advanceTo 800 s.station.vendTimer →
    u.vend = some v → v.phase = .settling →
    Gives .dropWindowExpiry s fun t =>
      (v.turnsUsed < 1 + s.station.cfg.extraTurns →
        t.vend = some (v.energised
          (if s.station.homeOpen.getD (v.entry.position - 10) false then .turning else .starting) .forward) ∧
        KeepsBut [.vend] u t) ∧
      (1 + s.station.cfg.extraTurns ≤ v.turnsUsed → VendEnded u t v .empty)) ∧
  (∀ (s : State) (v : Vend) (currents : List Nat) (u : Station), s.station.vend = some v →
    s.station.line.state ≠ .halted → u = s.station.assess currents →
    Gives (.jam currents) s fun t =>
      (v.phase = .starting ∨ v.phase = .turning → v.shorted = false → ¬ReadsShort s.station.cfg v currents →
        v.low = false ∨ ReadsCurrent s.station.cfg v currents → 150 ≤ v.jamRun + currents.length →
        (∀ x ∈ currents, s.station.cfg.jamThreshold < x) →
        (v.jams = 0 →
          t.vend = u.vend.map (fun w => { w with jams := 1, phase := .reversing .firstPause, timer := 0 }) ∧
          KeepsBut [.vend] u t) ∧
        (v.jams ≠ 0 → VendEnded u t v .jammed)) ∧
      ((∃ x, currents.getLast? = some x ∧ x ≤ s.station.cfg.jamThreshold) ∨ v.jamRun + currents.length < 150 ∨
        motorSense v ≠ some .forward → KeepsBut [] u t)) ∧
  (∀ (s : State) (u : Station) (v : Vend), u = s.station.advanceTo 20 s.station.vendTimer →
    u.vend = some v → v.phase = .reversing .firstPause →
    Gives .reversePauseEnd s fun t =>
      t.vend = some (v.energised (.reversing .reversed) .reversed) ∧ KeepsBut [.vend] u t) ∧
  (∀ (s : State) (u : Station) (v : Vend), u = s.station.advanceTo 400 s.station.vendTimer →
    u.vend = some v → v.phase = .reversing .reversed →
    Gives .reversingTimerExpiry s fun t =>
      t.vend = some { v with phase := .reversing .secondPause, timer := 0 } ∧ KeepsBut [.vend] u t) ∧
  ∀ (s : State) (u : Station) (v : Vend), u = s.station.advanceTo 20 s.station.vendTimer →
    u.vend = some v → v.phase = .reversing .secondPause →
    Gives .forwardPauseEnd s fun t =>
      t.vend = some (v.energised
        (if s.station.homeOpen.getD (v.entry.position - 10) false then .turning else .starting) .forward) ∧
      KeepsBut [.vend] u t

/-- R35, R44, R45, R53, R54, R7: the beam becomes blocked. After a clear time under 10 ms it is no edge. An edge is chute
activity with no vend or one in CLAIMING, a drop of a vend that has fewer than three, and nothing after that; in SETTLING a
drop ends the vend DELIVERED. The chute-activity rate stands when the 21 kept edges lie within 60 minutes. -/
def Obligations.DropEdgeIsADropOrChuteActivity : Prop :=
  (∀ s : State, s.station.doorRead = true → s.station.chute.blocked = false → s.station.chute.beamTime < 10 →
    Gives .dropEdge s fun t =>
      t.chute = { s.station.chute with blocked := true, beamTime := 0 } ∧ KeepsBut [.chute] s.station t) ∧
  ∀ (s : State) (u : Station), s.station.doorRead = true → s.station.chute.blocked = false →
    10 ≤ s.station.chute.beamTime → u = s.station →
    Gives .dropEdge s fun t =>
      t.chute.blocked = true ∧ t.chute.beamTime = 0 ∧ t.chute.fault = u.chute.fault ∧
      (u.vend = none ∨ u.vendIn .claiming = true →
        t.audit.chuteActivity = rise32 u.audit.chuteActivity 1 ∧
        t.chute.edges = (u.chute.edges ++ [u.now]).drop (u.chute.edges.length + 1 - 21) ∧
        (t.chute.rate = true ↔ t.chute.edges.length = 21 ∧ u.now ≤ t.chute.edges.headD 0 + 3600000) ∧
        KeepsBut [.chute, .counters] u t) ∧
      (∀ v, u.vend = some v → v.phase ≠ .claiming → t.chute.edges = u.chute.edges ∧ t.chute.rate = u.chute.rate) ∧
      (∀ v, u.vend = some v → v.phase ≠ .claiming → 3 ≤ v.drops → KeepsBut [.chute] u t) ∧
      (∀ v, u.vend = some v → v.phase ≠ .claiming → v.phase ≠ .settling → v.drops < 3 →
        t.vend = some { v with drops := v.drops + 1 } ∧
        (positionInRange v.entry.position = true → v.entry.position - 10 < u.spirals.length →
          (t.spiral v.entry.position).stock =
            stockUnderNaming (stockAfterDrop (u.spiral v.entry.position).stock) (t.namingCount v.entry.position)) ∧
        KeepsBut [.chute, .vend, .spirals] u t) ∧
      (∀ v, u.vend = some v → v.phase = .settling → v.drops < 3 →
        VendEnded ((u.setBeam true).countDrop v) t { v with drops := v.drops + 1 } .delivered)

/-- R35, R54, R55, R29: the beam clears; the rate condition ends, when the oldest kept time is exactly 60 minutes old (the
model's reading, notes/assumptions/36.md); the chute fault begins after 2 s blocked, with its notice, and clears after 5 s
clear. With the delivery guarantee its beginning removes every entry but the VENDING one, which stays with its vend: one
that awaits its COMMIT is answered REFUSE CHUTE, a COMMITTED one RESULT CHUTE with 0 drops (a sale so removed may follow
with a SHORT-PAY). -/
def Obligations.ChuteIsSupervised : Prop :=
  (∀ s : State, s.station.doorRead = true → s.station.chute.blocked = true →
    Gives .beamClears s fun t =>
      t.chute = { s.station.chute with blocked := false, beamTime := 0 } ∧ KeepsBut [.chute] s.station t) ∧
  (∀ (s : State) (u : Station), s.station.doorRead = true → s.station.chute.rate = true →
    u = s.station.advanceTo 3600000 (s.station.now - s.station.chute.edges.headD 0) →
    Gives .chuteActivityRateEnd s fun t => t.chute = { u.chute with rate := false } ∧ KeepsBut [.chute] u t) ∧
  (∀ (s : State) (u : Station), s.station.beamTimed = true → s.station.chute.blocked = true →
    s.station.chute.fault = false → u = s.station.advanceTo 2000 s.station.chute.beamTime →
    Gives .chuteFault s fun t =>
      t.chute = { u.chute with fault := true } ∧ NoticeFirst u t .chute ∧
      (u.cfg.guarantee = true →
        t.queue = u.queue.filter (fun e => e.state = .vending) ∧
        RemovedAnswered u t [] .chute .chute (u.queue.filter fun e => e.state != .vending) ∧
        ∀ r ∈ [Region.clock, .setup, .home, .spirals, .vend, .tubes, .journal, .coinLink, .buffer, .service, .meters, .line,
          .peers, .door], r.same u t) ∧
      (u.cfg.guarantee = false → KeepsBut [.chute, .latch] u t)) ∧
  ∀ (s : State) (u : Station), s.station.beamTimed = true → s.station.chute.blocked = false →
    s.station.chute.fault = true → u = s.station.advanceTo 5000 s.station.chute.beamTime →
    Gives .chuteFaultClear s fun t => t.chute = { u.chute with fault := false } ∧ KeepsBut [.chute] u t

/-! ### The vend queue (02) -/

/-- R21: the commit timer removes its entry with no frame and no change of a spiral. -/
def Obligations.CommitTimerRemovesTheEntry : Prop :=
  ∀ (s : State) (u : Station) (payer : Payer) (tag : Nat) (e : Entry), s.station.awaiting payer tag = some e →
    u = s.station.advanceTo 2000 e.commitTimer →
    Gives (.commitTimerExpiry payer tag) s fun t =>
      t.queue = removeFirst (fun f => entryIs payer tag f && f.state = .awaitCommit) u.queue ∧ KeepsBut [.queue] u t

/-- R17 to R20, R172: an OFFER from a peer that the line hands on, in LISTEN, in ACTIVE, or in ISOLATED by SILENCE or
LINE-FAULT, where hearing it returns the line to LISTEN first (`u`). In LISTEN it is refused NOT-READY, new or repeated; in
ACTIVE a repetition is answered again, a failing check is answered with its reason, and an offer that passes the nine checks
of R18 adds an entry that awaits its COMMIT. -/
def Obligations.OfferIsAdmittedOrRefused : Prop :=
  ∀ (s : State) (u : Station) (src tag tray column : Nat), u = s.station.heardPeer → u.line.state = .listen ∨ u.active = true →
    offerOk src u.cfg.address tag tray column = true → src ≠ u.cfg.address →
    Gives (.offer src u.cfg.address tag tray column) s fun t =>
      (u.active = false →
        t.queue = u.queue ∧ t.spirals = u.spirals ∧ Queued u t src (.refuse tag .notReady)) ∧
      (∀ e, u.queue.find? (entryIs (.peer src) tag) = some e →
        t.queue = u.queue ∧
        (u.active = true → Queued u t src (.accept tag e.price e.queuePos))) ∧
      (∀ r, u.queue.find? (entryIs (.peer src) tag) = none → u.offerRefusal tray column = some r →
        t.queue = u.queue ∧ t.spirals = u.spirals ∧ Queued u t src (.refuse tag r)) ∧
      (u.queue.find? (entryIs (.peer src) tag) = none → u.active = true →
        u.faults.doorOpen = false → u.chuteStops = false → u.namesPosition tray column = true →
        (u.spiral (10 * tray + column)).status = .inService →
        u.withheld (10 * tray + column) = false →
        (∀ n, (u.spiral (10 * tray + column)).stock = .known n → u.namingCount (10 * tray + column) < n) →
        u.queue.length < 4 →
        ∃ e : Entry, t.queue = u.queue ++ [e] ∧ e.payer = some (.peer src) ∧ e.tag = some tag ∧
          e.position = 10 * tray + column ∧ e.price = (u.spiral (10 * tray + column)).price ∧
          e.state = .awaitCommit ∧ e.test = false ∧ e.commitTimer = 0 ∧
          Queued u t src (.accept tag e.price (u.queue.length + 1))) ∧
      (∀ r ∈ [Region.clock, .setup, .home, .chute, .tubes, .journal, .coinLink, .payout, .txn, .buffer, .message, .service,
        .door, .counters], r.same u t)

/-- R22, R24, R17, R172: a COMMIT that the line hands on (in ISOLATED by SILENCE or LINE-FAULT once it has returned to
LISTEN, `u`) binds the entry it finds awaiting at its price, removes one at another price, and is refused EXPIRED, or
SERVICE with the door open, when it finds none. With no vend in flight the oldest COMMITTED entry that cold-hold does not
withhold, the one now bound among them, is then picked in the same event (`Picked`); else the entry waits. That the commit
timer stopped so holds 0 is the model's choice (notes/assumptions/44.md). -/
def Obligations.CommitBindsTheEntry : Prop :=
  ∀ (s : State) (u : Station) (src tag price : Nat), u = s.station.heardPeer → u.line.state = .listen ∨ u.active = true →
    commitOk src u.cfg.address tag price = true → src ≠ u.cfg.address →
    Gives (.commit src u.cfg.address tag price) s fun t =>
      (u.queue.find? (entryIs (.peer src) tag) = none →
        t.queue = u.queue ∧
        Queued u t src (.refuse tag (if u.faults.doorOpen then .service else .expired))) ∧
      (∀ e, u.queue.find? (entryIs (.peer src) tag) = some e → e.state = .awaitCommit → e.price = price →
        t.queue.map (fun f => (f.payer, f.tag, f.position, f.price)) =
          u.queue.map (fun f => (f.payer, f.tag, f.position, f.price)) ∧
        (∃ f, t.queue.find? (entryIs (.peer src) tag) = some f ∧ (f.state = .committed ∨ f.state = .vending)) ∧
        (u.vend = none → Picked (updateFirst (entryIs (.peer src) tag)
          (fun f => { f with state := .committed, commitTimer := 0 }) u.queue) t) ∧
        (u.vend ≠ none → t.queue = updateFirst (entryIs (.peer src) tag)
          (fun f => { f with state := .committed, commitTimer := 0 }) u.queue)) ∧
      (∀ e, u.queue.find? (entryIs (.peer src) tag) = some e → e.state = .awaitCommit → e.price ≠ price →
        t.queue = removeFirst (entryIs (.peer src) tag) u.queue ∧
        Queued u t src (.refuse tag .price)) ∧
      (∀ e, u.queue.find? (entryIs (.peer src) tag) = some e → e.state ≠ .awaitCommit →
        t.queue = u.queue) ∧
      (∀ r ∈ [Region.clock, .setup, .home, .spirals, .chute, .tubes, .journal, .coinLink, .payout, .txn, .buffer, .message,
        .service, .door, .counters], r.same u t)

/-- R23, R17, R172: a WITHDRAW that the line hands on (in ISOLATED by SILENCE or LINE-FAULT once it has returned to LISTEN,
`u`) removes the payer's entry of its tag unless it is VENDING, and no frame answers it: whatever it leaves in the transmit
queue is a frame that stood there or the CLAIM of a waiting load. -/
def Obligations.WithdrawRemovesTheEntry : Prop :=
  ∀ (s : State) (u : Station) (src tag : Nat), u = s.station.heardPeer → u.line.state = .listen ∨ u.active = true →
    withdrawOk src u.cfg.address tag = true → src ≠ u.cfg.address →
    Gives (.withdraw src u.cfg.address tag) s fun t =>
      t.queue = removeFirst (fun e => entryIs (.peer src) tag e && e.state != .vending) u.queue ∧
      (∀ f ∈ t.line.queue, f ∈ u.line.queue ∨ f.opensWindow = true) ∧
      (∀ r ∈ [Region.clock, .setup, .home, .spirals, .chute, .tubes, .journal, .coinLink, .payout, .txn, .buffer, .message,
        .service, .meters, .door, .counters], r.same u t)

/-! ### The transaction (07) -/

/-- R114, R116, R172: an ACCEPT that the line hands on, in LISTEN, in ACTIVE, or in ISOLATED by SILENCE or LINE-FAULT once it
has returned to LISTEN (`u`). That of the current offer binds the sale in ACTIVE when the credit covers the price and the
change can be paid or more sales may follow. Else it shows the price, NOT AVAIL where the station is not ACTIVE, or EXACT,
by the first check that fails, and withdraws. Any other ACCEPT leaves the record alone. -/
def Obligations.AcceptBindsOrDeclines : Prop :=
  ∀ (s : State) (u : Station) (src tag price queuePos : Nat), u = s.station.heardPeer →
    u.line.state = .listen ∨ u.active = true → acceptOk src u.cfg.address tag price queuePos = true → src ≠ u.cfg.address →
    Gives (.accept src u.cfg.address tag price queuePos) s fun t =>
      (u.answersOffer (.peer src) tag = false → t.txn = u.txn ∧ Queued u t src (.withdraw tag)) ∧
      (u.answersOffer (.peer src) tag = true → u.txn.state ≠ .asking → t.txn = u.txn) ∧
      (u.answersOffer (.peer src) tag = true → u.txn.state = .asking →
        (price ≤ u.txn.credit → u.active = true →
          u.cfg.multiVend = true ∨ payableExactly u.coin.tubes (u.txn.credit - price) = true →
          t.txn.state = .committed ∧ t.txn.escrow = price ∧ t.txn.credit = u.txn.credit - price ∧
          t.txn.resultTimer = 0 ∧ t.txn.returnRequested = false ∧ t.txn.shownPosition = queuePos ∧
          Queued u t src (.commit tag price)) ∧
        (∀ m,
          (u.txn.credit < price ∧ m = .price price) ∨ (price ≤ u.txn.credit ∧ u.active = false ∧ m = .notAvail) ∨
            (price ≤ u.txn.credit ∧ u.active = true ∧ u.cfg.multiVend = false ∧
              payableExactly u.coin.tubes (u.txn.credit - price) = false ∧ m = .exact) →
          t.txn.state = restingState u.txn.credit ∧ t.txn.offer = none ∧ t.txn.credit = u.txn.credit ∧
          (u.faults.doorOpen = false → t.panel.message = some m) ∧ Queued u t src (.withdraw tag))) ∧
      (∀ r ∈ [Region.clock, .setup, .queue, .home, .spirals, .chute, .tubes, .journal, .coinLink, .payout, .buffer, .service,
        .door, .counters], r.same u t)

/-- R115, R116, R118, R117, R122: the REFUSE of the current offer, handed on in LISTEN, in ACTIVE or, once the line has
returned to LISTEN (`u`), in ISOLATED by SILENCE or LINE-FAULT, ends it and shows why; in COMMITTED the escrow goes back to
credit, all of which a requested return pays out (`SaleFailed`). Any other REFUSE leaves the record alone. -/
def Obligations.RefuseEndsTheOffer : Prop :=
  ∀ (s : State) (u : Station) (src tag reason : Nat), u = s.station.heardPeer → u.line.state = .listen ∨ u.active = true →
    refuseOk src u.cfg.address tag reason = true → src ≠ u.cfg.address →
    Gives (.refuse src u.cfg.address tag reason) s fun t =>
      (u.answersOffer (.peer src) tag = false → t.txn = u.txn) ∧
      (u.answersOffer (.peer src) tag = true →
        (u.txn.state = .asking →
          t.txn.state = restingState u.txn.credit ∧ t.txn.offer = none ∧
          t.txn.credit = u.txn.credit ∧
          (u.faults.doorOpen = false → t.panel.message = some (reasonMessage (reasonOf reason)))) ∧
        (u.txn.state = .committed →
          SaleFailed u t ∧
          (u.faults.doorOpen = false → t.panel.message = some (reasonMessage (reasonOf reason))))) ∧
      (∀ r ∈ [Region.clock, .setup, .queue, .home, .spirals, .chute, .tubes, .journal, .coinLink, .buffer, .service, .door],
        r.same u t)

/-- R117, R122: the RESULT of a committed sale, handed on in LISTEN, in ACTIVE or, once the line has returned to LISTEN
(`u`), in ISOLATED by SILENCE or LINE-FAULT: DELIVERED books it, any other outcome gives the escrow back and shows why. The
credit left is returned where a return was asked for, and after a sale where no further one is allowed. -/
def Obligations.ResultSettlesTheSale : Prop :=
  ∀ (s : State) (u : Station) (src tag outcome drops : Nat), u = s.station.heardPeer → u.line.state = .listen ∨ u.active = true →
    resultOk src u.cfg.address tag outcome drops = true → src ≠ u.cfg.address →
    u.answersOffer (.peer src) tag = true → u.txn.state = .committed →
    Gives (.result src u.cfg.address tag outcome drops) s fun t =>
      t.txn.escrow = 0 ∧
      (outcomeOf outcome = .delivered →
        SaleTaken u t ∧
        t.audit.doubleDrops =
          (if 2 ≤ drops then rise32 u.audit.doubleDrops 1 else u.audit.doubleDrops)) ∧
      (outcomeOf outcome ≠ .delivered →
        SaleFailed u t ∧
        (u.faults.doorOpen = false → t.panel.message = outcomeMessage (outcomeOf outcome))) ∧
      (∀ r ∈ [Region.clock, .setup, .queue, .home, .spirals, .chute, .tubes, .journal, .coinLink, .buffer, .service, .door],
        r.same u t)

/-- R120. -/
def Obligations.LateResultIsOnlyCounted : Prop :=
  ∀ (s : State) (u : Station) (src tag outcome drops : Nat), u = s.station.heardPeer → u.line.state = .listen ∨ u.active = true →
    resultOk src u.cfg.address tag outcome drops = true → src ≠ u.cfg.address →
    u.answersOffer (.peer src) tag = false ∨ u.txn.offer = none ∨ u.txn.state = .asking →
    Gives (.result src u.cfg.address tag outcome drops) s fun t =>
      t.audit.lateResult = rise32 u.audit.lateResult 1 ∧
      (outcomeOf outcome = .delivered → t.audit.lateDelivered = rise32 u.audit.lateDelivered 1) ∧
      (outcomeOf outcome ≠ .delivered → t.audit.lateDelivered = u.audit.lateDelivered) ∧
      t.txn = u.txn ∧
      (∀ f ∈ t.line.queue, f ∈ u.line.queue ∨ f.opensWindow = true) ∧
      KeepsBut [.counters, .peers, .line, .lineQueue, .power, .vend, .cooling, .latch] u t

/-! ### The bank line and the peer view (10) -/

/-- R172, R182, R178, R181, R159: a valid frame of a peer creates or refreshes its entry: CLAIM and RELEASE set a slot,
DECLARE and HEARTBEAT their fields, and the other kinds only presence and age; no other peer's entry changes. The silence
timer restarts; ISOLATED by SILENCE or LINE-FAULT ends in LISTEN with a DECLARE queued, its timers and the error count at 0;
that the frame itself counts as heard there (notes/assumptions/21.md), that the STATUS timer restarts there (36.md), and
that a created entry holds maximum and allowance 0 (41.md) are the model's readings. A DECLARE of a peer not PRESENT, or not
yet declared, is answered after a delay, and a CLAIM heard in the window of a request is recorded there, with the slot's
value just before it, which is the model's reading where R154 speaks of the window's opening (49.md). -/
def Obligations.FramesWriteThePeerView : Prop :=
  ∀ (c : Instr) (s : State) (src dst : Nat) (p : Peer), frameRoute c = some (src, dst) → frameValid c = true →
    s.station.running = true → src ≠ 0 → src ≠ s.station.cfg.address →
    p = { (s.station.findPeer src).getD (Peer.fresh src) with presence := .present, age := 0 } →
    Gives c s fun t =>
      (t.line.silenceTimer = 0 ∧ t.line.heard = true) ∧
      (s.station.line.state = .isolated .silence ∨ s.station.line.state = .isolated .lineFault →
        t.line.state = .listen ∧ t.line.heartbeatTimer = 0 ∧ t.line.declareTimer = 0 ∧ t.line.listenTimer = 0 ∧
        t.line.errors = 0 ∧ t.coin.statusTimer = 0 ∧ Queued s.station t 0 (.declare s.station.declareFields)) ∧
      (s.station.line.state ≠ .isolated .silence → s.station.line.state ≠ .isolated .lineFault →
        t.line.state = s.station.line.state) ∧
      (∀ fields, c = .declare src dst fields → s.station.answersDeclare src = true →
        s.station.line.state ≠ .isolated .clash → t.line.declareDelay = some (s.station.line.declareDelay.getD 0)) ∧
      ((∀ fields, c ≠ .declare src dst fields) ∨ s.station.answersDeclare src = false →
        t.line.declareDelay = s.station.line.declareDelay) ∧
      (∀ a, a ≠ src → t.findPeer a = s.station.findPeer a) ∧
      match c with
      | .claim _ _ cls rank value scale =>
        (∃ q, t.findPeer src = some q ∧ { q with vendMotor := 0, compressor := 0, heater := 0 } =
            { p with vendMotor := 0, compressor := 0, heater := 0 } ∧
          q.vendMotor = (if cls = 0 then value * scaleFactor scale else p.vendMotor) ∧
          q.compressor = (if cls = 1 then value * scaleFactor scale else p.compressor) ∧
          q.heater = (if cls = 2 then value * scaleFactor scale else p.heater)) ∧
        ∀ k, classOf cls = some k → s.station.active = true →
          ∀ r ∈ s.station.power.requests, r.phase = .window →
            { r with
              record := addRecord r.record
                ⟨src, k, rank, ((s.station.findPeer src).map fun q => q.slot k).getD 0⟩ } ∈ t.power.requests
      | .release _ _ cls =>
        t.findPeer src = some { p with
          vendMotor := if cls = 0 then 0 else p.vendMotor,
          compressor := if cls = 1 then 0 else p.compressor,
          heater := if cls = 2 then 0 else p.heater }
      | .declare _ _ f =>
        t.findPeer src = some { p with
          declared := true, letter := some f.letter, role := some (if f.role = 1 then .payment else .vendOnly),
          declaredMax := watts f.declaredMax, allowance := watts f.allowance, base := watts f.base }
      | .heartbeat _ _ f =>
        t.findPeer src = some { p with
          base := watts f.base, vendMotor := watts f.vendMotor, compressor := watts f.compressor,
          heater := watts f.heater, accepting := f.flags.testBit 3, lineState := some f.lineState }
      | _ => t.findPeer src = some p

/-- R170, R172, R73, R195, R196: an AUDIT-QUERY for this station or for all, from a peer or a service tool, is answered in
LISTEN or ACTIVE by an AUDIT with the block's content; a peer's ends an isolation by SILENCE or LINE-FAULT first (`u`). The
dropped notices stand in the content as the letter clash that the frame may begin leaves them (R172 step 1, R185; that the
notice comes with that step is the model's reading, notes/assumptions/15.md). -/
def Obligations.AuditQueriesAreAnswered : Prop :=
  ∀ (c : Instr) (s : State) (u : Station) (src dst block : Nat),
    u = (if src = 0 then s.station else s.station.heardPeer) → c = .auditQuery src dst block ∨ c = .auditQueryJournal src dst block →
    auditQueryOk src dst block = true → u.line.state = .listen ∨ u.active = true →
    dst = u.cfg.address ∨ dst = 0 → src ≠ u.cfg.address →
    Gives c s fun t =>
      (block < 32 → Queued u t src
        (.audit block (((auditImage { u.audit with dropped := t.audit.dropped }
          u.coin.overrun).drop (10 * block)).take 10))) ∧
      (32 ≤ block → Queued u t src (.audit block (match u.coin.journal[block - 32]? with
        | some e => journalBytes e
        | none => []))) ∧
      (∀ r ∈ [Region.clock, .setup, .queue, .home, .spirals, .chute, .tubes, .journal, .coinLink, .payout, .txn, .buffer,
        .message, .service, .meters, .door, .counters], r.same u t)

/-- R169, R170: bits that are no frame, and a frame with a field out of its range, are counted and have no other effect. Bits
that do spell a valid frame are no event of this kind (the model's choice, notes/assumptions/4.md). That an AUDIT's block
number is at most 63 is its reading (notes/assumptions/36.md). -/
def Obligations.BadFramesAreOnlyCounted : Prop :=
  (∀ (c : Instr) (s : State),
    (∃ bits, c = .badFrame bits ∧ readBits bits = none) ∨ ((frameRoute c).isSome = true ∧ frameValid c = false) →
    s.station.running = true →
    Gives c s fun t =>
      t.audit.badFrames = rise32 s.station.audit.badFrames 1 ∧ KeepsBut [.counters] s.station t ∧
      { t.audit.owned with badFrames := 0 } = { s.station.audit.owned with badFrames := 0 }) ∧
  ∀ (bits : List Bool) (s : State), readBits bits ≠ none → Gives (.badFrame bits) s fun t => KeepsBut [] s.station t

/-- R176, R164, R167, R179: a valid frame that names the own address as its sender while the station is not sending
isolates it with the cause CLASH (`EntersIsolated`), with the notice CLASH and its address. The clash is latched and its
condition stands (R186, R177): no step ends it but one in which a start begins, with the line cleared. That a DECLARE still
waiting out its delay is dropped at the clash is the model's reading (notes/assumptions/40.md), as is what the line's timers
hold in the start (30.md). -/
def Obligations.OwnAddressFrameIsolates : Prop :=
  (∀ (c : Instr) (s : State) (src dst : Nat), frameRoute c = some (src, dst) → frameValid c = true →
    s.station.running = true → src ≠ 0 → src = s.station.cfg.address →
    Gives c s fun t =>
      (s.station.line.sending = true → KeepsBut [] s.station t) ∧
      (s.station.line.sending = false →
        t.line.state = .isolated .clash ∧ t.peers = s.station.peers ∧
        (s.station.line.state ≠ .isolated .clash → EntersIsolated s.station t .clash ∧
          (s.station.built = true → Condition.addressClash ∈ t.faults.standing) ∧ t.faults.active ≠ none ∧
          (s.station.faults.active = none → s.station.faults.pendingNotice = none →
            t.faults.active = some (.clash s.station.cfg.address) ∨
              t.faults.pendingNotice = some (.clash s.station.cfg.address))) ∧
        (s.station.line.state = .isolated .clash → KeepsBut [] s.station t))) ∧
  ∀ s t : State, step s = .next t → s.station.line.clashLatched = true →
    (t.station.line.clashLatched = true ∧ (s.station.built = true → Settled s.station →
      Condition.addressClash ∈ t.station.faults.standing)) ∨
    (t.station.line = Line.blank ∧ t.station.start ≠ .none)

/-- R159, R164, R169, R173 to R175, R179: a frame is begun on an idle line, loses it, is sent, or meets an error. BTX drives
its bits from the start bit on; a head byte that is lower in the first bit that differs takes the line. A CLAIM that has been
sent opens its window; the eighth error in a row, or the line read dominant for 10 ms (given as an operand: the model's
reading, notes/assumptions/13.md), is a line fault where heartbeats are sent. That the whole frame's bits stand on BTX from
its start to its end is the model's choice (notes/assumptions/27.md), and that a DECLARE still waiting out its delay is
dropped on LINE-FAULT (`EntersIsolated`) its reading (40.md). -/
def Obligations.SendingAndLineFaults : Prop :=
  (∀ (s : State) (recessive : Nat) (f : Frame) (rest : List Frame), s.station.running = true →
    s.station.line.queue = f :: rest →
    Gives (.transmitStart recessive) s fun t =>
      (10 ≤ recessive → t.line.sending = true ∧ t.pins.btx = frameBits s.station.cfg.address f ∧
        KeepsBut [.line] s.station t) ∧
      (recessive < 10 → KeepsBut [] s.station t)) ∧
  (∀ (s : State) (f : Frame) (rest : List Frame) (head : Nat), s.station.line.sending = true →
    s.station.line.queue = f :: rest →
    Gives (.lostContention head) s fun t =>
      (losesTo (byteBits (headByte s.station.cfg.address f)) (byteBits (byteOf head)) = true →
        t.line.sending = false ∧ t.pins.btx = [] ∧ KeepsBut [.line] s.station t) ∧
      (losesTo (byteBits (headByte s.station.cfg.address f)) (byteBits (byteOf head)) = false →
        KeepsBut [] s.station t)) ∧
  (∀ own other : Nat, own ≤ 255 → other ≤ 255 →
    losesTo (byteBits (byteOf own)) (byteBits (byteOf other)) = decide (other < own)) ∧
  (∀ (s : State) (f : Frame) (rest : List Frame), s.station.line.sending = true → s.station.line.queue = f :: rest →
    Gives .frameSent s fun t =>
      t.line.sending = false ∧ t.line.errors = 0 ∧ t.pins.btx = [] ∧
      (f.opensWindow = false → s.station.loadsSettled = true → t.line.queue = rest) ∧
      (f.opensWindow = true → s.station.active = true →
        ∀ r ∈ s.station.power.requests, r.phase = .sending →
          t.line.queue = rest ∧ ∃ q ∈ t.power.requests, q.cls = r.cls ∧ q.phase = .window ∧ q.timer = 0 ∧ q.record = []) ∧
      KeepsBut [.line, .lineQueue, .power, .vend, .cooling] s.station t) ∧
  (∀ s : State, s.station.line.sending = true →
    Gives .transmitError s fun t =>
      t.line.sending = false ∧ t.line.errors = s.station.line.errors + 1 ∧
      (s.station.line.errors < 7 ∨ s.station.line.state.beats = false → KeepsBut [.line] s.station t) ∧
      (7 ≤ s.station.line.errors → s.station.line.state.beats = true → EntersIsolated s.station t .lineFault)) ∧
  ∀ (s : State) (held : Nat), Gives (.brxDominant held) s fun t =>
    (10 ≤ held → s.station.line.state.beats = true → EntersIsolated s.station t .lineFault) ∧
    (held < 10 ∨ s.station.line.state.beats = false → KeepsBut [] s.station t)

/-- R178, R174, R179, R181, R164, R167: LISTEN ends in ACTIVE when a peer has been heard or the bank has one station, else
isolated by silence; 5 s of silence in ACTIVE isolate (`EntersIsolated`), dropping the four kinds sent only there; the
heartbeat, probe and declare timers and the delayed DECLARE hand their frame and begin anew. -/
def Obligations.LineTimersAct : Prop :=
  (∀ (s : State) (u : Station), s.station.line.state = .listen →
    u = s.station.advanceTo 1500 s.station.line.listenTimer →
    Gives .listenTimerExpiry s fun t =>
      (u.line.heard = true ∨ u.cfg.stationCount = 1 → t.line.state = .active ∧ t.line.silenceTimer = 0) ∧
      (u.line.heard = false → u.cfg.stationCount ≠ 1 → EntersIsolated u t .silence) ∧
      t.peers = u.peers) ∧
  (∀ (s : State) (u : Station), s.station.active = true → s.station.cfg.stationCount ≠ 1 →
    u = s.station.advanceTo 5000 s.station.line.silenceTimer →
    Gives .silenceTimerExpiry s fun t => EntersIsolated u t .silence) ∧
  (∀ (s : State) (u : Station), s.station.line.state.beats = true →
    u = s.station.advanceTo 1000 s.station.line.heartbeatTimer →
    Gives .heartbeatTimerExpiry s fun t =>
      t.line.heartbeatTimer = 0 ∧ Queued u t 0 (.heartbeat u.heartbeatFields) ∧ KeepsBut [.line, .lineQueue] u t) ∧
  (∀ (s : State) (u : Station), s.station.line.state = .isolated .lineFault →
    u = s.station.advanceTo 5000 s.station.line.probeTimer →
    Gives .probeTimerExpiry s fun t =>
      t.line.probeTimer = 0 ∧ Queued u t 0 (.heartbeat u.heartbeatFields) ∧ KeepsBut [.line, .lineQueue] u t) ∧
  (∀ (s : State) (u : Station), s.station.line.state.beats = true →
    u = s.station.advanceTo 30000 s.station.line.declareTimer →
    Gives .declareTimerExpiry s fun t =>
      t.line.declareTimer = 0 ∧ Queued u t 0 (.declare u.declareFields) ∧ KeepsBut [.line, .lineQueue] u t) ∧
  ∀ (s : State) (u : Station) (waited : Nat), s.station.line.state.beats = true →
    s.station.line.declareDelay = some waited → u = s.station.advanceTo (10 * s.station.cfg.address) waited →
    Gives .declareDelayExpiry s fun t =>
      t.line.declareDelay = none ∧ Queued u t 0 (.declare u.declareFields) ∧ KeepsBut [.line, .lineQueue] u t

/-- R183, R188: a peer not heard is SILENT at 3.5 s, with no notice, and GONE at 30 s, with the notice PEER and its
address. -/
def Obligations.PeersAgeToSilentAndGone : Prop :=
  (∀ (s : State) (u : Station) (p : Peer), s.station.running = true → s.station.findPeer p.address = some p →
    p.presence = .present → u = s.station.advanceTo 3500 p.age →
    Gives (.peerSilent p.address) s fun t =>
      t.findPeer p.address = (u.findPeer p.address).map (fun q => { q with presence := .silent }) ∧
      KeepsBut [.peers, .power, .lineQueue, .vend, .cooling] u t) ∧
  ∀ (s : State) (u : Station) (p : Peer), s.station.running = true → s.station.findPeer p.address = some p →
    p.presence = .silent → u = s.station.advanceTo 30000 p.age →
    Gives (.peerGone p.address) s fun t =>
      t.findPeer p.address = (u.findPeer p.address).map (fun q => { q with presence := .gone }) ∧
      NoticeTaken u t (.peer p.address) ∧ KeepsBut [.peers, .power, .lineQueue, .vend, .cooling, .latch] u t

/-! ### The power budget (09) -/

/-- R160, R161: at the end of a claim window the load is granted when the sum fits the budget, its requester waiting for it;
else it is released and backs off, or leaves the list when it was withdrawn. At a station count of 1 the sums of the check
and of the window's end hold the own loads and the request alone (R165, R178), also where such a station hears a peer (the
model's reading, notes/assumptions/45.md). -/
def Obligations.WindowGrantsOrBacksOff : Prop :=
  (∀ (u : Station) (r : Request), u.cfg.stationCount = 1 →
    u.admissionSum r.power = u.ownSum + watts r.power ∧ u.windowSum r = u.ownSum + watts r.power) ∧
  ∀ (s : State) (u : Station) (r0 r : Request), s.station.active = true → s.station.requestIn .window = some r0 →
    u = s.station.advanceTo 50 r0.timer → u.requestIn .window = some r →
    u.power.requests.filter (fun q => q.cls = r.cls) = [r] →
    Gives .windowTimerExpiry s fun t =>
      (u.windowSum r ≤ u.cfg.bankBudget →
        (r.cls = .vendMotor → u.vendIn .claiming = true →
          t.power.vendMotor = some r.power ∧ (t.vendIn .starting = true ∨ t.vendIn .turning = true)) ∧
        (r.cls = .compressor → u.cooling.compressor = .waitPower →
          t.power.compressor = some r.power ∧ t.cooling.compressor = .run) ∧
        (r.cls = .defrostHeater → u.cooling.phase = .heaterWait →
          t.power.heater = some r.power ∧ t.cooling.phase = .heater) ∧
        hasRequest t.power.requests r.cls = false) ∧
      (u.cfg.bankBudget < u.windowSum r →
        Queued u t 0 (.release r.cls) ∧
        (r.withdrawn = true → hasRequest t.power.requests r.cls = false) ∧
        (r.withdrawn = false → t.requestOf r.cls = some { r with phase := .backoff, timer := 0, record := [] }))

/-- R155 to R158, R161, R162, R165, R166: a request leaves BACKOFF as READY, and one that has waited 300 s is starved, where
the line state does not check requests in the same event. While ACTIVE the free window is given to the READY request of best
rank and lowest class (`WindowGiven`): SENDING with its CLAIM queued when the admission sum is within the bank budget, HELD
when it is not, BACKOFF when the transmit queue is full; so at the end of a backoff, at entry to ACTIVE, and where a term of
the sum falls and HELD requests become READY: a peer's frame that lowers what it counts, a peer GONE, peers forgotten, the
own compressor lowered to its run watts. In ISOLATED the request that leaves BACKOFF is checked at once: granted when the
own sum with it is within the allowance, else HELD. That STARVED comes when the waited time reaches 300 s is the model's
reading (notes/assumptions/36.md), and so are that a station configured alone counts no peer that it nevertheless hears, and
that its HELD requests become READY by such a peer's changes all the same (45.md). -/
def Obligations.BackoffAndStarvation : Prop :=
  (∀ (s : State) (u : Station) (cls : LoadClass) (r : Request), s.station.requestOf cls = some r → r.phase = .backoff →
    s.station.line.state.isIsolated = false →
    (s.station.active = true → windowHeld s.station.power.requests = true) →
    u = s.station.advanceTo (50 + 100 * s.station.cfg.address) r.timer →
    Gives (.backoffTimerExpiry cls) s fun t =>
      ((t.requestOf cls).map fun q => (q.phase, q.timer)) = some (.ready, 0) ∧ KeepsBut [.power] u t) ∧
  (∀ (s : State) (u : Station) (r : Request), s.station.power.requests = [r] → r.phase = .backoff →
    s.station.line.state.isIsolated = true →
    u = s.station.advanceTo (50 + 100 * s.station.cfg.address) r.timer →
    Gives (.backoffTimerExpiry r.cls) s fun t =>
      (u.ownSum + watts r.power ≤ allowanceInForce u.cfg →
        (r.cls = .vendMotor → u.vendIn .claiming = true →
          t.power.vendMotor = some r.power ∧ (t.vendIn .starting = true ∨ t.vendIn .turning = true)) ∧
        (r.cls = .compressor → u.cooling.compressor = .waitPower →
          t.power.compressor = some r.power ∧ t.cooling.compressor = .run) ∧
        (r.cls = .defrostHeater → u.cooling.phase = .heaterWait →
          t.power.heater = some r.power ∧ t.cooling.phase = .heater) ∧
        t.power.requests = []) ∧
      (allowanceInForce u.cfg < u.ownSum + watts r.power →
        (t.power.requests.map fun q => (q.cls, q.power, q.phase, q.checked)) = [(r.cls, r.power, .held, true)] ∧
        KeepsBut [.power] u t)) ∧
  (∀ (s : State) (u : Station) (cls : LoadClass) (r : Request), s.station.requestOf cls = some r → r.phase = .backoff →
    s.station.active = true → (s.station.power.requests.map fun q => q.cls).Nodup →
    u = s.station.advanceTo (50 + 100 * s.station.cfg.address) r.timer →
    Gives (.backoffTimerExpiry cls) s fun t =>
      WindowGiven (u.power.requests.map fun q => if q.cls = cls then { q with phase := .ready, timer := 0 } else q)
        (u.line.queue.length < 8) t) ∧
  (∀ (s : State) (u : Station), s.station.line.state = .listen → (s.station.power.requests.map fun q => q.cls).Nodup →
    u = s.station.advanceTo 1500 s.station.line.listenTimer → u.line.heard = true ∨ u.cfg.stationCount = 1 →
    Gives .listenTimerExpiry s fun t => WindowGiven (readyHeld u.power.requests) (u.line.queue.length < 8) t) ∧
  (∀ (c : Instr) (s : State) (src dst : Nat) (p : Peer), frameRoute c = some (src, dst) → frameValid c = true →
    s.station.active = true → src ≠ 0 → src ≠ s.station.cfg.address →
    (∃ fields, c = .declare src dst fields) ∨ (∃ fields, c = .heartbeat src dst fields) ∨ (∃ cls, c = .release src dst cls) ∨
      (∃ cls rank value scale, c = .claim src dst cls rank value scale ∧ s.station.requestIn .window = none) →
    (s.station.power.requests.map fun q => q.cls).Nodup → s.station.findPeer src = some p →
    Gives c s fun t => ∃ q, t.findPeer src = some q ∧
      (CountsLess s.station.cfg p q →
        WindowGiven (readyHeld s.station.power.requests) (s.station.line.queue.length < 8) t) ∧
      (¬CountsLess s.station.cfg p q → WindowGiven s.station.power.requests (s.station.line.queue.length < 8) t)) ∧
  (∀ (s : State) (u : Station) (p : Peer), s.station.active = true → s.station.findPeer p.address = some p →
    p.presence = .silent → (s.station.power.requests.map fun q => q.cls).Nodup →
    u = s.station.advanceTo 30000 p.age →
    Gives (.peerGone p.address) s fun t => WindowGiven (readyHeld u.power.requests) (u.line.queue.length < 8) t) ∧
  (∀ s : State, s.station.serviceMode = true → s.station.active = true →
    (∃ p ∈ s.station.peers, p.presence ≠ .present) → (s.station.power.requests.map fun q => q.cls).Nodup →
    Gives .forgetPeers s fun t =>
      WindowGiven (readyHeld s.station.power.requests) (s.station.line.queue.length < 8) t) ∧
  (∀ (s : State) (u : Station) (f : Fig), s.station.active = true → s.station.cooling.compressor = .run →
    s.station.cooling.inrushDone = false → (s.station.power.requests.map fun q => q.cls).Nodup →
    u = s.station.advanceTo (1000 * s.station.cfg.cooling.inrushSec) s.station.cooling.inrushTimer →
    u.power.compressor = some f → watts u.cfg.run ≤ watts f → hasRequest u.power.requests .compressor = false →
    Gives .inrushEnd s fun t => WindowGiven (readyHeld u.power.requests) (u.line.queue.length < 7) t) ∧
  ∀ (s : State) (u : Station) (cls : LoadClass) (r : Request), s.station.requestOf cls = some r → r.checked = true →
    r.starved = false → s.station.line.state.isIsolated = false → u = s.station.advanceTo 300000 r.waited →
    Gives (.starved cls) s fun t =>
      ((t.requestOf cls).map fun q => q.starved) = some true ∧ KeepsBut [.power, .lineQueue] u t

/-! ### Coins, tubes and the payout (04, 06) -/

/-- R63, R64, R110, R71: a COIN adds its value to the credit, the part above 65535 to the forfeited value, counts, and goes
into its fitted tube or to the cashbox; a tube that already stands at 250 raises the overcount, and a full journal the
overrun. No other counter changes. -/
def Obligations.CoinIsCreditedAndCounted : Prop :=
  ∀ (s : State) (coinType value tube : Nat) (path : CoinPath), s.station.coinUnitWorks = true → coinType ≤ 15 →
    value = (s.station.coinTypeOf coinType).value → tube = (s.station.coinTypeOf coinType).tube →
    Gives (.coin coinType path) s fun t =>
      t.txn.credit = min 65535 (s.station.txn.credit + value) ∧ t.txn.inactivityTimer = 0 ∧
      t.txn.state = (if value ≠ 0 ∧ s.station.txn.state = .idle then .credit else s.station.txn.state) ∧
      t.audit.coinsByType = updateAt s.station.audit.coinsByType coinType (fun n => rise32 n 1) ∧
      t.audit.lateCoins = (if coinType ∈ s.station.coin.lastInhibit then rise32 s.station.audit.lateCoins 1
        else s.station.audit.lateCoins) ∧
      t.audit.forfeitedValue =
        rise32 s.station.audit.forfeitedValue (s.station.txn.credit + value - min 65535 (s.station.txn.credit + value)) ∧
      t.coin.overrun = overrunWith s.station.coin.journal s.station.coin.overrun ∧
      { t.audit.owned with coinsByType := [], lateCoins := 0, forfeitedValue := 0, cashboxValue := 0, tubeOvercount := 0 } =
        { s.station.audit.owned with
          coinsByType := [], lateCoins := 0, forfeitedValue := 0, cashboxValue := 0, tubeOvercount := 0 } ∧
      (path = .tube → tubeNumberOk tube = true → (s.station.tube tube).fitted = true →
        t.coin.tubes = updateAt s.station.coin.tubes (tube - 1)
          (fun r => { r with estimate := limitEstimate r (r.estimate + 1) }) ∧
        t.audit.tubeOvercount = (if 250 ≤ (s.station.tube tube).estimate then rise32 s.station.audit.tubeOvercount 1
          else s.station.audit.tubeOvercount) ∧
        t.coin.journal = journalWith s.station.coin.journal ⟨.inTube, some coinType, value, t.txn.credit⟩ ∧
        t.audit.cashboxValue = s.station.audit.cashboxValue) ∧
      (path = .cashbox ∨ tubeNumberOk tube = false ∨ (s.station.tube tube).fitted = false →
        t.coin.tubes = s.station.coin.tubes ∧ t.audit.tubeOvercount = s.station.audit.tubeOvercount ∧
        t.coin.journal = journalWith s.station.coin.journal ⟨.inCashbox, some coinType, value, t.txn.credit⟩ ∧
        t.audit.cashboxValue = rise32 s.station.audit.cashboxValue value) ∧
      KeepsBut [.txn, .tubes, .journal, .counters] s.station t

/-- R65. -/
def Obligations.RejectIsJournalled : Prop :=
  ∀ s : State, s.station.coinUnitWorks = true →
    Gives .reject s fun t =>
      t.coin.journal = journalWith s.station.coin.journal ⟨.reject, none, 0, s.station.txn.credit⟩ ∧
      t.coin.overrun = overrunWith s.station.coin.journal s.station.coin.overrun ∧
      t.txn = { s.station.txn with inactivityTimer := 0 } ∧ t.coin.tubes = s.station.coin.tubes ∧
      KeepsBut [.journal, .txn] s.station t

/-- R59, R60: a FAULT, a STATUS other than READY and 3.5 s without a STATUS begin or hold the coin unit fault and READY
ends it; the transmitter that becomes free sends a waiting INHIBIT, else a waiting ROUTE, else nothing. -/
def Obligations.ValidatorLinkIsSupervised : Prop :=
  (∀ (s : State) (code : Nat), s.station.coinUnitWorks = true → faultCodeOk code = true →
    Gives (.fault code) s fun t =>
      t.coin.faultStands = true ∧ t.coin.faultCode = some code ∧ KeepsBut [.coinLink] s.station t) ∧
  (∀ (s : State) (condition : Nat), s.station.coinUnitWorks = true → statusOk condition = true →
    Gives (.status condition) s fun t =>
      t.coin.statusTimer = 0 ∧ (condition = 0 → t.coin.faultStands = false) ∧
      (condition ≠ 0 → t.coin.faultStands = true ∧ t.coin.faultCode = some condition) ∧
      KeepsBut [.coinLink] s.station t) ∧
  (∀ (s : State) (u : Station), s.station.coinUnitWorks = true →
    u = s.station.advanceTo 3500 s.station.coin.statusTimer →
    Gives .statusTimerExpiry s fun t =>
      t.coin.faultStands = true ∧ (u.coin.faultStands = false → t.coin.faultCode = none) ∧
      (u.coin.faultStands = true → t.coin.faultCode = u.coin.faultCode) ∧ KeepsBut [.coinLink] u t) ∧
  ∀ s : State, Gives .transmitterFree s fun t =>
    (∀ types, s.station.coin.waitingInhibit = some types → t.coin.onTransmitter = some (.inhibit types)) ∧
    (∀ types, s.station.coin.waitingInhibit = none → s.station.coin.waitingRoute = some types →
      t.coin.onTransmitter = some (.route types)) ∧
    (s.station.coin.waitingInhibit = none → s.station.coin.waitingRoute = none →
      s.station.coin.lastInhibit = s.station.inhibitSet → s.station.coin.lastRoute = s.station.routeSet →
      t.coin.onTransmitter = none) ∧
    KeepsBut [] s.station t

/-- R67, R68: a tube sensor that takes its other level corrects the estimate of its tube; one that has not held it for 50
ms does not (given as an operand: the model's reading, notes/assumptions/13.md). -/
def Obligations.TubeSensorCorrectsTheEstimate : Prop :=
  (∀ (s : State) (tube : Nat) (sensor : TubeSensor) (asserted : Bool) (held : Nat) (r : Tube),
    s.station.coinUnitWorks = true → tubeNumberOk tube = true → r = s.station.tube tube → r.fitted = true → 50 ≤ held →
    Gives (.tubeSensorChange tube sensor asserted held) s fun t =>
      (sensor = .low → r.lowSensor ≠ asserted →
        t.tube tube = { r with
          lowSensor := asserted,
          estimate := if asserted then min r.estimate r.lowMark else max r.estimate (r.lowMark + 1) }) ∧
      (sensor = .full → r.fullSensor ≠ asserted →
        t.tube tube = { r with
          fullSensor := asserted,
          estimate := if asserted && !r.lowSensor then max r.estimate r.fullMark else r.estimate }) ∧
      (∀ n, n ≠ tube → t.tube n = s.station.tube n) ∧ KeepsBut [.tubes] s.station t) ∧
  ∀ (s : State) (tube : Nat) (sensor : TubeSensor) (asserted : Bool) (held : Nat), held < 50 →
    Gives (.tubeSensorChange tube sensor asserted held) s fun t => KeepsBut [] s.station t

/-- R97, R98, R95, R101, R102, R122: a COUT edge while a coin is in progress confirms it: paid, counted, journalled, and
taken from its tube. The last coin of the plan ends the payout: its remainder goes to credit, short-paid where it is not 0
(attempt 1 in the record so emptied: the model's choice, notes/assumptions/39.md). An edge taken at any other time, and a
blocked level not held for 2 ms (given as an operand: the model's reading, notes/assumptions/13.md), change nothing. -/
def Obligations.CoutEdgeConfirmsTheCoin : Prop :=
  (∀ (s : State) (run : PlanEntry) (tube held : Nat), s.station.running = true → s.station.payout.phase = .pulse → 2 ≤ held →
    currentRun s.station.payout.plan = some run → s.station.payout.currentTube = some tube →
    Gives (.coutEdge held) s fun t =>
      t.audit.payoutValue = rise32 s.station.audit.payoutValue run.denomination ∧
      t.coin.journal = journalWith s.station.coin.journal ⟨.out, some tube, run.denomination, s.station.txn.credit⟩ ∧
      ((s.station.tube tube).estimate ≠ 0 →
        t.coin.tubes = updateAt s.station.coin.tubes (tube - 1) (fun r => { r with estimate := r.estimate - 1 })) ∧
      ((s.station.tube tube).estimate = 0 →
        t.coin.tubes = s.station.coin.tubes ∧ t.audit.countUnderrun = rise32 s.station.audit.countUnderrun 1) ∧
      ((currentRun (payRun s.station.payout.plan)).isSome = true →
        t.payout.paid = s.station.payout.paid + run.denomination ∧ t.payout.amount = s.station.payout.amount ∧
        t.payout.plan = payRun s.station.payout.plan ∧ t.txn = s.station.txn ∧
        (s.station.payout.stop = .door → t.payout.state = .stopped)) ∧
      (currentRun (payRun s.station.payout.plan) = none →
        PayoutEnded s.station t (s.station.payout.amount - (s.station.payout.paid + run.denomination))) ∧
      (∀ r ∈ [Region.clock, .setup, .queue, .home, .spirals, .chute, .coinLink, .buffer, .message, .service, .meters, .line,
        .peers, .door], r.same s.station t)) ∧
  ∀ (s : State) (held : Nat), held < 2 ∨ s.station.payout.phase ≠ .pulse ∨ s.station.running = false →
    Gives (.coutEdge held) s fun t => KeepsBut [] s.station t

/-- R96, R99, R100, R101, R102: the pulse ends after 60 ms; a miss at 150 ms is tried again after 50 ms, stops at an open
door, and in attempt 2 marks the tube PAYOUT-FAULT, with a new plan for the unpaid rest: an empty one ends the payout. After
the pause the next coin begins. That the record holds attempt 2 in the pause after a miss, and 1 in that after a tube fault,
is the model's choice (notes/assumptions/39.md). -/
def Obligations.PayoutTimersDriveTheCoin : Prop :=
  (∀ (s : State) (u : Station), s.station.payout.pulseOn.isSome = true →
    u = s.station.advanceTo 60 s.station.payout.pulseTimer →
    Gives .pulseTimerExpiry s fun t =>
      (u.payout.phase ≠ .none ∨ u.payout.state ≠ .running → t.payout = { u.payout with pulseOn := none }) ∧
      (∀ run tube, u.payout.phase = .none → u.payout.state = .running → currentRun u.payout.plan = some run →
        u.payout.currentTube = some tube → t.payout.phase = .pulse ∧ t.payout.windowTimer = 0) ∧
      KeepsBut [.payout] u t) ∧
  (∀ (s : State) (u : Station) (tube : Nat), s.station.payout.phase = .pulse →
    u = s.station.advanceTo 150 s.station.payout.windowTimer → u.payout.currentTube = some tube →
    Gives .miss s fun t =>
      (u.payout.attempt ≠ 2 → u.payout.stop = .none →
        t.payout = { u.payout with pulseOn := none, phase := .pause, pauseTimer := 0, attempt := 2 } ∧
        KeepsBut [.payout] u t) ∧
      (u.payout.attempt ≠ 2 → u.payout.stop = .door → t.payout.state = .stopped ∧ KeepsBut [.payout] u t) ∧
      (u.payout.attempt = 2 →
        t.coin.tubes = (if tubeNumberOk tube then
          updateAt u.coin.tubes (tube - 1) (fun r => { r with status := .payoutFault }) else u.coin.tubes) ∧
        t.faults.active ≠ none ∧ (u.faults.active = none → t.faults.active = some (.tube tube)) ∧
        (payoutPlan t.coin.tubes (u.payout.amount - u.payout.paid) = [] →
          PayoutEnded u t (u.payout.amount - u.payout.paid)) ∧
        (payoutPlan t.coin.tubes (u.payout.amount - u.payout.paid) ≠ [] →
          t.payout.plan = payoutPlan t.coin.tubes (u.payout.amount - u.payout.paid) ∧
          t.payout.amount = u.payout.amount ∧ t.payout.paid = u.payout.paid ∧ t.payout.attempt = 1 ∧ t.txn = u.txn ∧
          (u.payout.stop = .door → t.payout.state = .stopped ∧ t.payout.phase = .none) ∧
          (u.payout.stop = .none → t.payout.phase = .pause ∧ t.payout.pauseTimer = 0)))) ∧
  ∀ (s : State) (u : Station) (run : PlanEntry) (tube : Nat), s.station.payout.phase = .pause →
    u = s.station.advanceTo 50 s.station.payout.pauseTimer → u.payout.pulseOn = none →
    currentRun u.payout.plan = some run → u.payout.currentTube = some tube →
    Gives .pauseTimerExpiry s fun t =>
      t.payout.phase = .pulse ∧ t.payout.pulseOn = t.payout.currentTube ∧ t.payout.pulseTimer = 0 ∧
      t.payout.windowTimer = 0 ∧ (u.payout.attempt = 2 → t.payout.currentTube = some tube) ∧ KeepsBut [.payout] u t

/-! ### Keys, the selection and the transaction's timers (07, 11) -/

/-- R111, R112, R121, R124: the customer's keys. A tray digit or a letter enters the buffer in IDLE and CREDIT, a digit
that names no tray clears it with NOT AVAIL, CLR clears it; in ASKING, COMMITTED and PAYING digits, CAB and CLR leave it as
it is. At a vend-only station CAB does nothing and a completed selection shows its price or why not. NEXT, PREV and ENT do
nothing. Every key restarts the inactivity timer. That CAB leaves a letter and no digit is the model's reading
(notes/assumptions/36.md). -/
def Obligations.CustomerKeysFillTheBuffer : Prop :=
  ∀ (s : State) (letter : Nat) (keyed : Txn), s.station.customerKeys = true → letter = s.station.bufferLetter →
    keyed = { s.station.txn with inactivityTimer := 0 } →
    (∀ digit, digit ≤ 9 → s.station.bufferOpen = true → (∀ b, s.station.panel.buffer = some b → b.tray = none) →
      Gives (.keyDigit digit) s fun t =>
        t.txn = keyed ∧ t.panel.bufferTimer = 0 ∧
        (1 ≤ digit → digit ≤ 6 →
          t.panel.buffer = some ⟨letter, some digit⟩ ∧ KeepsBut [.buffer, .txn] s.station t) ∧
        (digit = 0 ∨ 7 ≤ digit →
          t.panel.buffer = none ∧ t.panel.message = some .notAvail ∧ KeepsBut [.buffer, .txn, .message] s.station t)) ∧
    (∀ digit tray, digit ≤ 9 → s.station.bufferOpen = true → s.station.panel.buffer = some ⟨letter, some tray⟩ →
      isPayment s.station.cfg = false →
      Gives (.keyDigit digit) s fun t =>
        t.txn = keyed ∧ t.panel.buffer = none ∧ t.panel.message = some (s.station.panelMessage tray digit) ∧
        KeepsBut [.buffer, .txn, .message] s.station t) ∧
    (∀ digit, digit ≤ 9 → s.station.bufferOpen = false →
      Gives (.keyDigit digit) s fun t =>
        t.txn = keyed ∧ t.panel.buffer = s.station.panel.buffer ∧ KeepsBut [.buffer, .txn] s.station t) ∧
    (Gives .keyCab s fun t =>
      t.txn = keyed ∧ KeepsBut [.buffer, .txn] s.station t ∧
      (isPayment s.station.cfg = true → s.station.bufferOpen = true →
        t.panel.buffer = some ⟨nextLetter s.station.cfg.letter letter s.station.letterCycle, none⟩) ∧
      (isPayment s.station.cfg = false ∨ s.station.bufferOpen = false → t.panel.buffer = s.station.panel.buffer)) ∧
    (Gives .keyClr s fun t =>
      t.txn = keyed ∧ KeepsBut [.buffer, .txn] s.station t ∧
      (s.station.bufferOpen = true → t.panel.buffer = none) ∧
      (s.station.bufferOpen = false → t.panel.buffer = s.station.panel.buffer)) ∧
    ∀ c, c = .keyNext ∨ c = .keyPrev ∨ c = .keyEnt →
      Gives c s fun t =>
        t.txn = keyed ∧ t.panel.buffer = s.station.panel.buffer ∧ KeepsBut [.buffer, .txn] s.station t

/-- R113, R114: a completed selection at a payment station: with no owner, or a peer owner it does not reach, NOT AVAIL;
to a peer that accepts offers an OFFER under the next tag; its own letter is answered in the same event. A refusal is shown;
an acceptance commits the sale where the credit covers the price and the change can be paid or more sales may follow, else
its entry is withdrawn and the price or EXACT is shown. -/
def Obligations.SelectionMakesAnOffer : Prop :=
  ∀ (s : State) (letter tray digit tag price : Nat), s.station.customerKeys = true → digit ≤ 9 →
    s.station.bufferOpen = true → isPayment s.station.cfg = true →
    s.station.panel.buffer = some ⟨letter, some tray⟩ → tag = (s.station.txn.lastTag + 1) % 16 →
    price = (s.station.spiral (10 * tray + digit)).price →
    Gives (.keyDigit digit) s fun t =>
      t.panel.buffer = none ∧
      (s.station.ownerOf letter = none →
        t.panel.message = some .notAvail ∧ KeepsBut [.buffer, .txn, .message] s.station t ∧
        t.txn = { s.station.txn with inactivityTimer := 0 }) ∧
      (∀ a, s.station.ownerOf letter = some (.peer a) → s.station.offerReaches a = false →
        t.panel.message = some .notAvail ∧ t.txn = { s.station.txn with inactivityTimer := 0 }) ∧
      (∀ a, s.station.ownerOf letter = some (.peer a) → s.station.offerReaches a = true →
        t.txn.offer = some ⟨.peer a, tag, 10 * tray + digit, none⟩ ∧ t.txn.state = .asking ∧ t.txn.lastTag = tag ∧
        t.txn.answerTimer = 0 ∧ t.txn.credit = s.station.txn.credit ∧ Queued s.station t a (.offer tag tray digit)) ∧
      (s.station.ownerOf letter = some .loc → t.txn.lastTag = tag) ∧
      (∀ r, s.station.ownerOf letter = some .loc → s.station.queue.find? (entryIs .loc tag) = none →
        s.station.offerRefusal tray digit = some r →
        t.txn.offer = none ∧ t.txn.state = restingState s.station.txn.credit ∧
        t.txn.credit = s.station.txn.credit ∧ t.queue = s.station.queue ∧
        t.panel.message = some (reasonMessage r)) ∧
      (s.station.ownerOf letter = some .loc → s.station.queue.find? (entryIs .loc tag) = none →
        s.station.offerRefusal tray digit = none →
        (price ≤ s.station.txn.credit →
          s.station.cfg.multiVend = true ∨ payableExactly s.station.coin.tubes (s.station.txn.credit - price) = true →
          t.txn.state = .committed ∧ t.txn.escrow = price ∧ t.txn.credit = s.station.txn.credit - price ∧
          t.txn.offer = some ⟨.loc, tag, 10 * tray + digit, some price⟩ ∧ t.txn.returnRequested = false ∧
          t.txn.shownPosition = s.station.queue.length + 1 ∧ t.queue.length = s.station.queue.length + 1 ∧
          ∃ e, t.queue.find? (entryIs .loc tag) = some e ∧ e.position = 10 * tray + digit ∧ e.price = price ∧
            e.test = false ∧ (e.state = .committed ∨ e.state = .vending)) ∧
        (s.station.txn.credit < price ∨ (s.station.cfg.multiVend = false ∧
            payableExactly s.station.coin.tubes (s.station.txn.credit - price) = false) →
          t.txn.offer = none ∧ t.txn.state = restingState s.station.txn.credit ∧
          t.txn.credit = s.station.txn.credit ∧ t.queue = s.station.queue ∧
          t.panel.message = some (if s.station.txn.credit < price then .price price else .exact))) ∧
      (∀ r ∈ [Region.clock, .setup, .home, .chute, .tubes, .journal, .coinLink, .service, .peers, .line, .door],
        r.same s.station t)

/-- R115, R117, R119, R121, R122: RET at a payment station and the transaction's timers. RET in CREDIT returns all credit,
in ASKING after withdrawing the offer (`Returned`); in COMMITTED it is remembered. No answer ends the offer, no result
gives the escrow back in doubt, and returns the credit where that was asked for (`SaleFailed`); inactivity forfeits the
credit. The timers act in every line state but HALTED (R203); in OFFLINE after an invalid image inactivity forfeits by the
time and the door level still held, which is the model's reading (notes/assumptions/36.md). -/
def Obligations.ReturnsAndTransactionTimers : Prop :=
  (∀ s : State, s.station.customerKeys = true → isPayment s.station.cfg = true →
    Gives .keyRet s fun t =>
      (s.station.bufferOpen = true → t.panel.buffer = none) ∧
      (s.station.txn.state = .committed →
        t.txn = { s.station.txn with returnRequested := true, inactivityTimer := 0 }) ∧
      (s.station.txn.state = .credit → s.station.payout.state = .idle →
        Returned s.station t s.station.txn.credit) ∧
      (∀ o, s.station.txn.state = .asking → s.station.txn.offer = some o → s.station.payout.state = .idle →
        Returned s.station t s.station.txn.credit ∧
        (∀ a, o.owner = .peer a → sendAllowed s.station.line.state (.withdraw o.tag) = true →
          Queued s.station t a (.withdraw o.tag)) ∧
        (o.owner = .loc →
          t.queue = removeFirst (fun e => entryIs .loc o.tag e && e.state != .vending) s.station.queue)) ∧
      (s.station.txn.state = .idle ∨ s.station.txn.state = .paying →
        t.txn = { s.station.txn with inactivityTimer := 0 })) ∧
  (∀ s : State, s.station.customerKeys = true → isPayment s.station.cfg = false →
    Gives .keyRet s fun t => KeepsBut [.buffer, .txn] s.station t) ∧
  (∀ (s : State) (u : Station), s.station.line.state ≠ .halted → s.station.txn.state = .asking →
    s.station.txn.peerOwner = true → u = s.station.advanceTo 300 s.station.txn.answerTimer →
    Gives .answerTimerExpiry s fun t =>
      t.txn.state = restingState u.txn.credit ∧ t.txn.offer = none ∧ t.txn.credit = u.txn.credit ∧
      (u.faults.doorOpen = false → t.panel.message = some .noAnswer) ∧ KeepsBut [.txn, .message] u t) ∧
  (∀ (s : State) (u : Station), s.station.line.state ≠ .halted → s.station.txn.state = .committed →
    s.station.txn.peerOwner = true →
    u = s.station.advanceTo (Config.resultTime s.station.cfg.timeoutCode) s.station.txn.resultTimer →
    Gives .resultTimerExpiry s fun t =>
      SaleFailed u t ∧ t.audit.inDoubt = rise32 u.audit.inDoubt 1 ∧
      (u.faults.doorOpen = false → t.panel.message = some .noAnswer) ∧
      (∀ o a, u.txn.offer = some o → o.owner = .peer a → sendAllowed u.line.state (.withdraw o.tag) = true →
        Queued u t a (.withdraw o.tag))) ∧
  ∀ (s : State) (u : Station), s.station.line.state ≠ .halted → s.station.txn.state = .credit →
    s.station.faults.doorOpen = false →
    u = s.station.advanceTo (1000 * s.station.cfg.inactivitySec) s.station.txn.inactivityTimer →
    Gives .inactivityTimeout s fun t =>
      t.txn.credit = 0 ∧ t.txn.state = .idle ∧
      t.audit.forfeitedValue = rise32 u.audit.forfeitedValue u.txn.credit ∧ KeepsBut [.txn, .counters] u t

/-- R191, R192, R193: the technician's keys. Digits join the command number and then the arguments, CLR empties the entry,
NEXT and PREV step the item shown, ENT runs the command its entry spells (the rows of R192: `spelled`) or shows REFUSED, CAB
and RET do nothing. That the first key ends the showing of a result is the model's reading (notes/assumptions/36.md). -/
def Obligations.TechnicianKeysEditAndSubmit : Prop :=
  ∀ s : State, s.station.serviceMode = true →
    (∀ digit, digit ≤ 9 → Gives (.keyDigit digit) s fun t =>
      t.service.timer = 0 ∧ t.service.item = s.station.service.item ∧
      t.service.number = (if s.station.service.number.length < 2 then s.station.service.number ++ [digit]
        else s.station.service.number) ∧
      t.service.arguments = (if 2 ≤ s.station.service.number.length ∧ s.station.service.arguments.length < 4 then
        s.station.service.arguments ++ [digit] else s.station.service.arguments) ∧
      t.panel.message = none ∧ KeepsBut [.service, .message] s.station t) ∧
    (Gives .keyClr s fun t =>
      t.service = ServiceEntry.blank ∧ t.panel.message = none ∧ KeepsBut [.service, .message] s.station t) ∧
    (Gives .keyNext s fun t =>
      t.service.item = s.station.service.item.map (fun i => if i = 135 then 1 else i + 1) ∧
      KeepsBut [.service, .message] s.station t) ∧
    (Gives .keyPrev s fun t =>
      t.service.item = s.station.service.item.map (fun i => if i = 1 then 135 else i - 1) ∧
      KeepsBut [.service, .message] s.station t) ∧
    (∀ c, c = .keyCab ∨ c = .keyRet → Gives c s fun t =>
      t.service = { s.station.service with timer := 0 } ∧ KeepsBut [.service, .message] s.station t) ∧
    (∀ cmd, s.station.service.command = some cmd → exec .keyEnt s = exec (serviceRow cmd) s) ∧
    ((∀ d ∈ s.station.service.number, d ≤ 9) →
      s.station.service.command = spelled s.station.service.number s.station.service.arguments) ∧
    (s.station.service.command = none → Gives .keyEnt s (RefusedWith .refused s.station))

/-- R111, R191, R123, R187, R190: the timers of the keypad buffer, the service entry, the message, the alternation, the
lamp's flashing, and the door that is left open. That the buffer is cleared when its time reaches 10 s is the model's reading
(notes/assumptions/31.md). -/
def Obligations.DisplayEntryAndDoorTimers : Prop :=
  (∀ (s : State) (u : Station), s.station.panel.buffer.isSome = true →
    u = s.station.advanceTo 10000 s.station.panel.bufferTimer →
    Gives .bufferTimeout s fun t => t.panel.buffer = none ∧ KeepsBut [.buffer] u t) ∧
  (∀ (s : State) (u : Station), s.station.service.isEmpty = false →
    u = s.station.advanceTo 30000 s.station.service.timer →
    Gives .entryTimeout s fun t =>
      t.service.number = [] ∧ t.service.arguments = [] ∧ t.service.item = u.service.item ∧ KeepsBut [.service] u t) ∧
  (∀ (s : State) (u : Station), s.station.panel.message.isSome = true →
    u = s.station.advanceTo s.station.panel.messageLength s.station.panel.messageTimer →
    Gives .messageTimeEnd s fun t => t.panel.message = none ∧ KeepsBut [.message] u t) ∧
  (∀ (s : State) (u : Station), s.station.panel.alternation.isSome = true →
    u = s.station.advanceTo 1000 s.station.panel.alternationTimer → u.alternates = u.panel.alternation →
    Gives .displayAlternation s fun t =>
      t.panel.secondShown = !u.panel.secondShown ∧ t.panel.alternationTimer = 0 ∧
      t.panel.alternation = u.panel.alternation ∧ KeepsBut [] u t) ∧
  (∀ (s : State) (u : Station), s.station.faults.lamp = .flashing →
    u = s.station.advanceTo 500 s.station.faults.flashTimer → u.lampMode = .flashing → u.keepsConditions = true →
    u.faults.standing = allConditions.filter u.holds →
    Gives .lampFlash s fun t =>
      t.faults.lamp = .flashing ∧ t.faults.flashOn = !u.faults.flashOn ∧ t.faults.flashTimer = 0 ∧
      t.pins.lsv = !u.faults.flashOn ∧ KeepsBut [] u t) ∧
  ∀ (s : State) (u : Station), s.station.doorRead = true → s.station.faults.doorOpen = true →
    u = s.station.advanceTo 600000 s.station.faults.doorTimer →
    Gives .doorLeftOpen s fun t =>
      t.faults.doorLeftOpen = true ∧ t.faults.doorOpen = true ∧ KeepsBut [.door] u t

/-! ### Cooling (08) -/

/-- R128 to R132, R136, R138, R145, R148, R188: a sample: a valid code enters the window of four, and the mean code is
converted to the reading; a fault begins with five invalid samples in a row and ends with ten valid ones. The air reading
sets demand, and one between setpoint and setpoint plus differential leaves it; one at or below the hold limit restarts the
hold timer. A condenser reading at the limit in RUN is a trip, stated of a station under the law of the loads, whose running
compressor is in no melting phase: the two most recent earlier trips, both within 60 minutes, make it the third, LATCHED
with its notice, else LOCKOUT (one exactly 60 minutes old is within: notes/assumptions/36.md). That a trip in phase ON of
fixed duty leaves demand is the model's reading (notes/assumptions/43.md). The air fault begins fixed duty in phase ON with
demand set, and its end ends it; fixed duty without an air fault is no state of the rule. -/
def Obligations.SensorSampleIsTaken : Prop :=
  ∀ (s : State) (u : Station) (name : SensorName) (code : Nat) (r q : Sensor), s.station.coolingOn = true → code ≤ 1023 →
    u = s.station.advanceTo 1000 (s.station.cooling.sensor name).sinceSample → r = u.cooling.sensor name →
    Gives (.sensorSample name code) s fun t =>
      (∀ other, other ≠ name → t.cooling.sensor other = u.cooling.sensor other) ∧
      (q = t.cooling.sensor name →
        q.sinceSample = 0 ∧
        (16 ≤ code → code ≤ 1007 →
          q.window = (r.window ++ [code]).drop (r.window.length + 1 - 4) ∧ q.invalidRun = 0 ∧
          q.validRun = min 10 (r.validRun + 1) ∧ q.fault = (r.fault && q.validRun != 10) ∧
          q.reading = some (convert u.cfg.cooling.table (q.window.sum / q.window.length))) ∧
        (code < 16 ∨ 1007 < code →
          q.window = r.window ∧ q.reading = r.reading ∧ q.validRun = 0 ∧ q.invalidRun = min 5 (r.invalidRun + 1) ∧
          (q.fault = true ↔ r.fault = true ∨ q.invalidRun = 5)) ∧
        (q.fault = true → r.fault = false → NoticeTaken u t (.sensor name)) ∧
        (∀ temp, name = .air → 16 ≤ code → code ≤ 1007 → q.fault = false → q.reading = some temp →
          (u.cfg.cooling.setpoint + u.cfg.cooling.differential ≤ temp → t.cooling.demand = true) ∧
          (temp < u.cfg.cooling.setpoint + u.cfg.cooling.differential → temp ≤ u.cfg.cooling.setpoint →
            t.cooling.demand = false) ∧
          (u.cfg.cooling.setpoint < temp → temp < u.cfg.cooling.setpoint + u.cfg.cooling.differential →
            t.cooling.demand = u.cooling.demand)) ∧
        (name ≠ .air ∨ ((code < 16 ∨ 1007 < code ∨ q.fault = true) ∧ q.fault = r.fault) →
          t.cooling.demand = u.cooling.demand) ∧
        (∀ temp, LoadLaw s.station → name = .cond → 16 ≤ code → code ≤ 1007 → q.fault = false → q.reading = some temp →
          u.cooling.compressor = .run → u.cfg.cooling.condenserLimit ≤ temp →
          Tripped u t) ∧
        (∀ temp, name = .coil → 16 ≤ code → code ≤ 1007 → q.fault = false → q.reading = some temp →
          u.cooling.phase.melting = true → u.cfg.cooling.terminationTemp ≤ temp →
          t.audit.defrosts = rise32 u.audit.defrosts 1 ∧ t.cooling.phase = .drip)) ∧
      (name = .air →
        (r.fault = false → t.cooling.air.fault = true →
          t.cooling.duty = some .on ∧ t.cooling.dutyTimer = 0 ∧ t.cooling.demand = true) ∧
        (r.fault = true → t.cooling.air.fault = false → t.cooling.duty = none) ∧
        (t.cooling.air.fault = r.fault → r.fault = true ∨ u.cooling.duty = none →
          t.cooling.duty = u.cooling.duty ∧ t.cooling.dutyTimer = u.cooling.dutyTimer) ∧
        (∀ temp, 16 ≤ code → code ≤ 1007 → t.cooling.air.fault = false → t.cooling.air.reading = some temp →
          (temp ≤ u.cfg.cooling.holdLimit → u.cooling.coldHold = false → t.cooling.holdTimer = 0) ∧
          (u.cfg.cooling.holdLimit < temp ∨ u.cooling.coldHold = true → t.cooling.holdTimer = u.cooling.holdTimer)) ∧
        (code < 16 ∨ 1007 < code ∨ t.cooling.air.fault = true → t.cooling.holdTimer = u.cooling.holdTimer)) ∧
      (∀ p ∈ [Region.clock, .setup, .queue, .home, .spirals, .chute, .tubes, .journal, .coinLink, .payout, .txn, .buffer,
        .message, .service, .line, .peers, .door], p.same u t)

/-- R133 to R138: the compressor's timers. REST ends in a pending defrost, in WAIT-POWER on demand (where an isolated station
may grant it in the same event), or IDLE; the inrush ends; the minimum on time ends in a stop that waited for it; run hours
count; LOCKOUT ends in REST, which is left in the same event; the duty phases alternate. -/
def Obligations.CompressorTimersAct : Prop :=
  (∀ (s : State) (u : Station), s.station.cooling.compressor = .rest →
    u = s.station.advanceTo 180000 s.station.cooling.sinceStop →
    Gives .minimumOffTimeEnd s fun t =>
      (u.cooling.defrostRequest = true → t.cooling.compressor = .defrost) ∧
      (u.cooling.defrostRequest = false → u.cooling.demand = true →
        t.cooling.compressor = .waitPower ∨ (t.line.state.isIsolated = true ∧ t.cooling.compressor = .run)) ∧
      (u.cooling.defrostRequest = false → u.cooling.demand = false → t.cooling.compressor = .idle)) ∧
  (∀ (s : State) (u : Station), s.station.cooling.compressor = .run → s.station.cooling.inrushDone = false →
    u = s.station.advanceTo (1000 * s.station.cfg.cooling.inrushSec) s.station.cooling.inrushTimer →
    Gives .inrushEnd s fun t =>
      t.cooling.inrushDone = true ∧ t.cooling.compressor = .run ∧
      (∀ f, u.power.compressor = some f → watts u.cfg.run ≤ watts f →
        hasRequest u.power.requests .compressor = false →
        t.power.compressor = some u.cfg.run ∧ (u.active = true → Queued u t 0 (.claim .compressor 2 u.cfg.run)))) ∧
  (∀ (s : State) (u : Station), s.station.cooling.compressor = .run →
    u = s.station.advanceTo 60000 s.station.cooling.minOnTimer →
    Gives .minimumOnTimeEnd s fun t =>
      (u.cooling.demand = false ∨ u.cooling.defrostRequest = true →
        t.cooling.sinceStop = 0 ∧ t.pins.cmp = false ∧
        t.cooling.compressor = (if u.cooling.defrostRequest then .defrost else .rest)) ∧
      (u.cooling.demand = true → u.cooling.defrostRequest = false → KeepsBut [] u t)) ∧
  (∀ (s : State) (u : Station), s.station.cooling.compressor = .run →
    u = s.station.advanceTo 3600000 s.station.cooling.hourPart →
    Gives .runHour s fun t =>
      t.audit.runHours = rise32 u.audit.runHours 1 ∧ t.cooling.hourPart = 0 ∧
      KeepsBut [.counters, .cooling, .meters] u t) ∧
  (∀ (s : State) (u : Station), s.station.cooling.compressor = .lockout →
    u = s.station.advanceTo 600000 s.station.cooling.lockoutTimer →
    Gives .lockoutTimerExpiry s fun t =>
      (u.cooling.sinceStop < 180000 → t.cooling.compressor = .rest) ∧
      (180000 ≤ u.cooling.sinceStop → u.cooling.defrostRequest = true → t.cooling.compressor = .defrost) ∧
      (180000 ≤ u.cooling.sinceStop → u.cooling.defrostRequest = false → u.cooling.demand = true →
        t.cooling.compressor = .waitPower ∨ (t.line.state.isIsolated = true ∧ t.cooling.compressor = .run)) ∧
      (180000 ≤ u.cooling.sinceStop → u.cooling.defrostRequest = false → u.cooling.demand = false →
        t.cooling.compressor = .idle)) ∧
  ∀ (s : State) (u : Station), s.station.coolingOn = true → s.station.cooling.dutyRuns = true →
    u = s.station.advanceTo 600000 s.station.cooling.dutyTimer →
    Gives .dutyTimerExpiry s fun t =>
      (u.cooling.duty = some .on → t.cooling.duty = some .off ∧ t.cooling.demand = false) ∧
      (u.cooling.duty = some .off → t.cooling.duty = some .on ∧ t.cooling.demand = true) ∧ t.cooling.dutyTimer = 0

/-- R140, R142, R144 to R146, R149: the causes and timers of a defrost, and the onset of cold-hold, which raises its notice
and removes the queue's entries for chilled spirals: one that awaits its COMMIT is answered REFUSE TEMP-HOLD, a COMMITTED
one RESULT TEMP-HOLD with 0 drops (R28; a sale so removed may follow with a SHORT-PAY), while the entries of ambient spirals
and the VENDING one with its vend stay. A cause outside the set makes no request. That a cause's becoming met is kept as
taken, in the set or not, is the model's choice (notes/assumptions/34.md). -/
def Obligations.DefrostAndHoldTimersAct : Prop :=
  (∀ (s : State) (u : Station), s.station.cooling.compressor ≠ .off → s.station.cooling.runTimeTaken = false →
    s.station.cooling.compressor = .run ∨
      3600000 * s.station.cfg.cooling.intervalHours ≤ s.station.cooling.runAccumulator →
    u = s.station.advanceTo (3600000 * s.station.cfg.cooling.intervalHours) s.station.cooling.runAccumulator →
    Gives .runTime s fun t =>
      t.cooling.runTimeTaken = true ∧
      (u.cfg.cooling.causeRunTime = true → u.cooling.defrostFree = true →
        t.cooling.defrostRequest = true ∨ t.cooling.compressor = .defrost) ∧
      (u.cfg.cooling.causeRunTime = false →
        t.cooling.defrostRequest = u.cooling.defrostRequest ∧ KeepsBut [.cooling, .meters] u t ∧
        (u.loadsSettled = true ∨ u.cooling.waits = false →
          t.cooling.compressor = u.cooling.compressor ∧ t.cooling.phase = u.cooling.phase))) ∧
  (∀ (s : State) (u : Station), s.station.cooling.icing = true → s.station.cooling.iceTaken = false →
    u = s.station.advanceTo 900000 s.station.cooling.iceTimer →
    Gives .coilIce s fun t =>
      (u.cfg.cooling.causeCoilIce = true → u.cooling.defrostFree = true →
        t.cooling.defrostRequest = true ∨ t.cooling.compressor = .defrost) ∧
      (u.cfg.cooling.causeCoilIce = false → KeepsBut [] u t)) ∧
  (∀ (s : State) (u : Station), s.station.cooling.phase = .heaterWait →
    u = s.station.advanceTo 600000 s.station.cooling.heaterWaitTimer →
    Gives .heaterWaitTimerExpiry s fun t =>
      t.cooling.phase = .offCycle ∧ t.pins.dfh = false ∧
      (∀ r ∈ t.power.requests, r.cls = .defrostHeater → r.withdrawn = true) ∧
      KeepsBut [.cooling, .power, .lineQueue, .vend] u t) ∧
  (∀ (s : State) (u : Station), s.station.cooling.phase.melting = true →
    u = s.station.advanceTo (60000 * s.station.cfg.cooling.maxDefrostMin) s.station.cooling.defrostTimer →
    Gives .defrostTimerExpiry s fun t =>
      t.cooling.phase = .drip ∧ t.cooling.dripTimer = 0 ∧ t.cooling.runAccumulator = 0 ∧ t.cooling.doorCounter = 0 ∧
      t.pins.dfh = false ∧ t.audit.defrosts = rise32 u.audit.defrosts 1 ∧
      KeepsBut [.cooling, .meters, .counters, .power, .lineQueue, .vend] u t) ∧
  (∀ (s : State) (u : Station), s.station.cooling.phase = .drip →
    u = s.station.advanceTo 120000 s.station.cooling.dripTimer →
    Gives .dripTimerExpiry s fun t =>
      (u.cooling.sinceStop < 180000 → t.cooling.phase = .none ∧ t.cooling.compressor = .rest) ∧
      (180000 ≤ u.cooling.sinceStop → u.cooling.defrostRequest = true →
        t.cooling.compressor = .defrost ∧ t.cooling.phase.melting = true ∧ t.cooling.defrostTimer = 0 ∧
        t.cooling.defrostRequest = false) ∧
      (180000 ≤ u.cooling.sinceStop → u.cooling.defrostRequest = false → u.cooling.demand = true →
        t.cooling.phase = .none ∧
        (t.cooling.compressor = .waitPower ∨ (t.line.state.isIsolated = true ∧ t.cooling.compressor = .run))) ∧
      (180000 ≤ u.cooling.sinceStop → u.cooling.defrostRequest = false → u.cooling.demand = false →
        t.cooling.phase = .none ∧ t.cooling.compressor = .idle)) ∧
  ∀ (s : State) (u : Station), s.station.holdRuns = true →
    u = s.station.advanceTo (60000 * s.station.cfg.cooling.holdDelayMin) s.station.cooling.holdTimer →
    Gives .coldHold s fun t =>
      t.cooling.coldHold = true ∧ NoticeFirst u t .coldHold ∧
      t.queue = u.queue.filter (fun e => e.state = .vending || (u.spiral e.position).zone = .ambient) ∧
      RemovedAnswered u t [] .tempHold .tempHold
        (u.queue.filter fun e => e.state != .vending && (u.spiral e.position).zone = .chilled) ∧
      (∀ r ∈ [Region.clock, .setup, .home, .spirals, .vend, .chute, .tubes, .journal, .coinLink, .buffer, .service, .line, .peers,
        .door], r.same u t)

/-! ### Service commands (11) -/

/-- R189. -/
def Obligations.AckAttentionMovesTheLatch : Prop :=
  ∀ s : State, s.station.serviceMode = true → s.station.keepsConditions = true →
    s.station.faults.standing = allConditions.filter s.station.holds →
    Gives .ackAttention s fun t =>
      (∀ n, s.station.faults.pendingNotice = some n →
        t.faults.active = some n ∧ t.faults.pendingNotice = none) ∧
      (s.station.faults.pendingNotice = none → t.faults.active = none ∧ t.faults.pendingNotice = none) ∧
      (∀ c, c ∈ t.faults.noticed ↔ c ∈ s.station.faults.noticed ∧ c ∈ s.station.faults.standing) ∧
      t.faults.lamp = t.lampMode ∧ t.audit.dropped = s.station.audit.dropped ∧ Done t ∧
      KeepsBut [.service, .message, .latch] s.station t

/-- R74, R75, R76; R103: a command taken while the payout is STOPPED sets tubes changed and nothing else of its record. -/
def Obligations.TubeCommandsAreTakenOrRefused : Prop :=
  ∀ (s : State) (tube count : Nat) (r : Tube) (noted : Payout) (named : Prop), s.station.serviceMode = true →
    r = s.station.tube tube →
    noted = (if s.station.payout.state = .stopped then { s.station.payout with tubesChanged := true }
      else s.station.payout) →
    (named ↔ s.station.cfg.role = .payment ∧ 1 ≤ tube ∧ tube ≤ 5 ∧ r.fitted = true) →
    ((named → 1 ≤ count → count ≤ 250 →
      ∃ estimate, estimate = (if r.lowSensor then min (min 250 (r.estimate + count)) r.lowMark
          else min 250 (r.estimate + count)) ∧
        Gives (.fillTube tube count) s fun t =>
          t.tube tube = { r with estimate := estimate } ∧ (∀ n, n ≠ tube → t.tube n = s.station.tube n) ∧
          t.coin.journal = journalWith s.station.coin.journal
            ⟨.fill, some tube, (estimate - r.estimate) * r.denomination, s.station.txn.credit⟩ ∧
          (estimate ≠ r.estimate → t.exactLit = indicatorLit t.cfg.coinTypes t.coin.tubes) ∧ Done t ∧
          t.payout = noted ∧
          KeepsBut [.service, .message, .tubes, .journal, .payout] s.station t) ∧
    (¬named ∨ count = 0 ∨ 250 < count → Gives (.fillTube tube count) s (RefusedWith .refused s.station))) ∧
    ((named → Gives (.emptyTube tube) s fun t =>
      t.tube tube = { r with estimate := 0 } ∧ (∀ n, n ≠ tube → t.tube n = s.station.tube n) ∧
      t.coin.journal = journalWith s.station.coin.journal
        ⟨.emptyTube, some tube, r.estimate * r.denomination, s.station.txn.credit⟩ ∧
      (r.estimate ≠ 0 → t.exactLit = indicatorLit t.cfg.coinTypes t.coin.tubes) ∧ Done t ∧
      t.payout = noted ∧
      KeepsBut [.service, .message, .tubes, .journal, .payout] s.station t) ∧
    (¬named → Gives (.emptyTube tube) s (RefusedWith .refused s.station))) ∧
    (named → r.status = .payoutFault → Gives (.clearTube tube) s fun t =>
      t.tube tube = { r with status := .usable } ∧ (∀ n, n ≠ tube → t.tube n = s.station.tube n) ∧
      t.exactLit = indicatorLit t.cfg.coinTypes t.coin.tubes ∧
      (s.station.keepsConditions = true →
        (∀ n, n ≠ tube → (s.station.tube n).fitted = true → (s.station.tube n).status = .usable) →
        s.station.coin.tubes.length = 5 → Condition.tubePayoutFault ∉ t.faults.standing) ∧ Done t ∧
      t.payout = noted ∧
      KeepsBut [.service, .message, .tubes, .payout] s.station t) ∧
    (¬named ∨ r.status = .usable → Gives (.clearTube tube) s (RefusedWith .refused s.station))

/-- R10, R11, R30, R193: REFILL fills every fitted spiral, CLEAR-SPIRAL clears a jammed one, TEST-VEND adds a test entry or
is refused by the first of R30's checks that fails, SHOW-AUDIT shows an item of 1 to 135. That CLEAR-SPIRAL is taken for a
fitted spiral whatever its price (notes/assumptions/36.md), and that SHOW-AUDIT taken shows no DONE
(notes/assumptions/24.md), are the model's readings. -/
def Obligations.SpiralAndAuditCommandsAct : Prop :=
  ∀ s : State, s.station.serviceMode = true →
    (Gives .refill s fun t =>
      Done t ∧ KeepsBut [.service, .message, .spirals] s.station t ∧ t.spirals.length = s.station.spirals.length ∧
      ∀ position, positionInRange position = true → position - 10 < s.station.spirals.length →
        (s.station.spiral position).fitted = true →
        (t.spiral position).stock = stockUnderNaming (.known (s.station.spiral position).capacity)
          (s.station.namingCount position) ∧
        (t.spiral position).status = (if (s.station.spiral position).status = .soldOut then .inService
          else (s.station.spiral position).status) ∧
        (t.spiral position).consecutiveEmpty = (s.station.spiral position).consecutiveEmpty) ∧
    (∀ position, positionInRange position = true → position - 10 < s.station.spirals.length →
      (s.station.spiral position).fitted = true →
      (∀ v, s.station.vend = some v → v.entry.position ≠ position) →
      (s.station.spiral position).status = .jammed ∨ (s.station.spiral position).status = .motorFault →
      Gives (.clearSpiral position) s fun t =>
        t.spiral position = { s.station.spiral position with status := .inService, stock := .unknown, consecutiveEmpty := 0 } ∧
        Done t ∧ KeepsBut [.service, .message, .spirals] s.station t) ∧
    (∀ position, s.station.clearSpiralTaken position = false →
      Gives (.clearSpiral position) s (RefusedWith .refused s.station)) ∧
    (∀ position r, r = s.station.spiral position → Gives (.testVend position) s fun t =>
      if s.station.namesPosition (position / 10) (position % 10) = false then RefusedWith .notAvail s.station t
      else if r.status = .jammed ∨ r.status = .motorFault then RefusedWith .jammed s.station t
      else if r.zone = .chilled ∧ s.station.cooling.coldHold = true then RefusedWith .hold s.station t
      else if s.station.chute.fault = true ∧ s.station.cfg.guarantee = true then RefusedWith .notAvail s.station t
      else if 4 ≤ s.station.queue.length then RefusedWith .notAvail s.station t
      else
        Done t ∧ t.queue.length = s.station.queue.length + 1 ∧
        (∃ e, t.queue.getLast? = some e ∧ e.test = true ∧ e.position = position ∧ e.payer = none ∧
          (e.state = .committed ∨ e.state = .vending)) ∧
        KeepsBut [.service, .message, .queue, .spirals, .vend, .power, .lineQueue, .cooling] s.station t) ∧
    (∀ item, 1 ≤ item → item ≤ 135 → Gives (.showAudit item) s fun t =>
      t.service = { ServiceEntry.blank with item := some item } ∧ t.panel.message = none ∧
      KeepsBut [.service, .message] s.station t) ∧
    (∀ item, item = 0 ∨ 135 < item → Gives (.showAudit item) s (RefusedWith .refused s.station))

/-- R137, R141, R150, R184: ACK-HOLD ends cold-hold when the air reading allows it, MANUAL-DEFROST makes a request,
CLEAR-COMPRESSOR leaves LATCHED with the trips forgotten, FORGET-PEERS keeps the PRESENT peers; refused, each changes
nothing. -/
def Obligations.CoolingAndBankCommandsAct : Prop :=
  ∀ s : State, s.station.serviceMode = true →
    (s.station.cfg.coolingFitted = true → s.station.cooling.coldHold = true → s.station.holdReadingGood = true →
      Gives .ackHold s fun t =>
        t.cooling.coldHold = false ∧ t.cooling.holdTimer = 0 ∧ Done t ∧
        KeepsBut [.service, .message, .cooling, .meters] s.station t) ∧
    (s.station.cfg.coolingFitted = true → s.station.cooling.coldHold = true → s.station.holdReadingGood = false →
      Gives .ackHold s (RefusedWith .hold s.station)) ∧
    (s.station.cfg.coolingFitted = false ∨ s.station.cooling.coldHold = false →
      Gives .ackHold s (RefusedWith .refused s.station)) ∧
    (s.station.cfg.coolingFitted = true → s.station.cooling.defrostRequest = false → s.station.cooling.phase = .none →
      Gives .manualDefrost s fun t =>
        Done t ∧ (t.cooling.defrostRequest = true ∨ t.cooling.compressor = .defrost) ∧
        (s.station.cooling.compressor = .idle ∨ s.station.cooling.compressor = .rest →
          t.cooling.compressor = .defrost ∧ t.cooling.defrostTimer = 0)) ∧
    (s.station.cfg.coolingFitted = false ∨ s.station.cooling.defrostRequest = true ∨ s.station.cooling.phase ≠ .none →
      Gives .manualDefrost s (RefusedWith .refused s.station)) ∧
    (s.station.cfg.coolingFitted = true → s.station.cooling.compressor = .latched →
      Gives .clearCompressor s fun t =>
        Done t ∧ t.cooling.tripTimes = [] ∧ t.cooling.compressor ≠ .latched ∧
        (s.station.cooling.sinceStop < 180000 → t.cooling.compressor = .rest)) ∧
    (s.station.cfg.coolingFitted = false ∨ s.station.cooling.compressor ≠ .latched →
      Gives .clearCompressor s (RefusedWith .refused s.station)) ∧
    Gives .forgetPeers s fun t =>
      Done t ∧ t.peers = s.station.peers.filter (fun p => p.presence = .present) ∧
      KeepsBut [.service, .message, .peers, .power, .lineQueue, .vend, .cooling, .latch] s.station t

/-! ### Frames as bytes (10) and change plans (05) -/

/-- R169 to R171: the bytes of a frame the station sends, and its bits, a start bit and nine for each byte, are read back
as the same command, every field at every value the frame admits. -/
def Obligations.FrameBytesReadBack : Prop :=
  ∀ (address : Nat) (f : Frame), 1 ≤ address → address ≤ 8 → f.dst ≤ 15 → (commandOf address f).wellFormed = true →
    readFrame (frameBytes address f) = some (commandOf address f) ∧
    readBits (frameBits address f) = some (commandOf address f) ∧
    (frameBits address f).length = 1 + 9 * (frameBytes address f).length

/-- R80 to R88, R109, R110, R93: a payout plan never pays more than the amount, pays it exactly when the search says so,
and takes from each tube no more than its estimate, no tube twice. Every step keeps the law of the money: escrow only while
COMMITTED and at the offer's price, IDLE and CREDIT by the credit, a payout exactly in PAYING, planned and paid within its
amount. No command but a start or a load event changes the sum of the money held and the money gone, but for the coin it
takes; that the unpaid part of a payout counts as held is the model's reading (notes/assumptions/20.md). -/
def Obligations.PayoutPlansAreSound : Prop :=
  (∀ (tubes : List Tube) (amount : Nat),
    planTotal (payoutPlan tubes amount) ≤ amount ∧
    (payableExactly tubes amount = true → planTotal (payoutPlan tubes amount) = amount) ∧
    ((payoutPlan tubes amount).flatMap fun e => e.tubes.map Prod.fst).Nodup ∧
    ∀ e ∈ payoutPlan tubes amount, e.count ≠ 0 ∧ (e.tubes.map Prod.snd).sum = e.count ∧
      ∀ a ∈ e.tubes, ∃ t, tubes[a.1 - 1]? = some t ∧ t.fitted = true ∧ t.status = .usable ∧
        t.denomination = e.denomination ∧ a.2 ≤ t.estimate) ∧
  (∀ s t : State, MoneyLaw s.station → step s = .next t → MoneyLaw t.station) ∧
  ∀ (c : Instr) (s t : State), MoneyLaw s.station → c ≠ .powerOn → c ≠ .resetInput → (∀ inp, c ≠ .loadEvent inp) →
    s.station.held + s.station.gone + s.station.takenValue c ≤ 4294967295 → exec c s = .next t →
    t.station.held + t.station.gone = s.station.held + s.station.gone + s.station.takenValue c
end

