-- ==== Sys2Proof/Laws/Finish.lean ====
section
/-! SUPPORT. What the end of an event can do: which regions of the station it keeps (`finish_same`), and the shape of each
operation it is made of. -/

namespace Sys2Proof.Laws

open Sys2Proof.Machine

/-- `t` is `s` but for the transmit queue and its overflow counter. -/
def Hands (s t : Station) : Prop :=
  ∃ q n, t = { s with line := { s.line with queue := q }, audit := { s.audit with txOverflow := n } }

theorem Hands.refl (s : Station) : Hands s s := ⟨s.line.queue, s.audit.txOverflow, rfl⟩

theorem handFrame_hands (s : Station) (f : Frame) : Hands s (s.handFrame f).1 := by
  unfold Station.handFrame
  split
  · cases h : queueFrame s.line.queue f with
    | mk q taken => cases taken <;> exact ⟨_, _, rfl⟩
  · exact Hands.refl s

theorem hand_hands (s : Station) (dst : Nat) (body : FrameBody) : Hands s (s.hand dst body) := handFrame_hands s _

/-- `t` is `s` but for the transmit queue and the power budget unit. -/
def Loads (s t : Station) : Prop :=
  ∃ q n p, t = { s with
    line := { s.line with queue := q }, audit := { s.audit with txOverflow := n }, power := p }

theorem Loads.refl (s : Station) : Loads s s := ⟨s.line.queue, s.audit.txOverflow, s.power, rfl⟩

theorem Loads.power (s : Station) (p : Power) : Loads s { s with power := p } :=
  ⟨s.line.queue, s.audit.txOverflow, p, rfl⟩

theorem Hands.loads {s t : Station} (h : Hands s t) : Loads s t := by
  obtain ⟨q, n, rfl⟩ := h
  exact ⟨q, n, s.power, rfl⟩

theorem Loads.trans {s t u : Station} (h : Loads s t) (k : Loads t u) : Loads s u := by
  obtain ⟨q, n, p, rfl⟩ := h
  obtain ⟨q', n', p', rfl⟩ := k
  exact ⟨q', n', p', rfl⟩

theorem readyAll_loads (s : Station) : Loads s s.readyAll := Loads.power s _

theorem roomMade_loads (s : Station) : Loads s s.roomMade := by
  unfold Station.roomMade
  split
  · exact readyAll_loads s
  · exact Loads.refl s

theorem bankRoomMade_loads (s : Station) : Loads s s.bankRoomMade := by
  unfold Station.bankRoomMade
  split
  · exact readyAll_loads s
  · exact Loads.refl s

theorem releaseSlot_loads (s : Station) (cls : LoadClass) : Loads s (s.releaseSlot cls) := by
  unfold Station.releaseSlot
  split
  · exact Loads.refl s
  · have h := (Loads.power s (s.power.setSlot cls none)).trans (roomMade_loads _)
    dsimp only
    split
    · exact h.trans (hand_hands _ _ _).loads
    · exact h

theorem request_loads (s : Station) (cls : LoadClass) (power : Fig) : Loads s (s.request cls power) := by
  unfold Station.request
  split
  · split
    · exact ((Loads.power s _).trans (roomMade_loads _)).trans (hand_hands _ _ _).loads
    · exact Loads.refl s
  · split <;> exact Loads.power s _

theorem withdrawRequest_loads (s : Station) (cls : LoadClass) : Loads s (s.withdrawRequest cls) := Loads.power s _

theorem claim_loads (s : Station) (r : Request) : Loads s (s.claim r) := by
  have h := (handFrame_hands s ⟨0, .claim r.cls r.rank r.power, true⟩).loads
  unfold Station.claim
  split <;> rename_i heq <;> rw [heq] at h <;> exact h.trans (Loads.power _ _)

theorem checkActive_loads (s : Station) (r : Request) : Loads s (s.checkActive r) := by
  unfold Station.checkActive
  dsimp only
  split
  · exact (Loads.power s _).trans (claim_loads _ _)
  · exact (Loads.power s _).trans (Loads.power _ _)

/-- What handing grants can do: the power budget unit and the transmit queue may change; the vend in flight only when it
is in CLAIMING, the cooling controller only in WAIT-POWER or HEATER-WAIT. -/
def Grants (s t : Station) : Prop :=
  ∃ q n p v c,
    t = { s with
      line := { s.line with queue := q }, audit := { s.audit with txOverflow := n }, power := p, vend := v, cooling := c } ∧
    (s.vendIn .claiming = false → v = s.vend) ∧ (s.cooling.waits = false → c = s.cooling) ∧
    c.measured = s.cooling.measured

theorem Loads.grants {s t : Station} (h : Loads s t) : Grants s t := by
  obtain ⟨q, n, p, rfl⟩ := h
  exact ⟨q, n, p, s.vend, s.cooling, rfl, fun _ => rfl, fun _ => rfl, rfl⟩

theorem Grants.trans {s t u : Station} (h : Grants s t) (k : Grants t u) : Grants s u := by
  obtain ⟨q, n, p, v, c, rfl, hv, hc, hm⟩ := h
  obtain ⟨q', n', p', v', c', rfl, kv, kc, km⟩ := k
  refine ⟨q', n', p', v', c', rfl, fun h => ?_, fun h => ?_, km.trans hm⟩
  · obtain rfl := hv h
    exact kv h
  · obtain rfl := hc h
    exact kc h

theorem handGrant_grants (s : Station) (cls : LoadClass) : Grants s (s.handGrant cls) := by
  cases cls with
  | vendMotor =>
    change Grants s s.vendMotorGranted
    unfold Station.vendMotorGranted
    split
    · rename_i v hv
      split
      · rename_i hp
        unfold Station.energise
        rw [hv]
        refine ⟨s.line.queue, s.audit.txOverflow, s.power, _, s.cooling, rfl, fun hm => ?_, fun _ => rfl, rfl⟩
        simp [Station.vendIn, hv, hp] at hm
      · exact (releaseSlot_loads s _).grants
    · exact (releaseSlot_loads s _).grants
  | compressor =>
    change Grants s s.compressorGranted
    unfold Station.compressorGranted
    split
    · rename_i hp
      refine ⟨s.line.queue, s.audit.txOverflow, s.power, s.vend, _, rfl, fun _ => rfl, fun hm => ?_, rfl⟩
      simp [Cooling.waits, hp] at hm
    · exact (releaseSlot_loads s _).grants
  | defrostHeater =>
    change Grants s s.heaterGranted
    unfold Station.heaterGranted
    split
    · rename_i hp
      refine ⟨s.line.queue, s.audit.txOverflow, s.power, s.vend, _, rfl, fun _ => rfl, fun hm => ?_, rfl⟩
      simp [Cooling.waits, hp] at hm
    · exact (releaseSlot_loads s _).grants

theorem grant_grants (s : Station) (r : Request) : Grants s (s.grant r) := by
  unfold Station.grant
  exact ((Loads.power s _).trans (Loads.power _ _)).grants.trans (handGrant_grants _ _)

theorem checkIsolated_grants (s : Station) (r : Request) : Grants s (s.checkIsolated r) := by
  unfold Station.checkIsolated
  dsimp only
  split
  · exact (Loads.power s _).grants.trans (grant_grants _ _)
  · exact ((Loads.power s _).trans (Loads.power _ _)).grants

theorem admitFor_grants (n : Nat) (s : Station) : Grants s (admitFor n s) := by
  induction n generalizing s with
  | zero => exact (Loads.refl s).grants
  | succ n ih =>
    unfold admitFor
    split
    · exact (Loads.refl s).grants
    · rename_i s1 h1
      refine Grants.trans ?_ (ih s1)
      unfold Station.checkOne at h1
      split at h1
      · simp at h1
      · split at h1
        · split at h1
          · simp at h1
          · cases h1
            exact (checkActive_loads _ _).grants
        · split at h1
          · cases h1
            exact checkIsolated_grants _ _
          · simp at h1

theorem admit_grants (s : Station) : Grants s s.admitLoads := admitFor_grants 12 s

/-- With no check to make there is nothing to be granted. -/
theorem admit_of_settled (s : Station) (h : s.loadsSettled = true) : s.admitLoads = s := by
  have hc : s.checkOne = none := by
    unfold Station.checkOne
    unfold Station.loadsSettled at h
    cases hb : bestReady s.power.requests with
    | none => rfl
    | some r =>
      cases ha : s.active <;> cases hw : windowHeld s.power.requests <;> cases hi : s.line.state.isIsolated <;>
        simp_all
  simp [Station.admitLoads, admitFor, hc]

/-! ### The pieces of the end of an event -/

theorem evaluateIfChanged_shape (s o : Station) : ∃ lit, s.evaluateIfChanged o = { s with exactLit := lit } := by
  unfold Station.evaluateIfChanged
  split <;> exact ⟨_, rfl⟩

theorem resetIce_shape (s : Station) : ∃ c, s.resetIce = { s with cooling := c } ∧ c.owned = s.cooling.owned := by
  unfold Station.resetIce
  split <;> exact ⟨_, rfl, rfl⟩

/-- The sets of R59 and their transmitter changed. -/
def Masks (s t : Station) : Prop :=
  ∃ li lr tr wi wr, t = { s with coin := { s.coin with
    lastInhibit := li, lastRoute := lr, onTransmitter := tr, waitingInhibit := wi, waitingRoute := wr } }

theorem Masks.refl (s : Station) : Masks s s := ⟨_, _, _, _, _, rfl⟩

theorem sendInhibit_masks (s : Station) (types : List Nat) : Masks s (s.sendInhibit types) := by
  unfold Station.sendInhibit
  split <;> exact ⟨_, _, _, _, _, rfl⟩

theorem sendRoute_masks (s : Station) (types : List Nat) : Masks s (s.sendRoute types) := by
  unfold Station.sendRoute
  split <;> exact ⟨_, _, _, _, _, rfl⟩

theorem Masks.trans {s t u : Station} (h : Masks s t) (k : Masks t u) : Masks s u := by
  obtain ⟨_, _, _, _, _, rfl⟩ := h
  obtain ⟨_, _, _, _, _, rfl⟩ := k
  exact ⟨_, _, _, _, _, rfl⟩

theorem sendMasks_masks (s : Station) : Masks s s.sendMasks := by
  unfold Station.sendMasks
  split
  · exact (sendInhibit_masks _ _).trans (sendRoute_masks _ _)
  · exact Masks.refl s

theorem sendChangedMasks_masks (s : Station) : Masks s s.sendChangedMasks := by
  unfold Station.sendChangedMasks
  split
  · dsimp only
    split <;> split
    · exact Masks.refl s
    · exact sendRoute_masks _ _
    · exact sendInhibit_masks _ _
    · exact (sendInhibit_masks _ _).trans (sendRoute_masks _ _)
  · exact Masks.refl s

theorem raise_noticeTaken (s : Station) (n : Notice) : NoticeTaken s (s.raise n) n := by
  unfold NoticeTaken Station.raise
  cases ha : s.faults.active <;> cases hp : s.faults.pendingNotice <;> simp [ha, hp, raiseTo]

/-- The one notice of an event is its first. -/
theorem NoticeTaken.first {u t : Station} {n : Notice} (h : NoticeTaken u t n) : NoticeFirst u t n := by
  refine ⟨fun ha => ⟨(h.1 ha).1, fun hp => Or.inl ((h.1 ha).2.1.trans hp)⟩, fun ha => ?_, fun _ => h⟩
  obtain ⟨hact, hfree, hfull⟩ := h.2 ha
  exact ⟨hact, fun hp => (hfree hp).1, fun hp => ⟨(hfull hp).1, Nat.le_of_eq (hfull hp).2.symm⟩⟩

/-- The latch after one notice (R188): nothing else changes. -/
theorem raise_shape (s : Station) (n : Notice) :
    ∃ a p d, s.raise n = { s with
      faults := { s.faults with active := a, pendingNotice := p }, audit := { s.audit with dropped := d } } := by
  unfold Station.raise
  split
  · exact ⟨_, _, _, rfl⟩
  · split <;> exact ⟨_, _, _, rfl⟩

theorem updateConditions_shape (s : Station) :
    ∃ st no, s.updateConditions = { s with faults := { s.faults with standing := st, noticed := no } } := by
  unfold Station.updateConditions Station.takeConditions
  split <;> exact ⟨_, _, rfl⟩

theorem driveLamp_shape (s : Station) :
    ∃ l f t, s.driveLamp = { s with faults := { s.faults with lamp := l, flashOn := f, flashTimer := t } } := by
  unfold Station.driveLamp
  split <;> exact ⟨_, _, _, rfl⟩

theorem driveAlternation_shape (s : Station) :
    ∃ a b t, s.driveAlternation = { s with
      panel := { s.panel with alternation := a, secondShown := b, alternationTimer := t } } := by
  unfold Station.driveAlternation
  split <;> exact ⟨_, _, _, rfl⟩

/-- The end of an event keeps every region as the body left it. -/
theorem finish_same (o s : Station) (p : Region) : p.same s (finish o s) := by
  unfold finish Station.driveOutputs
  obtain ⟨lit, h1⟩ := evaluateIfChanged_shape s o
  rw [h1]
  have hn := admit_of_settled { s with exactLit := lit }
  obtain ⟨q, n, pw, v, c, h2, hgv, hgc, hgm⟩ := admit_grants { s with exactLit := lit }
  rw [h2] at hn ⊢
  obtain ⟨ice, h3, hice⟩ := resetIce_shape { s with
    exactLit := lit, line := { s.line with queue := q }, audit := { s.audit with txOverflow := n }, power := pw,
    vend := v, cooling := c }
  rw [h3]
  generalize hm : Station.sendChangedMasks _ = m
  have h4 := sendChangedMasks_masks { s with
    exactLit := lit, line := { s.line with queue := q }, audit := { s.audit with txOverflow := n }, power := pw,
    vend := v, cooling := ice }
  rw [hm] at h4
  obtain ⟨li, lr, tr, wi, wr, rfl⟩ := h4
  clear hm
  generalize hu : Station.updateConditions _ = u
  have h5 := updateConditions_shape { s with
    exactLit := lit, line := { s.line with queue := q }, audit := { s.audit with txOverflow := n }, power := pw,
    vend := v, cooling := ice,
    coin := { s.coin with
      lastInhibit := li, lastRoute := lr, onTransmitter := tr, waitingInhibit := wi, waitingRoute := wr } }
  rw [hu] at h5
  obtain ⟨st, no, rfl⟩ := h5
  clear hu
  generalize hl : Station.driveLamp _ = l
  have h6 := driveLamp_shape { s with
    exactLit := lit, line := { s.line with queue := q },
    audit := { s.audit with txOverflow := n }, power := pw, vend := v, cooling := ice,
    coin := { s.coin with
      lastInhibit := li, lastRoute := lr, onTransmitter := tr, waitingInhibit := wi, waitingRoute := wr },
    faults := { s.faults with standing := st, noticed := no } }
  rw [hl] at h6
  obtain ⟨lm, fo, ft, rfl⟩ := h6
  clear hl
  generalize hb : Station.driveAlternation _ = b
  have h7 := driveAlternation_shape { s with
    exactLit := lit, line := { s.line with queue := q },
    audit := { s.audit with txOverflow := n }, power := pw, vend := v, cooling := ice,
    coin := { s.coin with
      lastInhibit := li, lastRoute := lr, onTransmitter := tr, waitingInhibit := wi, waitingRoute := wr },
    faults := { s.faults with
      standing := st, noticed := no, lamp := lm, flashOn := fo, flashTimer := ft } }
  rw [hb] at h7
  obtain ⟨al, sh, at', rfl⟩ := h7
  clear hb
  unfold Station.drivePins
  cases p <;> try first | rfl | exact ⟨rfl, rfl⟩ | exact ⟨rfl, rfl, rfl⟩ | exact ⟨rfl, rfl, rfl, rfl, rfl⟩
  case vend =>
    rintro (h | h)
    · have hv := congrArg Station.vend (hn h)
      exact hv
    · exact hgv h
  case meters =>
    have hi := congrArg Cooling.measured hice
    exact hi.trans hgm
  case cooling =>
    rintro (h | h)
    · have hc := congrArg (fun x : Station => x.cooling.owned) (hn h)
      exact hice.trans hc
    · exact hice.trans (congrArg Cooling.owned (hgc h))
  case power =>
    intro h
    have hp := congrArg Station.power (hn h)
    exact hp
  case lineQueue =>
    intro h
    have hq := congrArg (fun x : Station => x.line.queue) (hn h)
    have ho := congrArg (fun x : Station => x.audit.txOverflow) (hn h)
    exact ⟨hq, ho⟩

end Sys2Proof.Laws
end

