-- ==== Sys2Proof/Laws/Frames.lean ====
section
/-! SUPPORT. What each shared operation of the station can change: `Kept l a b` says that `b` is as `a` in every region but
those of `l`. One lemma per operation; `finish_of_kept` carries a kept region through the end of an event. -/

namespace Sys2Proof.Laws

open Sys2Proof.Machine

/-- A region of `b` is as it is in `a`, without the reservations of `Region.same`. -/
def Region.kept : Region → Station → Station → Prop
  | .clock, a, b => b.now = a.now
  | .setup, a, b =>
    (b.start, b.built, b.configInvalid, b.seqCount, b.cfg) = (a.start, a.built, a.configInvalid, a.seqCount, a.cfg)
  | .spirals, a, b => b.spirals = a.spirals
  | .home, a, b => b.homeOpen = a.homeOpen
  | .queue, a, b => b.queue = a.queue
  | .vend, a, b => b.vend = a.vend
  | .chute, a, b => b.chute = a.chute
  | .tubes, a, b => b.coin.tubes = a.coin.tubes
  | .journal, a, b => (b.coin.journal, b.coin.overrun) = (a.coin.journal, a.coin.overrun)
  | .coinLink, a, b =>
    (b.coin.statusTimer, b.coin.faultStands, b.coin.faultCode) = (a.coin.statusTimer, a.coin.faultStands, a.coin.faultCode)
  | .payout, a, b => b.payout = a.payout
  | .txn, a, b => b.txn = a.txn
  | .buffer, a, b => (b.panel.buffer, b.panel.bufferTimer) = (a.panel.buffer, a.panel.bufferTimer)
  | .message, a, b =>
    (b.panel.message, b.panel.messageTimer, b.panel.messageLength) =
      (a.panel.message, a.panel.messageTimer, a.panel.messageLength)
  | .service, a, b => b.service = a.service
  | .meters, a, b => b.cooling.measured = a.cooling.measured
  | .cooling, a, b => b.cooling = a.cooling
  | .power, a, b => b.power = a.power
  | .line, a, b => b.line.owned = a.line.owned
  | .lineQueue, a, b => (b.line.queue, b.audit.txOverflow) = (a.line.queue, a.audit.txOverflow)
  | .peers, a, b => b.peers = a.peers
  | .door, a, b =>
    (b.faults.doorOpen, b.faults.doorTimer, b.faults.doorLeftOpen) =
      (a.faults.doorOpen, a.faults.doorTimer, a.faults.doorLeftOpen)
  | .latch, a, b =>
    (b.faults.active, b.faults.pendingNotice, b.audit.dropped) = (a.faults.active, a.faults.pendingNotice, a.audit.dropped)
  | .counters, a, b => b.audit.owned = a.audit.owned

/-- Every region but the listed ones is kept. -/
def Kept (l : List Region) (a b : Station) : Prop := ∀ r, r ∉ l → Region.kept r a b

theorem Kept.refl (l : List Region) (s : Station) : Kept l s s := by
  intro r _
  cases r <;> rfl

theorem Region.kept_trans {r : Region} {a b c : Station} (h : Region.kept r a b) (k : Region.kept r b c) :
    Region.kept r a c := by
  cases r <;> exact k.trans h

theorem Kept.trans {l : List Region} {a b c : Station} (h : Kept l a b) (k : Kept l b c) : Kept l a c :=
  fun r hr => Region.kept_trans (h r hr) (k r hr)

/-- A longer list says less. -/
theorem Kept.mono {l m : List Region} {a b : Station} (h : Kept l a b) (hlm : ∀ r, r ∈ l → r ∈ m) : Kept m a b :=
  fun r hr => h r fun hl => hr (hlm r hl)

/-- Where the loads and the line state are kept, no check is to be made as before. -/
theorem loadsSettled_kept {a b : Station} (hp : Region.kept .power a b) (hl : Region.kept .line a b) :
    b.loadsSettled = a.loadsSettled := by
  have hs : b.line.state = a.line.state := by
    have h : b.line.owned.state = a.line.owned.state := by rw [show b.line.owned = a.line.owned from hl]
    exact h
  have hp' : b.power = a.power := hp
  simp [Station.loadsSettled, Station.active, hs, hp']

/-- The latched clash of R176 belongs to the line. -/
theorem clashLatched_kept {a b : Station} (h : Region.kept .line a b) : b.line.clashLatched = a.line.clashLatched :=
  show b.line.owned.clashLatched = a.line.owned.clashLatched from congrArg Line.clashLatched h

/-- The end of an event leaves the latched clash. -/
theorem finish_clashLatched (o s : Station) : (finish o s).line.clashLatched = s.line.clashLatched :=
  show (finish o s).line.owned.clashLatched = s.line.owned.clashLatched from
    congrArg Line.clashLatched (finish_same o s .line)

/-- A region that the body keeps is the same after the event, when the regions it rests on are kept with it. -/
theorem finish_of_kept (o : Station) {a b : Station} {l : List Region} (h : Kept l a b) (r : Region) (hr : r ∉ l)
    (hload : r = .vend ∨ r = .cooling ∨ r = .power ∨ r = .lineQueue → .power ∉ l ∧ .line ∉ l) :
    r.same a (finish o b) := by
  have k := h r hr
  have f := finish_same o b r
  cases r
  case vend =>
    have hl := hload (by simp)
    intro hc
    rw [← loadsSettled_kept (h _ hl.1) (h _ hl.2)] at hc
    have hv : b.vend = a.vend := k
    rw [← hv]
    refine f (hc.imp id fun hv' => ?_)
    simpa [Station.vendIn, hv] using hv'
  case cooling =>
    have hl := hload (by simp)
    intro hc
    rw [← loadsSettled_kept (h _ hl.1) (h _ hl.2)] at hc
    have hk : b.cooling = a.cooling := k
    rw [← hk] at hc ⊢
    exact f hc
  case power =>
    have hl := hload (by simp)
    intro hc
    rw [← loadsSettled_kept (h _ hl.1) (h _ hl.2)] at hc
    exact (f hc).trans k
  case lineQueue =>
    have hl := hload (by simp)
    intro hc
    rw [← loadsSettled_kept (h _ hl.1) (h _ hl.2)] at hc
    have hk := Prod.mk.inj (show (b.line.queue, b.audit.txOverflow) = _ from k)
    exact ⟨(f hc).1.trans hk.1, (f hc).2.trans hk.2⟩
  case latch =>
    have hk := Prod.mk.inj (show (b.faults.active, b.faults.pendingNotice, b.audit.dropped) = _ from k)
    have hk2 := Prod.mk.inj hk.2
    exact ⟨f.1.trans hk.1, f.2.1.trans hk2.1, f.2.2.trans hk2.2⟩
  all_goals simp_all [Region.same, Region.kept]

/-! ### One lemma per operation -/

theorem hand_kept (s : Station) (dst : Nat) (body : FrameBody) : Kept [.lineQueue] s (s.hand dst body) := by
  obtain ⟨q, n, h⟩ := hand_hands s dst body
  rw [h]
  intro r hr
  cases r <;> first | exact absurd (by decide) hr | rfl

theorem raise_kept (s : Station) (n : Notice) : Kept [.latch] s (s.raise n) := by
  obtain ⟨a, p, d, h⟩ := raise_shape s n
  rw [h]
  intro r hr
  cases r <;> first | exact absurd (by decide) hr | rfl

/-- The power budget unit and the transmit queue changed. -/
theorem Loads.kept {s t : Station} (h : Loads s t) : Kept [.power, .lineQueue] s t := by
  obtain ⟨q, n, p, rfl⟩ := h
  intro r hr
  cases r <;> first | exact absurd (by decide) hr | rfl

theorem request_kept (s : Station) (cls : LoadClass) (power : Fig) : Kept [.power, .lineQueue] s (s.request cls power) :=
  (request_loads s cls power).kept

theorem releaseSlot_kept (s : Station) (cls : LoadClass) : Kept [.power, .lineQueue] s (s.releaseSlot cls) :=
  (releaseSlot_loads s cls).kept

theorem withdrawRequest_kept (s : Station) (cls : LoadClass) : Kept [.power, .lineQueue] s (s.withdrawRequest cls) :=
  (withdrawRequest_loads s cls).kept

theorem roomMade_kept (s : Station) : Kept [.power, .lineQueue] s s.roomMade := (roomMade_loads s).kept

theorem bankRoomMade_kept (s : Station) : Kept [.power, .lineQueue] s s.bankRoomMade := (bankRoomMade_loads s).kept

theorem setCooling_kept (s : Station) (f : Cooling → Cooling) : Kept [.cooling, .meters] s (s.setCooling f) := by
  unfold Station.setCooling
  intro r hr
  cases r <;> first | exact absurd (by decide) hr | rfl
theorem setSpiral_kept (s : Station) (position : Nat) (f : Spiral → Spiral) : Kept [.spirals] s (s.setSpiral position f) := by
  unfold Station.setSpiral
  repeat' split
  all_goals
    intro r hr
    cases r <;> first | exact absurd (by decide) hr | rfl

theorem setTube_kept (s : Station) (tube : Nat) (f : Tube → Tube) : Kept [.tubes] s (s.setTube tube f) := by
  unfold Station.setTube
  repeat' split
  all_goals
    intro r hr
    cases r <;> first | exact absurd (by decide) hr | rfl

theorem setMessage_kept (s : Station) (m : Message) (length : Nat) : Kept [.message] s (s.setMessage m length) := by
  unfold Station.setMessage
  intro r hr
  cases r <;> first | exact absurd (by decide) hr | rfl

theorem showCustomer_kept (s : Station) (m : Message) (length : Nat) : Kept [.message] s (s.showCustomer m length) := by
  unfold Station.showCustomer
  split
  · exact Kept.refl _ s
  · exact setMessage_kept s m length

theorem showService_kept (s : Station) (m : Message) : Kept [.message] s (s.showService m) := by
  unfold Station.showService
  split
  · exact setMessage_kept s m _
  · exact Kept.refl _ s

theorem writeJournal_kept (s : Station) (e : JournalEntry) : Kept [.journal] s (s.writeJournal e) := by
  unfold Station.writeJournal
  repeat' split
  all_goals
    intro r hr
    cases r <;> first | exact absurd (by decide) hr | rfl

theorem sendMasks_kept (s : Station) : Kept [] s (s.sendMasks) := by
  obtain ⟨_, _, _, _, _, h⟩ := sendMasks_masks s
  rw [h]
  intro r hr
  cases r <;> rfl

theorem sendInhibit_kept (s : Station) (types : List Nat) : Kept [] s (s.sendInhibit types) := by
  obtain ⟨_, _, _, _, _, h⟩ := sendInhibit_masks s types
  rw [h]
  intro r hr
  cases r <;> rfl

theorem applyNaming_kept (s : Station) (position : Nat) : Kept [.spirals] s (s.applyNaming position) := by
  exact setSpiral_kept s position _

theorem recordOutcome_kept (s : Station) (o : Outcome) (drops position : Nat) (test : Bool) : Kept [.spirals, .counters, .latch] s (s.recordOutcome o drops position test) := by
  have h : Kept [.spirals, .counters, .latch] s { s.setSpiral position (outcomeRecord o drops) with
      audit := { (s.setSpiral position (outcomeRecord o drops)).audit with
        spiralSales := salesAfter (s.setSpiral position (outcomeRecord o drops)).audit.spiralSales o position test } } := by
    refine ((setSpiral_kept s position (outcomeRecord o drops)).mono (by decide)).trans ?_
    intro r hr
    cases r <;> first | exact absurd (by decide) hr | rfl
  unfold Station.recordOutcome
  dsimp only
  split
  · exact h.trans ((raise_kept _ _).mono (by decide))
  · exact h

theorem foldl_applyNaming_kept (positions : List Nat) (s : Station) :
    Kept [.spirals] s (positions.foldl Station.applyNaming s) := by
  induction positions generalizing s with
  | nil => exact Kept.refl _ s
  | cons p rest ih => exact (applyNaming_kept s p).trans (ih _)

theorem refill_kept (s : Station) : Kept [.spirals] s (s.refill) := by
  refine Kept.trans (b := { s with spirals := s.spirals.map refillRecord }) ?_ (foldl_applyNaming_kept _ _)
  intro r hr
  cases r <;> first | exact absurd (by decide) hr | rfl

theorem addCredit_kept (s : Station) (n : Nat) : Kept [.txn, .counters] s (s.addCredit n) := by
  unfold Station.addCredit
  intro r hr
  cases r <;> first | exact absurd (by decide) hr | rfl

theorem toResting_kept (s : Station) : Kept [.txn] s (s.toResting) := by
  unfold Station.toResting
  intro r hr
  cases r <;> first | exact absurd (by decide) hr | rfl

theorem restartInactivity_kept (s : Station) : Kept [.txn] s (s.restartInactivity) := by
  unfold Station.restartInactivity
  intro r hr
  cases r <;> first | exact absurd (by decide) hr | rfl

theorem payoutDone_kept (s : Station) (remainder : Nat) : Kept [.txn, .counters, .latch] s (s.payoutDone remainder) := by
  have h : Kept [.txn, .counters, .latch] s (s.addCredit remainder).toResting :=
    ((addCredit_kept s remainder).mono (by decide)).trans ((toResting_kept _).mono (by decide))
  unfold Station.payoutDone
  dsimp only
  split
  · exact h
  · refine (h.trans ?_).trans ((raise_kept _ _).mono (by decide))
    intro r hr
    cases r <;> first | exact absurd (by decide) hr | rfl

/-- Only the payout record changed. -/
theorem payout_kept (s : Station) (p : Payout) : Kept [.payout] s { s with payout := p } := by
  intro r hr
  cases r <;> first | exact absurd (by decide) hr | rfl

theorem endPayout_kept (s : Station) : Kept [.payout, .txn, .counters, .latch] s (s.endPayout) := by
  exact ((payout_kept s _).mono (by decide)).trans ((payoutDone_kept _ _).mono (by decide))

theorem beginRun_kept (s : Station) : Kept [.payout] s (s.beginRun) := by
  unfold Station.beginRun
  repeat' split
  all_goals
    intro r hr
    cases r <;> first | exact absurd (by decide) hr | rfl

theorem beginCoin_kept (s : Station) : Kept [.payout] s (s.beginCoin) := by
  unfold Station.beginCoin
  repeat' split
  all_goals
    intro r hr
    cases r <;> first | exact absurd (by decide) hr | rfl

theorem nextCoin_kept (s : Station) : Kept [.payout] s (s.nextCoin) := by
  unfold Station.nextCoin
  split
  · exact beginCoin_kept s
  · exact Kept.refl _ s

theorem takePlan_kept (s : Station) : Kept [.payout] s (s.takePlan) := by
  exact (payout_kept s _).trans (beginRun_kept _)

theorem stopPayout_kept (s : Station) : Kept [.payout] s (s.stopPayout) := by
  unfold Station.stopPayout
  intro r hr
  cases r <;> first | exact absurd (by decide) hr | rfl

theorem startPayout_kept (s : Station) (amount : Nat) : Kept [.payout, .txn, .counters, .latch] s (s.startPayout amount) := by
  unfold Station.startPayout
  split
  · dsimp only
    have h := ((payout_kept s { Payout.blank with
      state := .running, amount := amount, pulseOn := s.payout.pulseOn, pulseTimer := s.payout.pulseTimer }).trans
      (takePlan_kept _)).mono (m := [.payout, .txn, .counters, .latch]) (by decide)
    split
    · exact h.trans (endPayout_kept _)
    · split
      · exact h.trans ((stopPayout_kept _).mono (by decide))
      · exact h.trans ((nextCoin_kept _).mono (by decide))
  · exact Kept.refl _ s

/-- Only the credit record changed. -/
theorem txn_kept (s : Station) (t : Txn) : Kept [.txn] s { s with txn := t } := by
  intro r hr
  cases r <;> first | exact absurd (by decide) hr | rfl

/-- Only audit counters that belong to their blocks changed. -/
theorem audit_kept (s : Station) (a : Audit) (h : (a.txOverflow, a.dropped) = (s.audit.txOverflow, s.audit.dropped)) :
    Kept [.counters] s { s with audit := a } := by
  have h := Prod.mk.inj h
  intro r hr
  cases r <;> first | exact absurd (by decide) hr | rfl | skip
  · exact Prod.ext rfl h.1
  · exact Prod.ext rfl (Prod.ext rfl h.2)

theorem returnPayout_kept (s : Station) : Kept [.payout, .txn, .counters, .latch] s (s.returnPayout) := by
  exact ((txn_kept s _).mono (by decide)).trans (startPayout_kept _ _)

theorem takeCoinFrom_kept (s : Station) (tube : Nat) : Kept [.tubes, .counters] s (s.takeCoinFrom tube) := by
  unfold Station.takeCoinFrom
  split
  · intro r hr
    cases r <;> first | exact absurd (by decide) hr | rfl
  · exact (setTube_kept s _ _).mono (by decide)

theorem confirmCoin_kept (s : Station) (tube denomination : Nat) : Kept [.payout, .tubes, .journal, .counters] s (s.confirmCoin tube denomination) := by
  unfold Station.confirmCoin
  dsimp only
  refine Kept.trans ?_ ((audit_kept _ _ ?_).mono (by decide))
  · refine Kept.trans ?_ ((writeJournal_kept _ _).mono (by decide))
    refine Kept.trans ?_ ((payout_kept _ _).mono (by decide))
    exact ((payout_kept s _).mono (by decide)).trans ((takeCoinFrom_kept _ _).mono (by decide))
  · rfl

theorem afterConfirm_kept (s : Station) (runEnded : Bool) : Kept [.payout, .txn, .counters, .latch] s (s.afterConfirm runEnded) := by
  unfold Station.afterConfirm
  split
  · exact endPayout_kept s
  · dsimp only
    split
    · split
      · exact ((beginRun_kept s).trans (stopPayout_kept _)).mono (by decide)
      · exact ((beginRun_kept s).trans (nextCoin_kept _)).mono (by decide)
    · split
      · exact (stopPayout_kept s).mono (by decide)
      · exact (nextCoin_kept s).mono (by decide)

theorem coutEdge_kept (s : Station) : Kept [.payout, .tubes, .journal, .counters, .txn, .latch] s (s.coutEdge) := by
  unfold Station.coutEdge
  split
  · exact ((confirmCoin_kept s _ _).mono (by decide)).trans ((afterConfirm_kept _ _).mono (by decide))
  · exact Kept.refl _ s

theorem tubeFault_kept (s : Station) (tube : Nat) : Kept [.payout, .tubes, .counters, .txn, .latch] s (s.tubeFault tube) := by
  have h : Kept [.payout, .tubes, .counters, .txn, .latch] s
      (((s.setTube tube fun t => { t with status := .payoutFault }).raise (.tube tube)).takePlan) :=
    (((setTube_kept s _ _).mono (by decide)).trans ((raise_kept _ _).mono (by decide))).trans
      ((takePlan_kept _).mono (by decide))
  unfold Station.tubeFault
  dsimp only
  split
  · exact h.trans ((endPayout_kept _).mono (by decide))
  · split
    · exact h.trans ((stopPayout_kept _).mono (by decide))
    · exact h.trans ((payout_kept _ _).mono (by decide))

theorem missCoin_kept (s : Station) : Kept [.payout, .tubes, .counters, .txn, .latch] s (s.missCoin) := by
  unfold Station.missCoin
  split
  · exact Kept.refl _ s
  · dsimp only
    refine ((payout_kept s { s.payout with pulseOn := none }).mono (by decide)).trans ?_
    split
    · exact tubeFault_kept _ _
    · split
      · exact (stopPayout_kept _).mono (by decide)
      · exact (payout_kept _ _).mono (by decide)

theorem pulseEnds_kept (s : Station) : Kept [.payout] s (s.pulseEnds) := by
  unfold Station.pulseEnds
  dsimp only
  refine (payout_kept s { s.payout with pulseOn := none }).trans ?_
  split
  · exact beginCoin_kept _
  · exact Kept.refl _ _

theorem payoutDoorOpens_kept (s : Station) : Kept [.payout] s (s.payoutDoorOpens) := by
  unfold Station.payoutDoorOpens
  split
  · dsimp only
    refine (payout_kept s { s.payout with stop := .door, tubesChanged := false }).trans ?_
    split
    · exact Kept.refl _ _
    · exact stopPayout_kept _
  · exact Kept.refl _ s

/-- The door closing while the payout is not stopped. -/
theorem payoutDoorCloses_of_not_stopped (s : Station) (h : s.payout.state ≠ .stopped) :
    s.payoutDoorCloses = { s with payout := { s.payout with stop := .none } } := if_neg h

/-- The door closing on a stopped payout whose tubes have not changed. -/
theorem payoutDoorCloses_of_stopped (s : Station) (h : s.payout.state = .stopped) (hc : s.payout.tubesChanged = false) :
    s.payoutDoorCloses = Station.nextCoin { s with payout := { s.payout with stop := .none, state := .running } } := by
  unfold Station.payoutDoorCloses
  rw [if_pos h, hc]
  rfl

theorem payoutDoorCloses_kept (s : Station) : Kept [.payout, .txn, .counters, .latch] s (s.payoutDoorCloses) := by
  unfold Station.payoutDoorCloses
  dsimp only
  split
  · split
    · have h := ((payout_kept s { s.payout with stop := .none, state := .running }).trans (takePlan_kept _)).mono
        (m := [.payout, .txn, .counters, .latch]) (by decide)
      split
      · exact h.trans (endPayout_kept _)
      · exact h.trans ((nextCoin_kept _).mono (by decide))
    · exact ((payout_kept s { s.payout with stop := .none, state := .running }).trans (nextCoin_kept _)).mono (by decide)
  · exact (payout_kept s _).mono (by decide)

theorem noteTubesChanged_payout (s : Station) : s.noteTubesChanged.payout =
    if s.payout.state = .stopped then { s.payout with tubesChanged := true } else s.payout := by
  unfold Station.noteTubesChanged
  split <;> rfl

theorem noteTubesChanged_kept (s : Station) : Kept [.payout] s (s.noteTubesChanged) := by
  unfold Station.noteTubesChanged
  repeat' split
  all_goals
    intro r hr
    cases r <;> first | exact absurd (by decide) hr | rfl

theorem abandonPayout_kept (s : Station) : Kept [.payout, .txn, .counters] s (s.abandonPayout) := by
  exact ((payout_kept s _).mono (by decide)).trans ((addCredit_kept _ _).mono (by decide))

theorem returnAll_kept (s : Station) : Kept [.payout, .txn, .counters, .latch] s (s.returnAll) := by
  unfold Station.returnAll
  split
  · exact (toResting_kept s).mono (by decide)
  · exact returnPayout_kept s

theorem escrowBack_kept (s : Station) : Kept [.txn, .counters] s (s.escrowBack) := by
  exact (addCredit_kept s _).trans ((txn_kept _ _).mono (by decide))

theorem afterFailedSale_kept (s : Station) : Kept [.payout, .txn, .counters, .latch] s (s.afterFailedSale) := by
  unfold Station.afterFailedSale
  split
  · exact returnAll_kept s
  · exact (toResting_kept s).mono (by decide)

theorem failSale_kept (s : Station) (m : Option Message) : Kept [.payout, .txn, .counters, .latch, .message] s (s.failSale m) := by
  have h := (escrowBack_kept s).mono (m := [.payout, .txn, .counters, .latch, .message]) (by decide)
  unfold Station.failSale
  dsimp only
  split
  · exact (h.trans ((showCustomer_kept _ _ _).mono (by decide))).trans ((afterFailedSale_kept _).mono (by decide))
  · exact h.trans ((afterFailedSale_kept _).mono (by decide))

theorem bookSale_kept (s : Station) (fromPeer : Bool) (drops : Nat) : Kept [.txn, .counters] s (s.bookSale fromPeer drops) := by
  unfold Station.bookSale
  intro r hr
  cases r <;> first | exact absurd (by decide) hr | rfl

theorem takeSale_kept (s : Station) (fromPeer : Bool) (drops : Nat) : Kept [.payout, .txn, .counters, .latch] s (s.takeSale fromPeer drops) := by
  have h := (bookSale_kept s fromPeer drops).mono (m := [.payout, .txn, .counters, .latch]) (by decide)
  unfold Station.takeSale
  dsimp only
  split
  · exact h.trans (returnAll_kept _)
  · exact h.trans ((toResting_kept _).mono (by decide))

theorem lateResult_kept (s : Station) (o : Outcome) : Kept [.counters] s (s.lateResult o) := by
  exact audit_kept s _ rfl

theorem takeResult_kept (s : Station) (sender : Payer) (tag : Nat) (o : Outcome) (drops : Nat) : Kept [.payout, .txn, .counters, .latch, .message] s (s.takeResult sender tag o drops) := by
  unfold Station.takeResult
  split
  · split
    · exact (takeSale_kept s _ _).mono (by decide)
    · exact failSale_kept s _
  · exact (lateResult_kept s _).mono (by decide)

theorem takeRefuse_kept (s : Station) (sender : Payer) (tag : Nat) (reason : Reason) : Kept [.payout, .txn, .counters, .latch, .message] s (s.takeRefuse sender tag reason) := by
  unfold Station.takeRefuse
  split
  · split
    · exact ((showCustomer_kept s _ _).mono (by decide)).trans ((toResting_kept _).mono (by decide))
    · split
      · exact failSale_kept s _
      · exact Kept.refl _ s
  · exact Kept.refl _ s

theorem giveUpSale_kept (s : Station) : Kept [.payout, .txn, .counters, .latch, .message] s (s.giveUpSale) := by
  have h := (escrowBack_kept s).mono (m := [.payout, .txn, .counters, .latch, .message]) (by decide)
  unfold Station.giveUpSale
  dsimp only
  refine Kept.trans ?_ ((afterFailedSale_kept _).mono (by decide))
  refine Kept.trans ?_ ((showCustomer_kept _ _ _).mono (by decide))
  refine h.trans ?_
  intro r hr
  cases r <;> first | exact absurd (by decide) hr | rfl

/-- Only the vend queue changed. -/
theorem queue_kept (s : Station) (q : List Entry) : Kept [.queue] s { s with queue := q } := by
  intro r hr
  cases r <;> first | exact absurd (by decide) hr | rfl

/-- Only the vend in flight changed. -/
theorem vend_kept (s : Station) (v : Option Vend) : Kept [.vend] s { s with vend := v } := by
  intro r hr
  cases r <;> first | exact absurd (by decide) hr | rfl

theorem queueOffer_kept (s : Station) (payer : Payer) (tag tray column : Nat) :
    Kept [.queue, .spirals] s (s.queueOffer payer tag tray column).1 := by
  unfold Station.queueOffer
  split
  · exact Kept.refl _ s
  · split
    · exact Kept.refl _ s
    · exact ((queue_kept s _).mono (by decide)).trans ((applyNaming_kept _ _).mono (by decide))

theorem energise_kept (s : Station) : Kept [.vend] s (s.energise) := by
  unfold Station.energise
  repeat' split
  all_goals
    intro r hr
    cases r <;> first | exact absurd (by decide) hr | rfl

theorem beginVend_kept (s : Station) (e : Entry) : Kept [.vend, .power, .lineQueue] s (s.beginVend e) := by
  unfold Station.beginVend
  dsimp only
  split
  · exact ((vend_kept s _).trans (energise_kept _)).mono (by decide)
  · exact ((vend_kept s _).mono (by decide)).trans ((request_kept _ _ _).mono (by decide))

theorem pick_kept (s : Station) : Kept [.queue, .vend, .power, .lineQueue] s (s.pick) := by
  unfold Station.pick
  split
  · exact Kept.refl _ s
  · split
    · exact Kept.refl _ s
    · exact ((queue_kept s _).mono (by decide)).trans ((beginVend_kept _ _).mono (by decide))

theorem queueCommit_kept (s : Station) (payer : Payer) (tag price : Nat) :
    Kept [.queue, .vend, .power, .lineQueue] s (s.queueCommit payer tag price).1 := by
  unfold Station.queueCommit
  split
  · exact Kept.refl _ s
  · split
    · split
      · exact ((queue_kept s _).mono (by decide)).trans (pick_kept _)
      · exact (queue_kept s _).mono (by decide)
    · exact Kept.refl _ s

theorem queueWithdraw_kept (s : Station) (payer : Payer) (tag : Nat) : Kept [.queue] s (s.queueWithdraw payer tag) := by
  exact queue_kept s _

theorem expireEntry_kept (s : Station) (payer : Payer) (tag : Nat) : Kept [.queue] s (s.expireEntry payer tag) := by
  exact queue_kept s _

theorem answerResult_kept (s : Station) (e : Entry) (o : Outcome) (drops : Nat) : Kept [.payout, .txn, .counters, .latch, .message, .lineQueue] s (s.answerResult e o drops) := by
  unfold Station.answerResult
  split
  · exact (takeResult_kept s _ _ _ _).mono (by decide)
  · exact (hand_kept s _ _).mono (by decide)
  · exact Kept.refl _ s

theorem answerRefuse_kept (s : Station) (e : Entry) (reason : Reason) : Kept [.payout, .txn, .counters, .latch, .message, .lineQueue] s (s.answerRefuse e reason) := by
  unfold Station.answerRefuse
  split
  · exact (takeRefuse_kept s _ _ _).mono (by decide)
  · exact (hand_kept s _ _).mono (by decide)
  · exact Kept.refl _ s

theorem answerRemoved_kept (reason : Reason) (o : Outcome) (s : Station) (e : Entry) :
    Kept [.payout, .txn, .counters, .latch, .message, .lineQueue] s (Station.answerRemoved reason o s e) := by
  unfold Station.answerRemoved
  split
  · exact answerRefuse_kept s _ _
  · exact answerResult_kept s _ _ _
  · exact Kept.refl _ s

theorem foldl_answerRemoved_kept (reason : Reason) (o : Outcome) (entries : List Entry) (s : Station) :
    Kept [.payout, .txn, .counters, .latch, .message, .lineQueue] s (entries.foldl (Station.answerRemoved reason o) s) := by
  induction entries generalizing s with
  | nil => exact Kept.refl _ s
  | cons e rest ih => exact (answerRemoved_kept reason o s e).trans (ih _)

theorem removeEntries_kept (s : Station) (p : Entry → Bool) (reason : Reason) (o : Outcome) : Kept [.payout, .txn, .counters, .latch, .message, .lineQueue, .queue] s (s.removeEntries p reason o) := by
  exact ((queue_kept s _).mono (by decide)).trans ((foldl_answerRemoved_kept _ _ _ _).mono (by decide))

theorem removeForDoor_kept (s : Station) : Kept [.payout, .txn, .counters, .latch, .message, .lineQueue, .queue] s (s.removeForDoor) := by
  exact removeEntries_kept s _ _ _

theorem removeForColdHold_kept (s : Station) : Kept [.payout, .txn, .counters, .latch, .message, .lineQueue, .queue] s (s.removeForColdHold) := by
  exact removeEntries_kept s _ _ _

theorem removeForChute_kept (s : Station) : Kept [.payout, .txn, .counters, .latch, .message, .lineQueue, .queue] s (s.removeForChute) := by
  exact removeEntries_kept s _ _ _

theorem removeForSpiral_kept (s : Station) (position : Nat) : Kept [.payout, .txn, .counters, .latch, .message, .lineQueue, .queue] s (s.removeForSpiral position) := by
  unfold Station.removeForSpiral
  split <;> exact removeEntries_kept s _ _ _

theorem addTestEntry_kept (s : Station) (position : Nat) : Kept [.queue, .spirals, .vend, .power, .lineQueue] s (s.addTestEntry position) := by
  unfold Station.addTestEntry
  exact (((queue_kept s _).mono (by decide)).trans ((applyNaming_kept _ _).mono (by decide))).trans
    ((pick_kept _).mono (by decide))

theorem countOutcome_kept (s : Station) (o : Outcome) (drops : Nat) : Kept [.counters] s (s.countOutcome o drops) := by
  exact audit_kept s _ rfl

theorem noticeOutcome_kept (s : Station) (o : Outcome) (position : Nat) : Kept [.latch] s (s.noticeOutcome o position) := by
  unfold Station.noticeOutcome
  split
  · exact raise_kept s _
  · exact raise_kept s _
  · exact Kept.refl _ s

theorem recordVendEnd_kept (s : Station) (v : Vend) (o : Outcome) : Kept [.counters, .latch, .spirals] s (s.recordVendEnd v o) := by
  unfold Station.recordVendEnd
  exact (((countOutcome_kept s _ _).mono (by decide)).trans ((noticeOutcome_kept _ _ _).mono (by decide))).trans
    ((recordOutcome_kept _ _ _ _ _).mono (by decide))

theorem dropVending_kept (s : Station) : Kept [.vend, .queue] s (s.dropVending) := by
  unfold Station.dropVending
  intro r hr
  cases r <;> first | exact absurd (by decide) hr | rfl

theorem answerVend_kept (s : Station) (v : Vend) (o : Outcome) : Kept [.payout, .txn, .counters, .latch, .message, .lineQueue] s (s.answerVend v o) := by
  unfold Station.answerVend
  split
  · exact (showService_kept s _).mono (by decide)
  · exact answerResult_kept s _ _ _

theorem finishVend_kept (s : Station) (v : Vend) (o : Outcome) : Kept [.payout, .txn, .counters, .latch, .message, .lineQueue, .queue, .vend, .spirals] s (s.finishVend v o) := by
  have h : Kept [.payout, .txn, .counters, .latch, .message, .lineQueue, .queue, .vend, .spirals] s (((s.recordVendEnd v o).dropVending).answerVend v o) :=
    (((recordVendEnd_kept s v o).mono (by decide)).trans ((dropVending_kept _).mono (by decide))).trans
      ((answerVend_kept _ _ _).mono (by decide))
  unfold Station.finishVend
  dsimp only
  refine Kept.trans ?_ ((applyNaming_kept _ _).mono (by decide))
  split
  · exact h.trans ((removeForSpiral_kept _ _).mono (by decide))
  · exact h

theorem settleClaim_kept (s : Station) : Kept [.power, .lineQueue] s (s.settleClaim) := by
  unfold Station.settleClaim
  split
  · exact Kept.refl _ s
  · exact (releaseSlot_kept s _).trans (withdrawRequest_kept _ _)

theorem endVend_kept (s : Station) (o : Outcome) : Kept [.payout, .txn, .counters, .latch, .message, .lineQueue, .queue, .vend, .spirals, .power] s (s.endVend o) := by
  unfold Station.endVend
  split
  · exact Kept.refl _ s
  · exact (((finishVend_kept s _ _).mono (by decide)).trans ((pick_kept _).mono (by decide))).trans
      ((settleClaim_kept _).mono (by decide))

theorem chuteActivity_kept (s : Station) : Kept [.chute, .counters] s (s.chuteActivity) := by
  unfold Station.chuteActivity
  intro r hr
  cases r <;> first | exact absurd (by decide) hr | rfl

theorem countDrop_kept (s : Station) (v : Vend) : Kept [.vend, .spirals] s (s.countDrop v) := by
  unfold Station.countDrop
  exact (((vend_kept s _).mono (by decide)).trans ((setSpiral_kept _ _ _).mono (by decide))).trans
    ((applyNaming_kept _ _).mono (by decide))

theorem revolutionEnds_kept (s : Station) (v : Vend) : Kept [.payout, .txn, .counters, .latch, .message, .lineQueue, .queue, .vend, .spirals, .power] s (s.revolutionEnds v) := by
  have h := fun w => (vend_kept s (some w)).mono (m := [.payout, .txn, .counters, .latch, .message, .lineQueue, .queue, .vend, .spirals, .power]) (by decide)
  unfold Station.revolutionEnds
  dsimp only
  split
  · exact (h _).trans (endVend_kept _ _)
  · exact h _

theorem jamTaken_kept (s : Station) (v : Vend) : Kept [.payout, .txn, .counters, .latch, .message, .lineQueue, .queue, .vend, .spirals, .power] s (s.jamTaken v) := by
  have h := fun w => (vend_kept s (some w)).mono (m := [.payout, .txn, .counters, .latch, .message, .lineQueue, .queue, .vend, .spirals, .power]) (by decide)
  unfold Station.jamTaken
  dsimp only
  split
  · exact h _
  · exact (h _).trans (endVend_kept _ _)

theorem windowEnds_kept (s : Station) (v : Vend) : Kept [.payout, .txn, .counters, .latch, .message, .lineQueue, .queue, .vend, .spirals, .power] s (s.windowEnds v) := by
  unfold Station.windowEnds
  split
  · exact (energise_kept s).mono (by decide)
  · exact endVend_kept s _

theorem withdrawFrom_kept (s : Station) (owner : Payer) (tag : Nat) : Kept [.queue, .lineQueue] s (s.withdrawFrom owner tag) := by
  unfold Station.withdrawFrom
  split
  · exact (queueWithdraw_kept s _ _).mono (by decide)
  · exact (hand_kept s _ _).mono (by decide)

theorem commitTo_kept (s : Station) (owner : Payer) (tag price : Nat) : Kept [.queue, .vend, .power, .lineQueue, .payout, .txn, .counters, .latch, .message] s (s.commitTo owner tag price) := by
  unfold Station.commitTo
  split
  · have h := (queueCommit_kept s .loc tag price).mono (m := [.queue, .vend, .power, .lineQueue, .payout, .txn, .counters, .latch, .message]) (by decide)
    split
    · rename_i s1 r heq
      rw [heq] at h
      exact h.trans ((takeRefuse_kept _ _ _ _).mono (by decide))
    · rename_i s1 heq
      rw [heq] at h
      exact h
  · exact (hand_kept s _ _).mono (by decide)

theorem declineAccept_kept (s : Station) (o : Offer) (m : Message) (length : Nat) : Kept [.message, .queue, .lineQueue, .txn] s (s.declineAccept o m length) := by
  unfold Station.declineAccept
  exact (((showCustomer_kept s _ _).mono (by decide)).trans ((withdrawFrom_kept _ _ _).mono (by decide))).trans
    ((toResting_kept _).mono (by decide))

theorem bindSale_kept (s : Station) (o : Offer) (price queuePos : Nat) : Kept [.queue, .vend, .power, .lineQueue, .payout, .txn, .counters, .latch, .message] s (s.bindSale o price queuePos) := by
  exact ((txn_kept s _).mono (by decide)).trans (commitTo_kept _ _ _ _)

theorem acceptCurrent_kept (s : Station) (o : Offer) (price queuePos : Nat) : Kept [.queue, .vend, .power, .lineQueue, .payout, .txn, .counters, .latch, .message] s (s.acceptCurrent o price queuePos) := by
  unfold Station.acceptCurrent
  split
  · exact (declineAccept_kept s _ _ _).mono (by decide)
  · split
    · exact (declineAccept_kept s _ _ _).mono (by decide)
    · split
      · exact (declineAccept_kept s _ _ _).mono (by decide)
      · exact bindSale_kept s _ _ _

theorem takeAccept_kept (s : Station) (sender : Payer) (tag price queuePos : Nat) : Kept [.queue, .vend, .power, .lineQueue, .payout, .txn, .counters, .latch, .message] s (s.takeAccept sender tag price queuePos) := by
  unfold Station.takeAccept
  split
  · split
    · split
      · exact acceptCurrent_kept s _ _ _
      · exact Kept.refl _ s
    · exact (withdrawFrom_kept s _ _).mono (by decide)
  · exact (withdrawFrom_kept s _ _).mono (by decide)

theorem recordOffer_kept (s : Station) (owner : Payer) (tray column : Nat) : Kept [.txn] s (s.recordOffer owner tray column) := by
  exact txn_kept s _

theorem offerLocal_kept (s : Station) (tray column : Nat) : Kept [.queue, .vend, .power, .lineQueue, .payout, .txn, .counters, .latch, .message, .spirals] s (s.offerLocal tray column) := by
  have h := ((recordOffer_kept s .loc tray column).mono (m := [.queue, .vend, .power, .lineQueue, .payout, .txn, .counters, .latch, .message, .spirals]) (by decide)).trans
    ((queueOffer_kept (s.recordOffer .loc tray column) .loc (s.recordOffer .loc tray column).txn.lastTag tray column).mono
      (by decide))
  unfold Station.offerLocal
  dsimp only
  split
  · rename_i heq
    rw [heq] at h
    exact h.trans ((takeAccept_kept _ _ _ _ _).mono (by decide))
  · rename_i heq
    rw [heq] at h
    exact h.trans ((takeRefuse_kept _ _ _ _).mono (by decide))

theorem offerPeer_kept (s : Station) (address tray column : Nat) : Kept [.txn, .lineQueue] s (s.offerPeer address tray column) := by
  unfold Station.offerPeer
  exact ((recordOffer_kept s _ _ _).mono (by decide)).trans ((hand_kept _ _ _).mono (by decide))

theorem makeOffer_kept (s : Station) (letter tray column : Nat) : Kept [.queue, .vend, .power, .lineQueue, .payout, .txn, .counters, .latch, .message, .spirals] s (s.makeOffer letter tray column) := by
  unfold Station.makeOffer
  split
  · exact (showCustomer_kept s _ _).mono (by decide)
  · exact offerLocal_kept s _ _
  · split
    · exact (offerPeer_kept s _ _ _).mono (by decide)
    · exact (showCustomer_kept s _ _).mono (by decide)

theorem returnKey_kept (s : Station) : Kept [.payout, .txn, .counters, .latch, .queue, .lineQueue] s (s.returnKey) := by
  unfold Station.returnKey
  split
  · exact (returnAll_kept s).mono (by decide)
  · exact ((withdrawFrom_kept s _ _).mono (by decide)).trans ((returnAll_kept _).mono (by decide))
  · exact (txn_kept s _).mono (by decide)
  · exact Kept.refl _ s

theorem forfeit_kept (s : Station) : Kept [.txn, .counters] s (s.forfeit) := by
  unfold Station.forfeit
  refine Kept.trans (b := _) ?_ ((toResting_kept _).mono (by decide))
  intro r hr
  cases r <;> first | exact absurd (by decide) hr | rfl

theorem clearBuffer_kept (s : Station) : Kept [.buffer] s (s.clearBuffer) := by
  unfold Station.clearBuffer
  intro r hr
  cases r <;> first | exact absurd (by decide) hr | rfl

theorem stepLetter_kept (s : Station) : Kept [.buffer] s (s.stepLetter) := by
  unfold Station.stepLetter
  intro r hr
  cases r <;> first | exact absurd (by decide) hr | rfl

theorem keyTaken_kept (s : Station) : Kept [.txn, .buffer] s (s.keyTaken) := by
  unfold Station.keyTaken Station.restartInactivity
  intro r hr
  cases r <;> first | exact absurd (by decide) hr | rfl

theorem selection_kept (s : Station) (letter tray column : Nat) : Kept [.queue, .vend, .power, .lineQueue, .payout, .txn, .counters, .latch, .message, .spirals] s (s.selection letter tray column) := by
  unfold Station.selection
  split
  · exact makeOffer_kept s _ _ _
  · exact (showCustomer_kept s _ _).mono (by decide)

theorem bufferDigit_kept (s : Station) (digit : Nat) : Kept [.queue, .vend, .power, .lineQueue, .payout, .txn, .counters, .latch, .message, .spirals, .buffer] s (s.bufferDigit digit) := by
  unfold Station.bufferDigit
  split
  · exact ((clearBuffer_kept s).mono (by decide)).trans ((selection_kept _ _ _ _).mono (by decide))
  · split
    · intro r hr
      cases r <;> first | exact absurd (by decide) hr | rfl
    · exact ((clearBuffer_kept s).mono (by decide)).trans ((showCustomer_kept _ _ _).mono (by decide))

theorem beginDefrost_kept (s : Station) : Kept [.cooling, .meters, .power, .lineQueue] s (s.beginDefrost) := by
  unfold Station.beginDefrost
  split
  · exact ((setCooling_kept s _).mono (by decide)).trans ((request_kept _ _ _).mono (by decide))
  · exact (setCooling_kept s _).mono (by decide)

theorem enterWaitPower_kept (s : Station) : Kept [.cooling, .meters, .power, .lineQueue] s (s.enterWaitPower) := by
  exact ((setCooling_kept s _).mono (by decide)).trans ((request_kept _ _ _).mono (by decide))

theorem leaveRest_kept (s : Station) : Kept [.cooling, .meters, .power, .lineQueue] s (s.leaveRest) := by
  unfold Station.leaveRest
  split
  · exact beginDefrost_kept s
  · split
    · exact enterWaitPower_kept s
    · exact (setCooling_kept s _).mono (by decide)

theorem enterRest_kept (s : Station) : Kept [.cooling, .meters, .power, .lineQueue] s (s.enterRest) := by
  have h := (setCooling_kept s fun c => { c with compressor := .rest }).mono (m := [.cooling, .meters, .power, .lineQueue]) (by decide)
  unfold Station.enterRest
  dsimp only
  split
  · exact h.trans (leaveRest_kept _)
  · exact h

theorem normalStop_kept (s : Station) : Kept [.cooling, .meters, .power, .lineQueue] s (s.normalStop) := by
  have h := ((setCooling_kept s Cooling.stop).mono (m := [.cooling, .meters, .power, .lineQueue]) (by decide)).trans
    ((releaseSlot_kept _ .compressor).mono (by decide))
  unfold Station.normalStop
  dsimp only
  split
  · exact h.trans (beginDefrost_kept _)
  · exact h.trans (enterRest_kept _)

theorem trip_kept (s : Station) : Kept [.cooling, .meters, .power, .lineQueue, .counters, .latch] s (s.trip) := by
  unfold Station.trip
  dsimp only
  split
  · refine Kept.trans ?_ ((raise_kept _ _).mono (by decide))
    refine Kept.trans ?_ ((releaseSlot_kept _ _).mono (by decide))
    intro r hr
    cases r <;> first | exact absurd (by decide) hr | rfl
  · refine Kept.trans ?_ ((releaseSlot_kept _ _).mono (by decide))
    intro r hr
    cases r <;> first | exact absurd (by decide) hr | rfl

theorem compressorShed_kept (s : Station) : Kept [.cooling, .meters, .power, .lineQueue] s (s.compressorShed) := by
  unfold Station.compressorShed
  split
  · exact ((setCooling_kept s _).mono (by decide)).trans (enterRest_kept _)
  · exact Kept.refl _ s

theorem terminateDefrost_kept (s : Station) : Kept [.cooling, .meters, .power, .lineQueue, .counters] s (s.terminateDefrost) := by
  unfold Station.terminateDefrost
  dsimp only
  split
  · refine ((releaseSlot_kept s .defrostHeater).mono (by decide)).trans ?_
    intro r hr
    cases r <;> first | exact absurd (by decide) hr | rfl
  · refine ((withdrawRequest_kept s .defrostHeater).mono (by decide)).trans ?_
    intro r hr
    cases r <;> first | exact absurd (by decide) hr | rfl

theorem heaterShed_kept (s : Station) : Kept [.cooling, .meters, .power, .lineQueue, .counters] s (s.heaterShed) := by
  unfold Station.heaterShed
  split
  · exact terminateDefrost_kept s
  · exact Kept.refl _ s

theorem dripEnds_kept (s : Station) : Kept [.cooling, .meters, .power, .lineQueue] s (s.dripEnds) := by
  exact ((setCooling_kept s _).mono (by decide)).trans (enterRest_kept _)

theorem demandChanged_kept (s : Station) (before : Bool) : Kept [.cooling, .meters, .power, .lineQueue] s (s.demandChanged before) := by
  unfold Station.demandChanged
  split
  · exact Kept.refl _ s
  · split
    · split
      · exact enterWaitPower_kept s
      · exact Kept.refl _ s
    · split
      · exact Kept.refl _ s
      · exact ((setCooling_kept s _).mono (by decide)).trans ((withdrawRequest_kept _ _).mono (by decide))
    · split
      · exact Kept.refl _ s
      · split
        · exact normalStop_kept s
        · exact Kept.refl _ s
    · exact Kept.refl _ s

theorem requestDefrost_kept (s : Station) : Kept [.cooling, .meters, .power, .lineQueue] s (s.requestDefrost) := by
  have h := (setCooling_kept s fun c => { c with defrostRequest := true }).mono (m := [.cooling, .meters, .power, .lineQueue]) (by decide)
  unfold Station.requestDefrost
  dsimp only
  split
  · exact h.trans (beginDefrost_kept _)
  · exact h.trans (beginDefrost_kept _)
  · exact (h.trans ((withdrawRequest_kept _ _).mono (by decide))).trans (beginDefrost_kept _)
  · split
    · exact h.trans (normalStop_kept _)
    · exact h.trans ((setCooling_kept _ _).mono (by decide))
  all_goals exact h

theorem causeMet_kept (s : Station) (inSet : Bool) : Kept [.cooling, .meters, .power, .lineQueue] s (s.causeMet inSet) := by
  unfold Station.causeMet
  split
  · exact requestDefrost_kept s
  · exact Kept.refl _ s

theorem runTimeMet_kept (s : Station) : Kept [.cooling, .meters, .power, .lineQueue] s (s.runTimeMet) := by
  exact ((setCooling_kept s _).mono (by decide)).trans (causeMet_kept _ _)

theorem doorCountMet_kept (s : Station) (countBefore limitBefore : Nat) :
    Kept [.cooling, .meters, .power, .lineQueue] s (s.doorCountMet countBefore limitBefore) := by
  unfold Station.doorCountMet
  split
  · exact causeMet_kept s _
  · exact Kept.refl _ s

theorem countDoor_kept (s : Station) : Kept [.cooling, .meters, .power, .lineQueue] s (s.countDoor) := by
  unfold Station.countDoor
  split
  · exact ((setCooling_kept s _).mono (by decide)).trans (doorCountMet_kept _ _ _)
  · exact Kept.refl _ s

theorem takeCauses_kept (s : Station) (limitBefore : Nat) :
    Kept [.cooling, .meters, .power, .lineQueue] s (s.takeCauses limitBefore) := by
  unfold Station.takeCauses
  dsimp only
  refine Kept.trans ?_ (doorCountMet_kept _ _ _)
  split
  · exact runTimeMet_kept s
  · exact Kept.refl _ s

theorem startCooling_kept (s : Station) (limitBefore : Nat) :
    Kept [.cooling, .meters, .power, .lineQueue] s (s.startCooling limitBefore) := by
  unfold Station.startCooling
  split
  · exact ((setCooling_kept s _).mono (by decide)).trans (takeCauses_kept _ _)
  · exact Kept.refl _ s

theorem airSampled_kept (s : Station) (before : Sensor) (code : Nat) : Kept [.cooling, .meters, .power, .lineQueue] s (s.airSampled before code) := by
  have h := fun (t : Station) f => (setCooling_kept t f).mono (m := [.cooling, .meters, .power, .lineQueue]) (by decide)
  unfold Station.airSampled
  dsimp only
  refine Kept.trans ?_ (demandChanged_kept _ _)
  split
  · split
    · exact h s _
    · split
      · exact h s _
      · exact Kept.refl _ s
  · refine Kept.trans ?_ (h _ _)
    split
    · exact h s _
    · split
      · exact h s _
      · exact Kept.refl _ s

theorem coilSampled_kept (s : Station) (code : Nat) : Kept [.cooling, .meters, .power, .lineQueue, .counters] s (s.coilSampled code) := by
  unfold Station.coilSampled
  split
  · exact Kept.refl _ s
  · split
    · exact terminateDefrost_kept s
    · exact Kept.refl _ s

theorem condSampled_kept (s : Station) (code : Nat) : Kept [.cooling, .meters, .power, .lineQueue, .counters, .latch] s (s.condSampled code) := by
  unfold Station.condSampled
  split
  · exact Kept.refl _ s
  · split
    · exact trip_kept s
    · exact Kept.refl _ s

theorem takeSample_kept (s : Station) (name : SensorName) (code : Nat) : Kept [.cooling, .meters, .power, .lineQueue, .counters, .latch] s (s.takeSample name code) := by
  have h : ∀ r, Kept [.cooling, .meters, .power, .lineQueue, .counters, .latch] s (s.setCooling fun c => c.setSensor name r) :=
    fun r => (setCooling_kept s _).mono (by decide)
  have k : ∀ r (b : Prop) [Decidable b], Kept [.cooling, .meters, .power, .lineQueue, .counters, .latch] s (if b then
      (s.setCooling fun c => c.setSensor name r).raise (.sensor name) else s.setCooling fun c => c.setSensor name r) := by
    intro r b _
    split
    · exact (h r).trans ((raise_kept _ _).mono (by decide))
    · exact h r
  unfold Station.takeSample
  cases name
  · exact (k _ _).trans ((airSampled_kept _ _ _).mono (by decide))
  · exact (k _ _).trans ((coilSampled_kept _ _).mono (by decide))
  · exact (k _ _).trans ((condSampled_kept _ _).mono (by decide))

theorem beginColdHold_kept (s : Station) : Kept [.cooling, .meters, .payout, .txn, .counters, .latch, .message, .lineQueue, .queue] s (s.beginColdHold) := by
  unfold Station.beginColdHold
  exact (((setCooling_kept s _).mono (by decide)).trans ((raise_kept _ _).mono (by decide))).trans
    ((removeForColdHold_kept _).mono (by decide))

/-- Only the power budget unit changed. -/
theorem power_kept (s : Station) (p : Power) : Kept [.power] s { s with power := p } := by
  intro r hr
  cases r <;> first | exact absurd (by decide) hr | rfl

theorem Grants.kept {s t : Station} (h : Grants s t) : Kept [.power, .lineQueue, .vend, .cooling] s t := by
  obtain ⟨q, n, p, v, c, rfl, _, _, hm⟩ := h
  intro r hr
  cases r <;> first | exact absurd (by decide) hr | rfl | exact hm

theorem grant_kept (s : Station) (q : Request) : Kept [.power, .lineQueue, .vend, .cooling] s (s.grant q) := by
  exact (grant_grants s q).kept

theorem decideWindow_kept (s : Station) (q : Request) : Kept [.power, .lineQueue, .vend, .cooling] s (s.decideWindow q) := by
  have h := fun c => (hand_kept s 0 (.release c)).mono (m := [.power, .lineQueue, .vend, .cooling]) (by decide)
  unfold Station.decideWindow
  split
  · exact grant_kept s _
  · dsimp only
    split
    · exact (h _).trans ((power_kept _ _).mono (by decide))
    · exact (h _).trans ((power_kept _ _).mono (by decide))

theorem shedHeater_kept (s : Station) : Kept [.cooling, .meters, .power, .lineQueue, .counters] s (s.shedHeater) := by
  unfold Station.shedHeater
  split
  · exact ((power_kept s _).mono (by decide)).trans (heaterShed_kept _)
  · exact Kept.refl _ s

theorem shedCompressor_kept (s : Station) : Kept [.cooling, .meters, .power, .lineQueue] s (s.shedCompressor) := by
  unfold Station.shedCompressor
  split
  · exact ((power_kept s _).mono (by decide)).trans (compressorShed_kept _)
  · exact Kept.refl _ s

theorem shed_kept (s : Station) : Kept [.cooling, .meters, .power, .lineQueue, .counters] s (s.shed) := by
  exact (shedHeater_kept s).trans ((shedCompressor_kept _).mono (by decide))

/-- Only the line interface changed. -/
theorem line_kept (s : Station) (l : Line) : Kept [.line, .lineQueue] s { s with line := l } := by
  intro r hr
  cases r <;> first | exact absurd (by decide) hr | rfl

theorem queueHeartbeat_kept (s : Station) : Kept [.lineQueue] s (s.queueHeartbeat) := by
  exact hand_kept s _ _

theorem queueDeclare_kept (s : Station) : Kept [.lineQueue] s (s.queueDeclare) := by
  exact hand_kept s _ _

theorem enterListen_kept (s : Station) : Kept [.line, .lineQueue, .coinLink] s (s.enterListen) := by
  unfold Station.enterListen
  dsimp only
  refine Kept.trans ?_ (((queueDeclare_kept _).mono (by decide)).trans ((sendMasks_kept _).mono (by decide)))
  intro r hr
  cases r <;> first | exact absurd (by decide) hr | rfl

theorem enterActive_kept (s : Station) : Kept [.line, .lineQueue, .power] s (s.enterActive) := by
  unfold Station.enterActive
  intro r hr
  cases r <;> first | exact absurd (by decide) hr | rfl

theorem leaveActive_kept (s : Station) : Kept [.line, .lineQueue, .power] s (s.leaveActive) := by
  exact ((line_kept s _).mono (by decide)).trans ((power_kept _ _).mono (by decide))

theorem enterIsolated_kept (s : Station) (cause : Cause) : Kept [.line, .cooling, .meters, .power, .lineQueue, .counters] s (s.enterIsolated cause) := by
  unfold Station.enterIsolated
  dsimp only
  refine Kept.trans ?_ ((power_kept _ _).mono (by decide))
  exact (((leaveActive_kept s).mono (by decide)).trans ((line_kept _ _).mono (by decide))).trans
    ((shed_kept _).mono (by decide))

/-- R176: what entering ISOLATED does to the latched clash. -/
theorem enterIsolated_clashLatched (s : Station) (cause : Cause) :
    (s.enterIsolated cause).line.clashLatched = (s.line.clashLatched || decide (cause = .clash)) := by
  unfold Station.enterIsolated
  dsimp only
  exact (clashLatched_kept (power_kept _ _ .line (by decide))).trans (clashLatched_kept (shed_kept _ .line (by decide)))

/-- R176: a clash found latches, and one that has isolated the station already stays latched. -/
theorem addressClash_clashLatched (s : Station)
    (h : s.line.state = .isolated .clash → s.line.clashLatched = true) : s.addressClash.line.clashLatched = true := by
  unfold Station.addressClash
  split
  · rename_i hc; exact h hc
  · rw [clashLatched_kept (raise_kept _ _ .line (by decide)), enterIsolated_clashLatched]
    simp

theorem lineFault_kept (s : Station) : Kept [.line, .cooling, .meters, .power, .lineQueue, .counters] s (s.lineFault) := by
  unfold Station.lineFault
  split
  · exact enterIsolated_kept s _
  · exact Kept.refl _ s

theorem addressClash_kept (s : Station) : Kept [.line, .cooling, .meters, .power, .lineQueue, .counters, .latch] s (s.addressClash) := by
  unfold Station.addressClash
  split
  · exact Kept.refl _ s
  · exact ((enterIsolated_kept s _).mono (by decide)).trans ((raise_kept _ _).mono (by decide))

theorem endListen_kept (s : Station) : Kept [.line, .cooling, .meters, .power, .lineQueue, .counters] s (s.endListen) := by
  unfold Station.endListen
  split
  · exact (enterActive_kept s).mono (by decide)
  · exact enterIsolated_kept s _

theorem frameSent_kept (s : Station) : Kept [.line, .lineQueue, .power] s (s.frameSent) := by
  have h := fun l => (line_kept s l).mono (m := [.line, .lineQueue, .power]) (by decide)
  unfold Station.frameSent
  split
  · exact Kept.refl _ s
  · dsimp only
    split
    · intro r hr
      cases r <;> first | exact absurd (by decide) hr | rfl
    · exact h _

theorem transmitError_kept (s : Station) : Kept [.line, .cooling, .meters, .power, .lineQueue, .counters] s (s.transmitError) := by
  have h := fun l => (line_kept s l).mono (m := [.line, .cooling, .meters, .power, .lineQueue, .counters]) (by decide)
  unfold Station.transmitError
  dsimp only
  split
  · exact (h _).trans (lineFault_kept _)
  · exact h _

/-- Only the peer view changed. -/
theorem peers_kept (s : Station) (p : List Peer) : Kept [.peers] s { s with peers := p } := by
  intro r hr
  cases r <;> first | exact absurd (by decide) hr | rfl

theorem changePeer_kept (s : Station) (before after : Peer) : Kept [.peers, .power, .lineQueue] s (s.changePeer before after) := by
  have h := (peers_kept s (putPeer after s.peers)).mono (m := [.peers, .power, .lineQueue]) (by decide)
  unfold Station.changePeer
  dsimp only
  split
  · exact h.trans ((bankRoomMade_kept _).mono (by decide))
  · exact h

theorem refreshPeer_kept (s : Station) (address : Nat) (apply : Peer → Peer) : Kept [.peers, .power, .lineQueue] s (s.refreshPeer address apply) := by
  unfold Station.refreshPeer
  split
  · exact changePeer_kept s _ _
  · exact (peers_kept s _).mono (by decide)

theorem setPresence_kept (s : Station) (p : Peer) (presence : Presence) : Kept [.peers, .power, .lineQueue] s (s.setPresence p presence) := by
  exact changePeer_kept s _ _

theorem forgetPeers_kept (s : Station) : Kept [.peers, .power, .lineQueue] s (s.forgetPeers) := by
  have h := (peers_kept s s.presentPeers).mono (m := [.peers, .power, .lineQueue]) (by decide)
  unfold Station.forgetPeers
  dsimp only
  split
  · exact h.trans ((bankRoomMade_kept _).mono (by decide))
  · exact h

theorem noticeLetter_kept (s : Station) : Kept [.latch] s (s.noticeLetter) := by
  unfold Station.noticeLetter
  split
  · exact Kept.refl _ s
  · split
    · exact raise_kept s _
    · exact Kept.refl _ s

theorem heardPeer_kept (s : Station) : Kept [.line, .lineQueue, .coinLink] s (s.heardPeer) := by
  have h := fun t l => (line_kept t l).mono (m := [.line, .lineQueue, .coinLink]) (by decide)
  unfold Station.heardPeer
  dsimp only
  split
  · exact (enterListen_kept s).trans (h _ _)
  · exact (enterListen_kept s).trans (h _ _)
  · exact h _ _

theorem recordClaim_kept (s : Station) (address cls rank : Nat) : Kept [.power] s (s.recordClaim address cls rank) := by
  unfold Station.recordClaim
  split
  · exact Kept.refl _ s
  · exact power_kept s _

theorem scheduleDeclare_kept (s : Station) : Kept [.line] s (s.scheduleDeclare) := by
  unfold Station.scheduleDeclare
  split
  · intro r hr
    cases r <;> first | exact absurd (by decide) hr | rfl
  · exact Kept.refl _ s

theorem doorEndsVend_kept (s : Station) : Kept [.payout, .txn, .counters, .latch, .message, .lineQueue, .queue, .vend, .spirals] s (s.doorEndsVend) := by
  unfold Station.doorEndsVend
  split
  · split
    · exact Kept.refl _ s
    · exact finishVend_kept s _ _
  · exact Kept.refl _ s

theorem openDoor_kept (s : Station) : Kept [.payout, .txn, .counters, .latch, .message, .lineQueue, .queue, .vend, .spirals, .power, .door, .buffer, .cooling, .meters] s (s.openDoor) := by
  unfold Station.openDoor
  dsimp only
  refine Kept.trans ?_ ((countDoor_kept _).mono (by decide))
  refine Kept.trans (b := (Station.settleClaim (Station.pick (Station.removeForDoor (Station.doorEndsVend { s with
    faults := { s.faults with doorOpen := true, doorTimer := 0 } })))).payoutDoorOpens.clearBuffer) ?_ ?_
  · refine Kept.trans ?_ ((clearBuffer_kept _).mono (by decide))
    refine Kept.trans ?_ ((payoutDoorOpens_kept _).mono (by decide))
    refine Kept.trans ?_ ((settleClaim_kept _).mono (by decide))
    refine Kept.trans ?_ ((pick_kept _).mono (by decide))
    refine Kept.trans ?_ ((removeForDoor_kept _).mono (by decide))
    refine Kept.trans ?_ ((doorEndsVend_kept _).mono (by decide))
    intro r hr
    cases r <;> first | exact absurd (by decide) hr | rfl
  · intro r hr
    cases r <;> first | exact absurd (by decide) hr | rfl

theorem closeDoor_kept (s : Station) : Kept [.door, .service, .message, .queue, .vend, .power, .lineQueue, .payout, .txn, .counters, .latch] s (s.closeDoor) := by
  unfold Station.closeDoor
  dsimp only
  refine Kept.trans ?_ ((pick_kept _).mono (by decide))
  refine Kept.trans ?_ ((payoutDoorCloses_kept _).mono (by decide))
  refine Kept.trans ?_ ((restartInactivity_kept _).mono (by decide))
  intro r hr
  cases r <;> first | exact absurd (by decide) hr | rfl

theorem acknowledge_kept (s : Station) : Kept [.latch] s (s.acknowledge) := by
  unfold Station.acknowledge
  intro r hr
  cases r <;> first | exact absurd (by decide) hr | rfl

/-! ### The whole event -/

/-- A body that keeps the regions outside a list gives an event that keeps them, when the list leaves alone what the loads
rest on, or names what they may change. -/
theorem keepsBut_of_kept (o : Station) {l : List Region} {a b : Station} (h : Kept l a b)
    (hload : (.power ∉ l ∧ .line ∉ l) ∨ (.vend ∈ l ∧ .cooling ∈ l ∧ .power ∈ l ∧ .lineQueue ∈ l)) :
    KeepsBut l a (finish o b) := by
  intro r hr
  refine finish_of_kept o h r hr fun hx => ?_
  rcases hload with hl | ⟨h1, h2, h3, h4⟩
  · exact hl
  · rcases hx with rfl | rfl | rfl | rfl <;> contradiction

end Sys2Proof.Laws
end

