-- ==== Sys2Proof/Laws/Memory.lean ====
section
/-! SUPPORT. The configuration memory keeps its canonical form, and a byte written is the byte read. -/

namespace Sys2Proof.Laws

open Sys2Proof.Machine

/-! ### The canonical form -/

theorem wfFrom_none {low : Option Nat} {m : Memory} (h : Memory.wfFrom low m = true) : Memory.wfFrom none m = true := by
  cases m with
  | nil => rfl
  | cons c rest =>
    simp only [Memory.wfFrom, Bool.and_eq_true] at h ⊢
    exact ⟨⟨rfl, h.1.2⟩, h.2⟩

theorem wfFrom_lower {low : Option Nat} {k : Nat} {m : Memory} (hlow : ∀ l, low = some l → l < k)
    (h : Memory.wfFrom (some k) m = true) : Memory.wfFrom low m = true := by
  cases m with
  | nil => rfl
  | cons c rest =>
    simp only [Memory.wfFrom, Bool.and_eq_true] at h ⊢
    refine ⟨⟨?_, h.1.2⟩, h.2⟩
    have hk : k < c.1 := by simpa using h.1.1
    cases low with
    | none => rfl
    | some l => simpa using lt_trans (hlow l rfl) hk

theorem write_wfFrom (m : Memory) (low : Option Nat) (a : Nat) (b : Byte) (hlow : ∀ l, low = some l → l < a)
    (h : Memory.wfFrom low m = true) : Memory.wfFrom low (Memory.write m a b) = true := by
  have ha : (low.all fun l => decide (l < a)) = true := by
    cases low with
    | none => rfl
    | some l => simpa using hlow l rfl
  induction m generalizing low with
  | nil =>
    unfold Memory.write
    split
    · rfl
    · rename_i hb
      simp [Memory.wfFrom, ha, hb]
  | cons c rest ih =>
    obtain ⟨k, d⟩ := c
    have h' := h
    simp only [Memory.wfFrom, Bool.and_eq_true] at h'
    unfold Memory.write
    by_cases hb : b = unwritten
    · split
      · simpa [hb] using h
      · split
        · rename_i hak
          subst hak
          simpa [hb] using wfFrom_lower hlow h'.2
        · simp only [Memory.wfFrom, Bool.and_eq_true]
          exact ⟨h'.1, ih (some k) (fun l hl => by cases hl; omega) h'.2 (by simp; omega)⟩
    · split
      · simp only [Memory.wfFrom, Bool.and_eq_true]
        exact ⟨⟨ha, by simpa using hb⟩, ⟨⟨by simpa using ‹a < k›, h'.1.2⟩, h'.2⟩⟩
      · split
        · rename_i hak
          subst hak
          simp only [Memory.wfFrom, Bool.and_eq_true]
          exact ⟨⟨ha, by simpa using hb⟩, h'.2⟩
        · simp only [Memory.wfFrom, Bool.and_eq_true]
          exact ⟨h'.1, ih (some k) (fun l hl => by cases hl; omega) h'.2 (by simp; omega)⟩

theorem write_wf {m : Memory} (h : Memory.wf m = true) (a : Nat) (b : Byte) : Memory.wf (Memory.write m a b) = true :=
  write_wfFrom m none a b (fun _ hl => by cases hl) h

theorem writeFrom_wf {m : Memory} (h : Memory.wf m = true) (a : Nat) (bytes : List Byte) :
    Memory.wf (Memory.writeFrom m a bytes) = true := by
  induction bytes generalizing m a with
  | nil => exact h
  | cons b rest ih => exact ih (write_wf h a b) (a + 1)

theorem writeCells_wf {m : Memory} (h : Memory.wf m = true) (cells : List (Nat × Byte)) :
    Memory.wf (Memory.writeCells m cells) = true := by
  induction cells generalizing m with
  | nil => exact h
  | cons c rest ih => exact ih (write_wf h c.1 c.2)

theorem cutWrite_wf {m : Memory} (h : Memory.wf m = true) (write : Option (List Byte)) :
    Memory.wf (cutWrite m write) = true := by
  cases write with
  | none => exact h
  | some block => exact writeFrom_wf h _ _

/-! ### Reads after writes -/

theorem read_of_wfFrom {m : Memory} {k a : Nat} (h : Memory.wfFrom (some k) m = true) (ha : a ≤ k) :
    Memory.read m a = unwritten := by
  induction m generalizing k with
  | nil => rfl
  | cons c rest ih =>
    simp only [Memory.wfFrom, Bool.and_eq_true] at h
    have hk : k < c.1 := by simpa using h.1.1
    unfold Memory.read
    rw [if_neg (by omega)]
    exact ih h.2 (by omega)

theorem read_write_same {low : Option Nat} {m : Memory} (h : Memory.wfFrom low m = true) (a : Nat) (b : Byte) :
    Memory.read (Memory.write m a b) a = b := by
  induction m generalizing low with
  | nil =>
    unfold Memory.write
    split
    · rename_i hb
      exact hb.symm
    · simp [Memory.read]
  | cons c rest ih =>
    obtain ⟨k, d⟩ := c
    have h' := h
    simp only [Memory.wfFrom, Bool.and_eq_true] at h'
    unfold Memory.write
    split
    · split
      · rename_i hak hb
        rw [hb]
        unfold Memory.read
        rw [if_neg (by omega)]
        exact read_of_wfFrom h'.2 (by omega)
      · simp [Memory.read]
    · split
      · rename_i hak
        subst hak
        split
        · rename_i hb
          rw [hb]
          exact read_of_wfFrom h'.2 (le_refl _)
        · simp [Memory.read]
      · unfold Memory.read
        rw [if_neg (by omega)]
        exact ih h'.2

theorem read_write_other {low : Option Nat} {m : Memory} (h : Memory.wfFrom low m = true) {a c : Nat} (b : Byte)
    (hac : a ≠ c) : Memory.read (Memory.write m a b) c = Memory.read m c := by
  induction m generalizing low with
  | nil =>
    unfold Memory.write
    split
    · rfl
    · simp [Memory.read, hac]
  | cons e rest ih =>
    obtain ⟨k, d⟩ := e
    have h' := h
    simp only [Memory.wfFrom, Bool.and_eq_true] at h'
    unfold Memory.write
    split
    · split
      · rfl
      · simp [Memory.read, hac]
    · split
      · rename_i hak
        subst hak
        split
        · simp [Memory.read, hac]
        · simp [Memory.read, hac]
      · simp only [Memory.read]
        split
        · rfl
        · exact ih h'.2

/-- A byte outside the bytes written reads as before. -/
theorem read_writeFrom_outside {m : Memory} (h : Memory.wf m = true) (a : Nat) (bytes : List Byte) {c : Nat}
    (hc : c < a ∨ a + bytes.length ≤ c) : Memory.read (Memory.writeFrom m a bytes) c = Memory.read m c := by
  induction bytes generalizing m a with
  | nil => rfl
  | cons b rest ih =>
    rw [Memory.writeFrom, ih (write_wf h a b) (a + 1) (by simp at hc; omega)]
    exact read_write_other h b (by simp at hc; omega)

/-- A byte written reads back. -/
theorem read_writeFrom_inside {m : Memory} (h : Memory.wf m = true) (a : Nat) (bytes : List Byte) {i : Nat}
    (hi : i < bytes.length) : Memory.read (Memory.writeFrom m a bytes) (a + i) = bytes[i] := by
  induction bytes generalizing m a i with
  | nil => simp at hi
  | cons b rest ih =>
    rw [Memory.writeFrom]
    cases i with
    | zero =>
      rw [read_writeFrom_outside (write_wf h a b) (a + 1) rest (by omega)]
      exact read_write_same h a b
    | succ i =>
      have := ih (write_wf h a b) (a + 1) (i := i) (by simpa using hi)
      rw [show a + (i + 1) = a + 1 + i by omega, this]
      rfl

end Sys2Proof.Laws
end

