-- ==== Sys2Proof/Laws/Queue.lean ====
section
/-! SUPPORT. What the vend queue's operations do: removals with their answers (R27 to R29), the pick (R24), and the peers'
part in the admission sum (R156). -/

namespace Sys2Proof.Laws

open Sys2Proof.Machine

/-! ### The admission sum -/

@[simp] theorem countedPeers_alone {c : Settings} (peers : List Peer) (h : c.stationCount = 1) : countedPeers c peers = 0 := by
  simp [countedPeers, h]

@[simp] theorem countedPeers_bank {c : Settings} (peers : List Peer) (h : c.stationCount ≠ 1) :
    countedPeers c peers = (peers.map fun p => p.counted c).sum := by
  simp [countedPeers, h]

/-! ### Frames handed -/

/-- A frame that the line state allows and the queue has room for is its newest. -/
theorem hand_queue {s : Station} {dst : Nat} {body : FrameBody} (hs : sendAllowed s.line.state body = true)
    (hb : body.isHeartbeat = false) (hr : s.line.queue.length < 8) :
    (s.hand dst body).line.queue = s.line.queue ++ [⟨dst, body, false⟩] := by
  simp [Station.hand, Station.handFrame, queueFrame, replacesBehindHead, hs, hb, hr]

/-- A frame that the line state does not allow changes nothing. -/
theorem hand_unsent {s : Station} {dst : Nat} {body : FrameBody} (hs : sendAllowed s.line.state body = false) :
    s.hand dst body = s := by
  simp [Station.hand, Station.handFrame, hs]

theorem sendsAnswers_iff (s : Station) {body : FrameBody} (ho : body.onlyActive = false) (hb : body.isHeartbeat = false) :
    s.sendsAnswers ↔ sendAllowed s.line.state body = true := by
  unfold Station.sendsAnswers Station.active
  cases h : s.line.state with
  | isolated cause => cases cause <;> simp [sendAllowed, ho, hb]
  | offline => simp [sendAllowed]
  | halted => simp [sendAllowed]
  | listen => simp [sendAllowed, ho]
  | active => simp [sendAllowed]

/-! ### Answers to entries -/

/-- What a block's answer to an entry does to the transmit queue: the frame, if there is one, is the newest. -/
def HandsOver (s t : Station) (f : Option Frame) : Prop :=
  t.line.state = s.line.state ∧ (s.sendsAnswers → s.line.queue.length + f.toList.length ≤ 8 → t.line.queue = s.line.queue ++ f.toList) ∧
    (¬s.sendsAnswers → t.line.queue = s.line.queue)

theorem state_of_kept {l : List Region} {s t : Station} (h : Kept l s t) (hl : Region.line ∉ l) : t.line.state = s.line.state := by
  have hline : t.line.owned = s.line.owned := h .line hl
  exact congrArg (fun l => l.state) hline

/-- An operation that keeps line and transmit queue hands nothing over. -/
theorem HandsOver.of_kept {l : List Region} {s t : Station} (h : Kept l s t) (hl : Region.line ∉ l)
    (hq : Region.lineQueue ∉ l) : HandsOver s t none := by
  have hline : t.line.queue = s.line.queue := congrArg Prod.fst (h .lineQueue hq)
  exact ⟨state_of_kept h hl, fun _ _ => by simp [hline], fun _ => hline⟩

/-- A REFUSE or a RESULT handed to a peer. -/
theorem HandsOver.of_hand (s : Station) (dst : Nat) (body : FrameBody) (ho : body.onlyActive = false)
    (hb : body.isHeartbeat = false) : HandsOver s (s.hand dst body) (some ⟨dst, body, false⟩) := by
  refine ⟨state_of_kept (hand_kept s dst body) (by decide), fun hs hr => ?_, fun hs => ?_⟩
  · exact hand_queue ((sendsAnswers_iff s ho hb).mp hs) hb (by simpa using hr)
  · rw [hand_unsent (Bool.eq_false_iff.mpr fun h => hs ((sendsAnswers_iff s ho hb).mpr h))]

theorem answerResult_handsOver (s : Station) (e : Entry) (o : Outcome) (drops : Nat) :
    HandsOver s (s.answerResult e o drops) (resultFrame o drops e) := by
  unfold Station.answerResult resultFrame
  split <;> simp_all only
  · exact .of_kept (takeResult_kept s _ _ _ _) (by decide) (by decide)
  · exact .of_hand s _ _ rfl rfl
  · exact .of_kept (Kept.refl [] s) (by decide) (by decide)

theorem answerRefuse_handsOver (s : Station) (e : Entry) (r : Reason) :
    HandsOver s (s.answerRefuse e r) (refuseFrame r e) := by
  unfold Station.answerRefuse refuseFrame
  split <;> simp_all only
  · exact .of_kept (takeRefuse_kept s _ _ _) (by decide) (by decide)
  · exact .of_hand s _ _ rfl rfl
  · exact .of_kept (Kept.refl [] s) (by decide) (by decide)

/-- R27 to R29: the answer to one removed entry. -/
theorem answerRemoved_handsOver (r : Reason) (o : Outcome) (s : Station) (e : Entry) :
    HandsOver s (Station.answerRemoved r o s e) (removedFrame r o e) := by
  unfold Station.answerRemoved removedFrame
  cases e.state with
  | awaitCommit => exact answerRefuse_handsOver s e r
  | committed => exact answerResult_handsOver s e o 0
  | vending => exact .of_kept (Kept.refl [] s) (by decide) (by decide)

theorem sendsAnswers_congr {s t : Station} (h : t.line.state = s.line.state) : t.sendsAnswers ↔ s.sendsAnswers := by
  unfold Station.sendsAnswers Station.active; rw [h]

/-- R27 to R29: the answers of removed entries stand in the transmit queue in their order, behind what stood there. -/
theorem foldl_answerRemoved_line (r : Reason) (o : Outcome) (entries : List Entry) (s : Station) :
    (s.sendsAnswers → s.line.queue.length + (entries.filterMap (removedFrame r o)).length ≤ 8 →
      (entries.foldl (Station.answerRemoved r o) s).line.queue =
        s.line.queue ++ entries.filterMap (removedFrame r o)) ∧
    (¬s.sendsAnswers → (entries.foldl (Station.answerRemoved r o) s).line.queue = s.line.queue) := by
  induction entries generalizing s with
  | nil => exact ⟨fun _ _ => (List.append_nil _).symm, fun _ => rfl⟩
  | cons e rest ih =>
    obtain ⟨hstate, hsent, hunsent⟩ := answerRemoved_handsOver r o s e
    have hkeep := sendsAnswers_congr hstate
    obtain ⟨ihs, ihu⟩ := ih (Station.answerRemoved r o s e)
    refine ⟨fun hs hroom => ?_, fun hs => ?_⟩
    · have hsplit : (e :: rest).filterMap (removedFrame r o) =
          (removedFrame r o e).toList ++ rest.filterMap (removedFrame r o) := by
        rw [List.filterMap_cons]; cases removedFrame r o e <;> rfl
      rw [hsplit, List.length_append] at hroom
      have hq := hsent hs (by omega)
      rw [List.foldl_cons, ihs (hkeep.mpr hs) (by rw [hq, List.length_append]; omega), hq, hsplit, List.append_assoc]
    · rw [List.foldl_cons, ihu fun h => hs (hkeep.mp h), hunsent hs]

/-- R27 to R29: what a removal does to the queues. -/
theorem removeEntries_queues (s : Station) (p : Entry → Bool) (r : Reason) (o : Outcome) :
    (s.removeEntries p r o).queue = s.queue.filter (fun e => !p e) ∧
    (s.sendsAnswers → s.line.queue.length + ((s.queue.filter p).filterMap (removedFrame r o)).length ≤ 8 →
      (s.removeEntries p r o).line.queue = s.line.queue ++ (s.queue.filter p).filterMap (removedFrame r o)) ∧
    (¬s.sendsAnswers → (s.removeEntries p r o).line.queue = s.line.queue) :=
  ⟨foldl_answerRemoved_kept r o _ _ .queue (by decide),
    foldl_answerRemoved_line r o (s.queue.filter p) { s with queue := s.queue.filter fun e => !p e }⟩

/-! ### The pick (R24) -/

/-- Changing the first match to a value made from the match found is changing it by the function. -/
theorem updateFirst_found {α : Type} {p : α → Bool} {g : α → α} {l : List α} {a : α} (h : l.find? p = some a) :
    updateFirst p (fun _ => g a) l = updateFirst p g l := by
  induction l with
  | nil => rfl
  | cons b rest ih =>
    cases hb : p b with
    | true => rw [List.find?_cons_of_pos hb] at h; cases h; simp [updateFirst, hb]
    | false =>
      rw [List.find?_cons_of_neg (by simp [hb])] at h
      simp [updateFirst, hb, ih h]

/-- R36, R38: the vend begun for an entry has counted nothing yet. -/
theorem beginVend_vend (s : Station) (e : Entry) :
    ∃ v, (s.beginVend e).vend = some v ∧ v.entry = e ∧ v.drops = 0 ∧ v.turnsUsed = 0 ∧ v.jams = 0 := by
  unfold Station.beginVend
  split
  · exact ⟨_, rfl, rfl, rfl, rfl, rfl⟩
  · exact ⟨Vend.fresh e, request_kept _ _ _ .vend (by decide), rfl, rfl, rfl, rfl⟩

/-- With a vend in flight nothing is picked. -/
theorem pick_of_vend {s : Station} {v : Vend} (h : s.vend = some v) : s.pick = s := by simp [Station.pick, h]

theorem pick_of_none {s : Station} (h : s.vend = none) (hp : s.queue.find? s.pickable = none) : s.pick = s := by
  simp [Station.pick, h, hp]

/-- R24: the oldest pickable entry becomes VENDING in its place, with a fresh vend. -/
theorem pick_of_some {s : Station} {e : Entry} (h : s.vend = none) (hp : s.queue.find? s.pickable = some e) :
    s.pick.queue = updateFirst s.pickable (fun f => { f with state := .vending }) s.queue ∧
    ∃ v, s.pick.vend = some v ∧ v.entry = { e with state := .vending } ∧ v.drops = 0 ∧ v.turnsUsed = 0 ∧ v.jams = 0 := by
  simp only [Station.pick, h, hp]
  exact ⟨(beginVend_kept _ _ .queue (by decide)).trans (updateFirst_found (g := fun f => { f with state := .vending }) hp),
    beginVend_vend _ _⟩

end Sys2Proof.Laws
end

