-- ==== Sys2Proof/Laws/State.lean ====
section
/-! SUPPORT. Updates of the state by field: what each named update writes, and every field that it leaves. -/

namespace Sys2Proof.Laws

open Sys2Proof.Machine

/-! ### The queue of waiting commands -/

variable (s : Station)

@[simp] theorem withPending_station (m : State) (p : List Instr) : (m.withPending p).station = m.station := rfl
@[simp] theorem withPending_mem (m : State) (p : List Instr) : (m.withPending p).mem = m.mem := rfl
@[simp] theorem withPending_saveWrite (m : State) (p : List Instr) : (m.withPending p).saveWrite = m.saveWrite := rfl
@[simp] theorem withPending_pending (m : State) (p : List Instr) : (m.withPending p).pending = p := rfl
@[simp] theorem withPending_withPending (m : State) (p q : List Instr) : (m.withPending p).withPending q = m.withPending q := rfl

/-! ### `setCooling` -/

@[simp] theorem setCooling_now (f : Cooling → Cooling) : (s.setCooling f).now = s.now := rfl
@[simp] theorem setCooling_start (f : Cooling → Cooling) : (s.setCooling f).start = s.start := rfl
@[simp] theorem setCooling_built (f : Cooling → Cooling) : (s.setCooling f).built = s.built := rfl
@[simp] theorem setCooling_configInvalid (f : Cooling → Cooling) : (s.setCooling f).configInvalid = s.configInvalid := rfl
@[simp] theorem setCooling_seqCount (f : Cooling → Cooling) : (s.setCooling f).seqCount = s.seqCount := rfl
@[simp] theorem setCooling_cfg (f : Cooling → Cooling) : (s.setCooling f).cfg = s.cfg := rfl
@[simp] theorem setCooling_spirals (f : Cooling → Cooling) : (s.setCooling f).spirals = s.spirals := rfl
@[simp] theorem setCooling_homeOpen (f : Cooling → Cooling) : (s.setCooling f).homeOpen = s.homeOpen := rfl
@[simp] theorem setCooling_queue (f : Cooling → Cooling) : (s.setCooling f).queue = s.queue := rfl
@[simp] theorem setCooling_vend (f : Cooling → Cooling) : (s.setCooling f).vend = s.vend := rfl
@[simp] theorem setCooling_chute (f : Cooling → Cooling) : (s.setCooling f).chute = s.chute := rfl
@[simp] theorem setCooling_coin (f : Cooling → Cooling) : (s.setCooling f).coin = s.coin := rfl
@[simp] theorem setCooling_exactLit (f : Cooling → Cooling) : (s.setCooling f).exactLit = s.exactLit := rfl
@[simp] theorem setCooling_payout (f : Cooling → Cooling) : (s.setCooling f).payout = s.payout := rfl
@[simp] theorem setCooling_txn (f : Cooling → Cooling) : (s.setCooling f).txn = s.txn := rfl
@[simp] theorem setCooling_panel (f : Cooling → Cooling) : (s.setCooling f).panel = s.panel := rfl
@[simp] theorem setCooling_service (f : Cooling → Cooling) : (s.setCooling f).service = s.service := rfl
@[simp] theorem setCooling_cooling (f : Cooling → Cooling) : (s.setCooling f).cooling = f s.cooling := rfl
@[simp] theorem setCooling_power (f : Cooling → Cooling) : (s.setCooling f).power = s.power := rfl
@[simp] theorem setCooling_line (f : Cooling → Cooling) : (s.setCooling f).line = s.line := rfl
@[simp] theorem setCooling_peers (f : Cooling → Cooling) : (s.setCooling f).peers = s.peers := rfl
@[simp] theorem setCooling_faults (f : Cooling → Cooling) : (s.setCooling f).faults = s.faults := rfl
@[simp] theorem setCooling_audit (f : Cooling → Cooling) : (s.setCooling f).audit = s.audit := rfl
@[simp] theorem setCooling_pins (f : Cooling → Cooling) : (s.setCooling f).pins = s.pins := rfl

/-! ### `setMessage` -/

@[simp] theorem setMessage_now (m : Message) (n : Nat) : (s.setMessage m n).now = s.now := rfl
@[simp] theorem setMessage_start (m : Message) (n : Nat) : (s.setMessage m n).start = s.start := rfl
@[simp] theorem setMessage_built (m : Message) (n : Nat) : (s.setMessage m n).built = s.built := rfl
@[simp] theorem setMessage_configInvalid (m : Message) (n : Nat) : (s.setMessage m n).configInvalid = s.configInvalid := rfl
@[simp] theorem setMessage_seqCount (m : Message) (n : Nat) : (s.setMessage m n).seqCount = s.seqCount := rfl
@[simp] theorem setMessage_cfg (m : Message) (n : Nat) : (s.setMessage m n).cfg = s.cfg := rfl
@[simp] theorem setMessage_spirals (m : Message) (n : Nat) : (s.setMessage m n).spirals = s.spirals := rfl
@[simp] theorem setMessage_homeOpen (m : Message) (n : Nat) : (s.setMessage m n).homeOpen = s.homeOpen := rfl
@[simp] theorem setMessage_queue (m : Message) (n : Nat) : (s.setMessage m n).queue = s.queue := rfl
@[simp] theorem setMessage_vend (m : Message) (n : Nat) : (s.setMessage m n).vend = s.vend := rfl
@[simp] theorem setMessage_chute (m : Message) (n : Nat) : (s.setMessage m n).chute = s.chute := rfl
@[simp] theorem setMessage_coin (m : Message) (n : Nat) : (s.setMessage m n).coin = s.coin := rfl
@[simp] theorem setMessage_exactLit (m : Message) (n : Nat) : (s.setMessage m n).exactLit = s.exactLit := rfl
@[simp] theorem setMessage_payout (m : Message) (n : Nat) : (s.setMessage m n).payout = s.payout := rfl
@[simp] theorem setMessage_txn (m : Message) (n : Nat) : (s.setMessage m n).txn = s.txn := rfl
@[simp] theorem setMessage_panel (m : Message) (n : Nat) : (s.setMessage m n).panel = { s.panel with message := some m, messageTimer := 0, messageLength := n } := rfl
@[simp] theorem setMessage_service (m : Message) (n : Nat) : (s.setMessage m n).service = s.service := rfl
@[simp] theorem setMessage_cooling (m : Message) (n : Nat) : (s.setMessage m n).cooling = s.cooling := rfl
@[simp] theorem setMessage_power (m : Message) (n : Nat) : (s.setMessage m n).power = s.power := rfl
@[simp] theorem setMessage_line (m : Message) (n : Nat) : (s.setMessage m n).line = s.line := rfl
@[simp] theorem setMessage_peers (m : Message) (n : Nat) : (s.setMessage m n).peers = s.peers := rfl
@[simp] theorem setMessage_faults (m : Message) (n : Nat) : (s.setMessage m n).faults = s.faults := rfl
@[simp] theorem setMessage_audit (m : Message) (n : Nat) : (s.setMessage m n).audit = s.audit := rfl
@[simp] theorem setMessage_pins (m : Message) (n : Nat) : (s.setMessage m n).pins = s.pins := rfl

/-! ### `setRequest` -/

@[simp] theorem setRequest_now (cls : LoadClass) (f : Request → Request) : (s.setRequest cls f).now = s.now := rfl
@[simp] theorem setRequest_start (cls : LoadClass) (f : Request → Request) : (s.setRequest cls f).start = s.start := rfl
@[simp] theorem setRequest_built (cls : LoadClass) (f : Request → Request) : (s.setRequest cls f).built = s.built := rfl
@[simp] theorem setRequest_configInvalid (cls : LoadClass) (f : Request → Request) : (s.setRequest cls f).configInvalid = s.configInvalid := rfl
@[simp] theorem setRequest_seqCount (cls : LoadClass) (f : Request → Request) : (s.setRequest cls f).seqCount = s.seqCount := rfl
@[simp] theorem setRequest_cfg (cls : LoadClass) (f : Request → Request) : (s.setRequest cls f).cfg = s.cfg := rfl
@[simp] theorem setRequest_spirals (cls : LoadClass) (f : Request → Request) : (s.setRequest cls f).spirals = s.spirals := rfl
@[simp] theorem setRequest_homeOpen (cls : LoadClass) (f : Request → Request) : (s.setRequest cls f).homeOpen = s.homeOpen := rfl
@[simp] theorem setRequest_queue (cls : LoadClass) (f : Request → Request) : (s.setRequest cls f).queue = s.queue := rfl
@[simp] theorem setRequest_vend (cls : LoadClass) (f : Request → Request) : (s.setRequest cls f).vend = s.vend := rfl
@[simp] theorem setRequest_chute (cls : LoadClass) (f : Request → Request) : (s.setRequest cls f).chute = s.chute := rfl
@[simp] theorem setRequest_coin (cls : LoadClass) (f : Request → Request) : (s.setRequest cls f).coin = s.coin := rfl
@[simp] theorem setRequest_exactLit (cls : LoadClass) (f : Request → Request) : (s.setRequest cls f).exactLit = s.exactLit := rfl
@[simp] theorem setRequest_payout (cls : LoadClass) (f : Request → Request) : (s.setRequest cls f).payout = s.payout := rfl
@[simp] theorem setRequest_txn (cls : LoadClass) (f : Request → Request) : (s.setRequest cls f).txn = s.txn := rfl
@[simp] theorem setRequest_panel (cls : LoadClass) (f : Request → Request) : (s.setRequest cls f).panel = s.panel := rfl
@[simp] theorem setRequest_service (cls : LoadClass) (f : Request → Request) : (s.setRequest cls f).service = s.service := rfl
@[simp] theorem setRequest_cooling (cls : LoadClass) (f : Request → Request) : (s.setRequest cls f).cooling = s.cooling := rfl
@[simp] theorem setRequest_power (cls : LoadClass) (f : Request → Request) : (s.setRequest cls f).power = { s.power with requests := updateFirst (fun r => r.cls = cls) f s.power.requests } := rfl
@[simp] theorem setRequest_line (cls : LoadClass) (f : Request → Request) : (s.setRequest cls f).line = s.line := rfl
@[simp] theorem setRequest_peers (cls : LoadClass) (f : Request → Request) : (s.setRequest cls f).peers = s.peers := rfl
@[simp] theorem setRequest_faults (cls : LoadClass) (f : Request → Request) : (s.setRequest cls f).faults = s.faults := rfl
@[simp] theorem setRequest_audit (cls : LoadClass) (f : Request → Request) : (s.setRequest cls f).audit = s.audit := rfl
@[simp] theorem setRequest_pins (cls : LoadClass) (f : Request → Request) : (s.setRequest cls f).pins = s.pins := rfl

/-! ### `dropRequest` -/

@[simp] theorem dropRequest_now (cls : LoadClass) : (s.dropRequest cls).now = s.now := rfl
@[simp] theorem dropRequest_start (cls : LoadClass) : (s.dropRequest cls).start = s.start := rfl
@[simp] theorem dropRequest_built (cls : LoadClass) : (s.dropRequest cls).built = s.built := rfl
@[simp] theorem dropRequest_configInvalid (cls : LoadClass) : (s.dropRequest cls).configInvalid = s.configInvalid := rfl
@[simp] theorem dropRequest_seqCount (cls : LoadClass) : (s.dropRequest cls).seqCount = s.seqCount := rfl
@[simp] theorem dropRequest_cfg (cls : LoadClass) : (s.dropRequest cls).cfg = s.cfg := rfl
@[simp] theorem dropRequest_spirals (cls : LoadClass) : (s.dropRequest cls).spirals = s.spirals := rfl
@[simp] theorem dropRequest_homeOpen (cls : LoadClass) : (s.dropRequest cls).homeOpen = s.homeOpen := rfl
@[simp] theorem dropRequest_queue (cls : LoadClass) : (s.dropRequest cls).queue = s.queue := rfl
@[simp] theorem dropRequest_vend (cls : LoadClass) : (s.dropRequest cls).vend = s.vend := rfl
@[simp] theorem dropRequest_chute (cls : LoadClass) : (s.dropRequest cls).chute = s.chute := rfl
@[simp] theorem dropRequest_coin (cls : LoadClass) : (s.dropRequest cls).coin = s.coin := rfl
@[simp] theorem dropRequest_exactLit (cls : LoadClass) : (s.dropRequest cls).exactLit = s.exactLit := rfl
@[simp] theorem dropRequest_payout (cls : LoadClass) : (s.dropRequest cls).payout = s.payout := rfl
@[simp] theorem dropRequest_txn (cls : LoadClass) : (s.dropRequest cls).txn = s.txn := rfl
@[simp] theorem dropRequest_panel (cls : LoadClass) : (s.dropRequest cls).panel = s.panel := rfl
@[simp] theorem dropRequest_service (cls : LoadClass) : (s.dropRequest cls).service = s.service := rfl
@[simp] theorem dropRequest_cooling (cls : LoadClass) : (s.dropRequest cls).cooling = s.cooling := rfl
@[simp] theorem dropRequest_power (cls : LoadClass) : (s.dropRequest cls).power = { s.power with requests := removeFirst (fun r => r.cls = cls) s.power.requests } := rfl
@[simp] theorem dropRequest_line (cls : LoadClass) : (s.dropRequest cls).line = s.line := rfl
@[simp] theorem dropRequest_peers (cls : LoadClass) : (s.dropRequest cls).peers = s.peers := rfl
@[simp] theorem dropRequest_faults (cls : LoadClass) : (s.dropRequest cls).faults = s.faults := rfl
@[simp] theorem dropRequest_audit (cls : LoadClass) : (s.dropRequest cls).audit = s.audit := rfl
@[simp] theorem dropRequest_pins (cls : LoadClass) : (s.dropRequest cls).pins = s.pins := rfl

/-! ### `setBeam` -/

@[simp] theorem setBeam_now (b : Bool) : (s.setBeam b).now = s.now := rfl
@[simp] theorem setBeam_start (b : Bool) : (s.setBeam b).start = s.start := rfl
@[simp] theorem setBeam_built (b : Bool) : (s.setBeam b).built = s.built := rfl
@[simp] theorem setBeam_configInvalid (b : Bool) : (s.setBeam b).configInvalid = s.configInvalid := rfl
@[simp] theorem setBeam_seqCount (b : Bool) : (s.setBeam b).seqCount = s.seqCount := rfl
@[simp] theorem setBeam_cfg (b : Bool) : (s.setBeam b).cfg = s.cfg := rfl
@[simp] theorem setBeam_spirals (b : Bool) : (s.setBeam b).spirals = s.spirals := rfl
@[simp] theorem setBeam_homeOpen (b : Bool) : (s.setBeam b).homeOpen = s.homeOpen := rfl
@[simp] theorem setBeam_queue (b : Bool) : (s.setBeam b).queue = s.queue := rfl
@[simp] theorem setBeam_vend (b : Bool) : (s.setBeam b).vend = s.vend := rfl
@[simp] theorem setBeam_chute (b : Bool) : (s.setBeam b).chute = { s.chute with blocked := b, beamTime := 0 } := rfl
@[simp] theorem setBeam_coin (b : Bool) : (s.setBeam b).coin = s.coin := rfl
@[simp] theorem setBeam_exactLit (b : Bool) : (s.setBeam b).exactLit = s.exactLit := rfl
@[simp] theorem setBeam_payout (b : Bool) : (s.setBeam b).payout = s.payout := rfl
@[simp] theorem setBeam_txn (b : Bool) : (s.setBeam b).txn = s.txn := rfl
@[simp] theorem setBeam_panel (b : Bool) : (s.setBeam b).panel = s.panel := rfl
@[simp] theorem setBeam_service (b : Bool) : (s.setBeam b).service = s.service := rfl
@[simp] theorem setBeam_cooling (b : Bool) : (s.setBeam b).cooling = s.cooling := rfl
@[simp] theorem setBeam_power (b : Bool) : (s.setBeam b).power = s.power := rfl
@[simp] theorem setBeam_line (b : Bool) : (s.setBeam b).line = s.line := rfl
@[simp] theorem setBeam_peers (b : Bool) : (s.setBeam b).peers = s.peers := rfl
@[simp] theorem setBeam_faults (b : Bool) : (s.setBeam b).faults = s.faults := rfl
@[simp] theorem setBeam_audit (b : Bool) : (s.setBeam b).audit = s.audit := rfl
@[simp] theorem setBeam_pins (b : Bool) : (s.setBeam b).pins = s.pins := rfl

/-! ### Spiral and tube records -/

@[simp] theorem setSpiral_now (i : Nat) (f : Spiral → Spiral) : (s.setSpiral i f).now = s.now := by
  unfold Station.setSpiral; split <;> rfl
@[simp] theorem setSpiral_start (i : Nat) (f : Spiral → Spiral) : (s.setSpiral i f).start = s.start := by
  unfold Station.setSpiral; split <;> rfl
@[simp] theorem setSpiral_built (i : Nat) (f : Spiral → Spiral) : (s.setSpiral i f).built = s.built := by
  unfold Station.setSpiral; split <;> rfl
@[simp] theorem setSpiral_configInvalid (i : Nat) (f : Spiral → Spiral) : (s.setSpiral i f).configInvalid = s.configInvalid := by
  unfold Station.setSpiral; split <;> rfl
@[simp] theorem setSpiral_seqCount (i : Nat) (f : Spiral → Spiral) : (s.setSpiral i f).seqCount = s.seqCount := by
  unfold Station.setSpiral; split <;> rfl
@[simp] theorem setSpiral_cfg (i : Nat) (f : Spiral → Spiral) : (s.setSpiral i f).cfg = s.cfg := by
  unfold Station.setSpiral; split <;> rfl
@[simp] theorem setSpiral_homeOpen (i : Nat) (f : Spiral → Spiral) : (s.setSpiral i f).homeOpen = s.homeOpen := by
  unfold Station.setSpiral; split <;> rfl
@[simp] theorem setSpiral_queue (i : Nat) (f : Spiral → Spiral) : (s.setSpiral i f).queue = s.queue := by
  unfold Station.setSpiral; split <;> rfl
@[simp] theorem setSpiral_vend (i : Nat) (f : Spiral → Spiral) : (s.setSpiral i f).vend = s.vend := by
  unfold Station.setSpiral; split <;> rfl
@[simp] theorem setSpiral_chute (i : Nat) (f : Spiral → Spiral) : (s.setSpiral i f).chute = s.chute := by
  unfold Station.setSpiral; split <;> rfl
@[simp] theorem setSpiral_coin (i : Nat) (f : Spiral → Spiral) : (s.setSpiral i f).coin = s.coin := by
  unfold Station.setSpiral; split <;> rfl
@[simp] theorem setSpiral_exactLit (i : Nat) (f : Spiral → Spiral) : (s.setSpiral i f).exactLit = s.exactLit := by
  unfold Station.setSpiral; split <;> rfl
@[simp] theorem setSpiral_payout (i : Nat) (f : Spiral → Spiral) : (s.setSpiral i f).payout = s.payout := by
  unfold Station.setSpiral; split <;> rfl
@[simp] theorem setSpiral_txn (i : Nat) (f : Spiral → Spiral) : (s.setSpiral i f).txn = s.txn := by
  unfold Station.setSpiral; split <;> rfl
@[simp] theorem setSpiral_panel (i : Nat) (f : Spiral → Spiral) : (s.setSpiral i f).panel = s.panel := by
  unfold Station.setSpiral; split <;> rfl
@[simp] theorem setSpiral_service (i : Nat) (f : Spiral → Spiral) : (s.setSpiral i f).service = s.service := by
  unfold Station.setSpiral; split <;> rfl
@[simp] theorem setSpiral_cooling (i : Nat) (f : Spiral → Spiral) : (s.setSpiral i f).cooling = s.cooling := by
  unfold Station.setSpiral; split <;> rfl
@[simp] theorem setSpiral_power (i : Nat) (f : Spiral → Spiral) : (s.setSpiral i f).power = s.power := by
  unfold Station.setSpiral; split <;> rfl
@[simp] theorem setSpiral_line (i : Nat) (f : Spiral → Spiral) : (s.setSpiral i f).line = s.line := by
  unfold Station.setSpiral; split <;> rfl
@[simp] theorem setSpiral_peers (i : Nat) (f : Spiral → Spiral) : (s.setSpiral i f).peers = s.peers := by
  unfold Station.setSpiral; split <;> rfl
@[simp] theorem setSpiral_faults (i : Nat) (f : Spiral → Spiral) : (s.setSpiral i f).faults = s.faults := by
  unfold Station.setSpiral; split <;> rfl
@[simp] theorem setSpiral_audit (i : Nat) (f : Spiral → Spiral) : (s.setSpiral i f).audit = s.audit := by
  unfold Station.setSpiral; split <;> rfl
@[simp] theorem setSpiral_pins (i : Nat) (f : Spiral → Spiral) : (s.setSpiral i f).pins = s.pins := by
  unfold Station.setSpiral; split <;> rfl

@[simp] theorem setTube_now (i : Nat) (f : Tube → Tube) : (s.setTube i f).now = s.now := by
  unfold Station.setTube; split <;> rfl
@[simp] theorem setTube_start (i : Nat) (f : Tube → Tube) : (s.setTube i f).start = s.start := by
  unfold Station.setTube; split <;> rfl
@[simp] theorem setTube_built (i : Nat) (f : Tube → Tube) : (s.setTube i f).built = s.built := by
  unfold Station.setTube; split <;> rfl
@[simp] theorem setTube_configInvalid (i : Nat) (f : Tube → Tube) : (s.setTube i f).configInvalid = s.configInvalid := by
  unfold Station.setTube; split <;> rfl
@[simp] theorem setTube_seqCount (i : Nat) (f : Tube → Tube) : (s.setTube i f).seqCount = s.seqCount := by
  unfold Station.setTube; split <;> rfl
@[simp] theorem setTube_cfg (i : Nat) (f : Tube → Tube) : (s.setTube i f).cfg = s.cfg := by
  unfold Station.setTube; split <;> rfl
@[simp] theorem setTube_spirals (i : Nat) (f : Tube → Tube) : (s.setTube i f).spirals = s.spirals := by
  unfold Station.setTube; split <;> rfl
@[simp] theorem setTube_homeOpen (i : Nat) (f : Tube → Tube) : (s.setTube i f).homeOpen = s.homeOpen := by
  unfold Station.setTube; split <;> rfl
@[simp] theorem setTube_queue (i : Nat) (f : Tube → Tube) : (s.setTube i f).queue = s.queue := by
  unfold Station.setTube; split <;> rfl
@[simp] theorem setTube_vend (i : Nat) (f : Tube → Tube) : (s.setTube i f).vend = s.vend := by
  unfold Station.setTube; split <;> rfl
@[simp] theorem setTube_chute (i : Nat) (f : Tube → Tube) : (s.setTube i f).chute = s.chute := by
  unfold Station.setTube; split <;> rfl
@[simp] theorem setTube_exactLit (i : Nat) (f : Tube → Tube) : (s.setTube i f).exactLit = s.exactLit := by
  unfold Station.setTube; split <;> rfl
@[simp] theorem setTube_payout (i : Nat) (f : Tube → Tube) : (s.setTube i f).payout = s.payout := by
  unfold Station.setTube; split <;> rfl
@[simp] theorem setTube_txn (i : Nat) (f : Tube → Tube) : (s.setTube i f).txn = s.txn := by
  unfold Station.setTube; split <;> rfl
@[simp] theorem setTube_panel (i : Nat) (f : Tube → Tube) : (s.setTube i f).panel = s.panel := by
  unfold Station.setTube; split <;> rfl
@[simp] theorem setTube_service (i : Nat) (f : Tube → Tube) : (s.setTube i f).service = s.service := by
  unfold Station.setTube; split <;> rfl
@[simp] theorem setTube_cooling (i : Nat) (f : Tube → Tube) : (s.setTube i f).cooling = s.cooling := by
  unfold Station.setTube; split <;> rfl
@[simp] theorem setTube_power (i : Nat) (f : Tube → Tube) : (s.setTube i f).power = s.power := by
  unfold Station.setTube; split <;> rfl
@[simp] theorem setTube_line (i : Nat) (f : Tube → Tube) : (s.setTube i f).line = s.line := by
  unfold Station.setTube; split <;> rfl
@[simp] theorem setTube_peers (i : Nat) (f : Tube → Tube) : (s.setTube i f).peers = s.peers := by
  unfold Station.setTube; split <;> rfl
@[simp] theorem setTube_faults (i : Nat) (f : Tube → Tube) : (s.setTube i f).faults = s.faults := by
  unfold Station.setTube; split <;> rfl
@[simp] theorem setTube_audit (i : Nat) (f : Tube → Tube) : (s.setTube i f).audit = s.audit := by
  unfold Station.setTube; split <;> rfl
@[simp] theorem setTube_pins (i : Nat) (f : Tube → Tube) : (s.setTube i f).pins = s.pins := by
  unfold Station.setTube; split <;> rfl

/-! ### Own slots -/

@[simp] theorem setSlot_slot_self (p : Power) (cls : LoadClass) (f : Option Fig) : (p.setSlot cls f).slot cls = f := by
  cases cls <;> rfl

@[simp] theorem setSlot_requests (p : Power) (cls : LoadClass) (f : Option Fig) : (p.setSlot cls f).requests = p.requests := by
  cases cls <;> rfl

theorem setSlot_slot_other (p : Power) (cls other : LoadClass) (f : Option Fig) (h : other ≠ cls) :
    (p.setSlot cls f).slot other = p.slot other := by
  cases cls <;> cases other <;> first | rfl | exact absurd rfl h

/-! ### Lists of records -/

@[simp] theorem updateAt_length {α : Type} (l : List α) (n : Nat) (f : α → α) : (updateAt l n f).length = l.length := by
  induction l generalizing n with
  | nil => rfl
  | cons a rest ih => cases n <;> simp [updateAt, ih]

@[simp] theorem updateFirst_length {α : Type} (p : α → Bool) (f : α → α) (l : List α) :
    (updateFirst p f l).length = l.length := by
  induction l with
  | nil => rfl
  | cons a rest ih => unfold updateFirst; split <;> simp [ih]

theorem removeFirst_sublist {α : Type} (p : α → Bool) (l : List α) : (removeFirst p l).Sublist l := by
  induction l with
  | nil => exact List.Sublist.refl []
  | cons a rest ih =>
    unfold removeFirst
    split
    · exact List.sublist_cons_self a rest
    · exact ih.cons_cons a

theorem updateAt_getElem_self {α : Type} (l : List α) (n : Nat) (f : α → α) : (updateAt l n f)[n]? = l[n]?.map f := by
  induction l generalizing n with
  | nil => rfl
  | cons a rest ih => cases n <;> simp [updateAt, ih]

theorem updateAt_getElem_other {α : Type} (l : List α) (n m : Nat) (f : α → α) (h : m ≠ n) :
    (updateAt l n f)[m]? = l[m]? := by
  induction l generalizing n m with
  | nil => rfl
  | cons a rest ih =>
    cases n <;> cases m
    · exact absurd rfl h
    · rfl
    · rfl
    · simpa [updateAt] using ih _ _ (by omega)

end Sys2Proof.Laws
end

