-- ==== Sys2Proof/Laws/Steps.lean ====
section
/-! SUPPORT. What a command can do to the machine around the station: every command but five is one event of the station
(`exec_event`), and each of the five has its cases. -/

namespace Sys2Proof.Laws

open Sys2Proof.Machine

/-- The commands that touch more of the machine than the station. -/
def special : Instr → Bool
  | .powerOn => true
  | .resetInput => true
  | .loadEvent _ => true
  | .powerFailWarning => true
  | .savedBlockWritten _ => true
  | _ => false

/-- Every other command is one event of the station. -/
theorem exec_event (c : Instr) (h : special c = false) : ∃ body, ∀ s, exec c s = .next (event s body) := by
  cases c <;> first | exact ⟨_, fun _ => rfl⟩ | cases h

/-- What an event keeps of the machine. -/
theorem event_mem (s : State) (body : Station → Station) : (event s body).mem = s.mem := by
  unfold event
  rfl

theorem event_saveWrite (s : State) (body : Station → Station) : (event s body).saveWrite = s.saveWrite := by
  unfold event
  rfl

theorem event_pending (s : State) (body : Station → Station) : (event s body).pending = s.pending := by
  unfold event
  rfl

theorem event_station (s : State) (body : Station → Station) :
    (event s body).station = finish s.station (body s.station) := by
  unfold event
  rfl

/-- A level held for its time is a change (R35, R67, R98, R175, R190), one held for less is none. -/
theorem ifHeld_of_le {time held : Nat} (h : time ≤ held) (change : Station → Station) (s : Station) :
    ifHeld time held change s = change s := if_pos h

theorem ifHeld_of_lt {time held : Nat} (h : held < time) (change : Station → Station) (s : Station) :
    ifHeld time held change s = s := if_neg (Nat.not_le.mpr h)

/-- The cases of RESET_INPUT (R201, R202). -/
theorem resetInput_cases (s : State) :
    exec .resetInput s = .next (coldStart s) ∨ exec .resetInput s = .next (event s Station.warmReset) := by
  change execResetInput s = _ ∨ execResetInput s = _
  unfold execResetInput
  split
  · exact Or.inl rfl
  · exact Or.inr rfl

/-- The cases of LOAD_EVENT (R198). -/
theorem loadEvent_cases (inp : LoadInputs) (s : State) :
    exec (.loadEvent inp) s = .next s ∨
      exec (.loadEvent inp) s = .next { s with
        station := finish s.station (s.station.load (Memory.writeCells s.mem inp.programmed) inp),
        mem := Memory.writeCells s.mem inp.programmed } := by
  change execLoadEvent inp s = _ ∨ execLoadEvent inp s = _
  unfold execLoadEvent
  split
  · exact Or.inl rfl
  · exact Or.inr rfl

/-- The cases of POWER_FAIL_WARNING (R200, R203). -/
theorem powerFailWarning_cases (s : State) :
    exec .powerFailWarning s = .next s ∨
      exec .powerFailWarning s = .next { s with
        station := finish s.station s.station.halt.countWrite,
        saveWrite := some (savedBlock s.station.halt.countWrite) } ∨
      exec .powerFailWarning s = .next (event s Station.halt) := by
  change execPowerFailWarning s = _ ∨ execPowerFailWarning s = _ ∨ execPowerFailWarning s = _
  unfold execPowerFailWarning
  split
  · exact Or.inl rfl
  · split
    · exact Or.inr (Or.inl rfl)
    · exact Or.inr (Or.inr rfl)

/-- The cases of SAVED_BLOCK_WRITTEN (R200). -/
theorem savedBlockWritten_cases (complete : Bool) (s : State) :
    exec (.savedBlockWritten complete) s = .next s ∨
      ∃ block, s.saveWrite = some block ∧ exec (.savedBlockWritten complete) s = .next { s with
        mem := Memory.writeFrom s.mem blockAddress (if complete then block else cutBlock block), saveWrite := none } := by
  change execSavedBlockWritten complete s = _ ∨ ∃ block, s.saveWrite = some block ∧ execSavedBlockWritten complete s = _
  unfold execSavedBlockWritten
  cases h : s.saveWrite with
  | none => exact Or.inl rfl
  | some block => exact Or.inr ⟨block, rfl, rfl⟩

/-- What a step can do to the station: the end of an event, or nothing. -/
theorem exec_station (c : Instr) (s t : State) (h : exec c s = .next t) :
    t.station = s.station ∨ ∃ b, t.station = finish s.station b := by
  cases hs : special c with
  | false =>
    obtain ⟨body, hb⟩ := exec_event c hs
    rw [hb] at h
    cases h
    exact Or.inr ⟨_, event_station s body⟩
  | true =>
    cases c with
    | powerOn =>
      cases h
      exact Or.inr ⟨s.station.coldReset, by unfold coldStart; rfl⟩
    | resetInput =>
      rcases resetInput_cases s with h' | h' <;> rw [h'] at h <;> obtain rfl := Host.Outcome.next.inj h
      · exact Or.inr ⟨s.station.coldReset, by unfold coldStart; rfl⟩
      · exact Or.inr ⟨_, event_station s _⟩
    | loadEvent inp =>
      rcases loadEvent_cases inp s with h' | h' <;> rw [h'] at h <;> obtain rfl := Host.Outcome.next.inj h
      · exact Or.inl rfl
      · exact Or.inr ⟨_, rfl⟩
    | powerFailWarning =>
      rcases powerFailWarning_cases s with h' | h' | h' <;> rw [h'] at h <;> obtain rfl := Host.Outcome.next.inj h
      · exact Or.inl rfl
      · exact Or.inr ⟨s.station.halt.countWrite, rfl⟩
      · exact Or.inr ⟨_, event_station s _⟩
    | savedBlockWritten b =>
      rcases savedBlockWritten_cases b s with h' | ⟨_, _, h'⟩ <;> rw [h'] at h <;> obtain rfl := Host.Outcome.next.inj h <;> exact Or.inl rfl
    | _ => cases hs

/-- With no command waiting a step is an event in which a millisecond passes. -/
theorem step_idle (s : State) (h : s.pending = []) : step s = .next (event s (Station.advance 1)) := by
  unfold step
  rw [h]
  unfold tick happen
  rfl

/-- What a command that is one event of the station gives. -/
theorem gives_of_event {c : Instr} {s : State} {P : Station → Prop} (body : Station → Station)
    (h : exec c s = .next (event s body)) (hp : P (finish s.station (body s.station))) : Gives c s P :=
  ⟨event s body, h, event_mem s body, event_saveWrite s body, event_pending s body, by rwa [event_station]⟩

end Sys2Proof.Laws
end

