-- ==== Sys2Proof/Laws/Time.lean ====
section
/-! SUPPORT. What the passing of time and the assessments of R34 can do, and the bits of R169 read back. -/

namespace Sys2Proof.Laws

open Sys2Proof.Machine

/-! ### Time -/

theorem count_on (length d t : Nat) : count true length d t = min length (t + d) := rfl

theorem count_off (length d t : Nat) : count false length d t = t := rfl

/-- What time keeps of a vend. -/
theorem vend_advance_keeps (c : Settings) (d : Nat) (v : Vend) :
    (v.advance c d).entry = v.entry ∧ (v.advance c d).phase = v.phase ∧ (v.advance c d).turnsUsed = v.turnsUsed ∧
      (v.advance c d).jams = v.jams ∧ (v.advance c d).drops = v.drops ∧ (v.advance c d).direction = v.direction ∧
      (v.advance c d).current = v.current ∧ (v.advance c d).timer = min (phaseLength v.phase) (v.timer + d) := by
  unfold Vend.advance
  split <;> exact ⟨rfl, rfl, rfl, rfl, rfl, rfl, rfl, rfl⟩

/-- What time keeps of the station, HALTED or not. -/
theorem advance_keeps (d : Nat) (s : Station) :
    (s.advance d).now = s.now + d ∧ (s.advance d).cfg = s.cfg ∧ (s.advance d).start = s.start ∧
      (s.advance d).built = s.built ∧ (s.advance d).configInvalid = s.configInvalid ∧
      (s.advance d).seqCount = s.seqCount ∧ (s.advance d).spirals = s.spirals ∧ (s.advance d).homeOpen = s.homeOpen ∧
      (s.advance d).exactLit = s.exactLit ∧ (s.advance d).audit = s.audit ∧ (s.advance d).pins = s.pins ∧
      (s.advance d).line.state = s.line.state ∧ (s.advance d).line.queue = s.line.queue ∧
      (s.advance d).coin.tubes = s.coin.tubes ∧ (s.advance d).coin.journal = s.coin.journal ∧
      (s.advance d).faults.doorOpen = s.faults.doorOpen := by
  unfold Station.advance
  split <;> exact ⟨rfl, rfl, rfl, rfl, rfl, rfl, rfl, rfl, rfl, rfl, rfl, rfl, rfl, rfl, rfl, rfl⟩

/-- Time leaves the latched clash (R176). -/
theorem advance_clashLatched (d : Nat) (s : Station) : (s.advance d).line.clashLatched = s.line.clashLatched := by
  unfold Station.advance
  split <;> rfl

/-- The transaction's timers run but in HALTED (R109, R121, R203). -/
theorem advance_txn (d : Nat) (s : Station) (h : s.timersRun = true) :
    (s.advance d).txn = s.txn.advance s.cfg s.faults.doorOpen d := by
  unfold Station.advance
  rw [if_neg (by simpa [Station.timersRun] using h)]

/-- In HALTED time passes and nothing else (R203). -/
theorem advance_halted (d : Nat) (s : Station) (h : s.line.state = .halted) : s.advance d = { s with now := s.now + d } := by
  unfold Station.advance
  rw [if_pos h]

theorem advance_vend (d : Nat) (s : Station) (h : s.line.state ≠ .halted) :
    (s.advance d).vend = s.vend.map (Vend.advance s.cfg d) := by
  unfold Station.advance
  rw [if_neg h]

/-! ### Assessments (R34) -/

/-- One assessment of a vend. -/
def assessOnce (c : Settings) (v : Vend) (current : Nat) : Vend := (v.read current).advance c 1

theorem assessOnce_sense (c : Settings) (v : Vend) (x : Nat) : motorSense (assessOnce c v x) = motorSense v := by
  unfold motorSense
  rw [show (assessOnce c v x).phase = v.phase from (vend_advance_keeps c 1 (v.read x)).2.1]

/-- The fields that one assessment of an energised motor writes. -/
theorem assessOnce_fields (c : Settings) (v : Vend) (x : Nat) (d : Direction) (h : motorSense v = some d) :
    (assessOnce c v x).onTime = min 150 (v.onTime + 1) ∧
      (assessOnce c v x).low = (v.low && (decide (100 ≤ v.onTime) || decide (x < c.openThreshold))) ∧
      (assessOnce c v x).shorted = (v.shorted || (decide (v.onTime < 50) && decide (c.shortThreshold < x))) ∧
      (assessOnce c v x).jamRun =
        (if d = .forward ∧ c.jamThreshold < x then min 150 (v.jamRun + 1) else 0) := by
  have hr : motorSense (v.read x) = some d := h
  unfold assessOnce Vend.advance
  rw [hr]
  refine ⟨rfl, ?_, ?_, ?_⟩
  · simp [Vend.assess, Vend.read, Config.openCheckTime]
    rfl
  · simp [Vend.assess, Vend.read, Config.shortCheckTime]
    rfl
  · by_cases hd : d = .forward <;> by_cases hx : c.jamThreshold < x <;>
      simp [Vend.assess, Vend.read, count, Config.jamTime, hd, hx]

/-- The vend after assessments. -/
def assessAll (c : Settings) (v : Vend) (currents : List Nat) : Vend := currents.foldl (assessOnce c) v

theorem assessAll_sense (c : Settings) (currents : List Nat) :
    ∀ v, motorSense (assessAll c v currents) = motorSense v := by
  induction currents with
  | nil => intro v; rfl
  | cons x rest ih => intro v; exact (ih _).trans (assessOnce_sense c v x)

/-- What assessments keep of a vend. -/
theorem assessAll_keeps (c : Settings) (currents : List Nat) :
    ∀ v, (assessAll c v currents).entry = v.entry ∧ (assessAll c v currents).phase = v.phase ∧
      (assessAll c v currents).turnsUsed = v.turnsUsed ∧ (assessAll c v currents).jams = v.jams ∧
      (assessAll c v currents).drops = v.drops := by
  induction currents with
  | nil => intro v; exact ⟨rfl, rfl, rfl, rfl, rfl⟩
  | cons x rest ih =>
    intro v
    obtain ⟨h1, h2, h3, h4, h5, -⟩ := vend_advance_keeps c 1 (v.read x)
    obtain ⟨k1, k2, k3, k4, k5⟩ := ih (assessOnce c v x)
    exact ⟨k1.trans h1, k2.trans h2, k3.trans h3, k4.trans h4, k5.trans h5⟩

theorem assessAll_onTime (c : Settings) (d : Direction) (currents : List Nat) :
    ∀ v, motorSense v = some d → currents ≠ [] →
      (assessAll c v currents).onTime = min 150 (v.onTime + currents.length) := by
  induction currents with
  | nil => intro v _ h; exact absurd rfl h
  | cons x rest ih =>
    intro v hs _
    have h1 := (assessOnce_fields c v x d hs).1
    change (assessAll c (assessOnce c v x) rest).onTime = _
    by_cases hr : rest = []
    · subst hr; exact h1
    · rw [ih _ ((assessOnce_sense c v x).trans hs) hr, h1, List.length_cons]
      omega

/-- The readings of a list are those of its head and of its tail a millisecond later. -/
theorem reads_cons {P : Nat → Nat → Prop} (x : Nat) (rest : List Nat) :
    (∃ i y, (x :: rest)[i]? = some y ∧ P i y) ↔ P 0 x ∨ ∃ i y, rest[i]? = some y ∧ P (i + 1) y := by
  constructor
  · rintro ⟨i, y, h, hp⟩
    cases i with
    | zero => cases h; exact Or.inl hp
    | succ i => exact Or.inr ⟨i, y, h, hp⟩
  · rintro (hp | ⟨i, y, h, hp⟩)
    · exact ⟨0, x, rfl, hp⟩
    · exact ⟨i + 1, y, h, hp⟩

/-- R39: a short is found exactly when it stood or a reading of the first 50 ms is above the threshold. -/
theorem assessAll_shorted (c : Settings) (d : Direction) (currents : List Nat) :
    ∀ v, motorSense v = some d →
      ((assessAll c v currents).shorted = true ↔ v.shorted = true ∨ ReadsShort c v currents) := by
  induction currents with
  | nil =>
    intro v _
    refine ⟨Or.inl, ?_⟩
    rintro (h | ⟨i, x, h, _⟩)
    · exact h
    · simp at h
  | cons x rest ih =>
    intro v hs
    obtain ⟨h1, -, h3, -⟩ := assessOnce_fields c v x d hs
    change (assessAll c (assessOnce c v x) rest).shorted = true ↔ _
    rw [ih _ ((assessOnce_sense c v x).trans hs), h3]
    unfold ReadsShort
    rw [reads_cons (P := fun i y => v.onTime + i < 50 ∧ c.shortThreshold < y), h1]
    have shift : (∃ i y, rest[i]? = some y ∧ min 150 (v.onTime + 1) + i < 50 ∧ c.shortThreshold < y) ↔
        ∃ i y, rest[i]? = some y ∧ v.onTime + (i + 1) < 50 ∧ c.shortThreshold < y :=
      exists_congr fun i => exists_congr fun y => and_congr_right fun _ => and_congr_left fun _ => by omega
    rw [shift]
    simp [or_assoc]

/-- R39: no current has been found exactly when none was found and no reading of the first 100 ms is at the threshold. -/
theorem assessAll_low (c : Settings) (d : Direction) (currents : List Nat) :
    ∀ v, motorSense v = some d →
      ((assessAll c v currents).low = true ↔ v.low = true ∧ ¬ReadsCurrent c v currents) := by
  induction currents with
  | nil =>
    intro v _
    refine ⟨fun h => ⟨h, ?_⟩, fun h => h.1⟩
    rintro ⟨i, x, h, _⟩
    simp at h
  | cons x rest ih =>
    intro v hs
    obtain ⟨h1, h2, -, -⟩ := assessOnce_fields c v x d hs
    change (assessAll c (assessOnce c v x) rest).low = true ↔ _
    rw [ih _ ((assessOnce_sense c v x).trans hs), h2]
    unfold ReadsCurrent
    rw [reads_cons (P := fun i y => v.onTime + i < 100 ∧ c.openThreshold ≤ y), h1]
    have shift : (∃ i y, rest[i]? = some y ∧ min 150 (v.onTime + 1) + i < 100 ∧ c.openThreshold ≤ y) ↔
        ∃ i y, rest[i]? = some y ∧ v.onTime + (i + 1) < 100 ∧ c.openThreshold ≤ y :=
      exists_congr fun i => exists_congr fun y => and_congr_right fun _ => and_congr_left fun _ => by omega
    rw [shift, not_or, Bool.and_eq_true, Bool.or_eq_true, decide_eq_true_iff, decide_eq_true_iff, and_assoc]
    refine and_congr_right fun _ => and_congr_left fun _ => ?_
    omega

/-- R41: readings all above the threshold count on; the run is never longer than before them and they. -/
theorem assessAll_jamRun_le (c : Settings) (d : Direction) (currents : List Nat) :
    ∀ v, motorSense v = some d → (assessAll c v currents).jamRun ≤ v.jamRun + currents.length := by
  induction currents with
  | nil => intro v _; exact Nat.le_refl _
  | cons x rest ih =>
    intro v hs
    have h4 := (assessOnce_fields c v x d hs).2.2.2
    have := ih _ ((assessOnce_sense c v x).trans hs)
    change (assessAll c (assessOnce c v x) rest).jamRun ≤ _
    rw [List.length_cons]
    split at h4 <;> omega

theorem assessAll_jamRun (c : Settings) (currents : List Nat) :
    ∀ v, motorSense v = some .forward → (∀ x ∈ currents, c.jamThreshold < x) → currents ≠ [] →
      (assessAll c v currents).jamRun = min 150 (v.jamRun + currents.length) := by
  induction currents with
  | nil => intro v _ _ h; exact absurd rfl h
  | cons x rest ih =>
    intro v hs hx _
    have h4 := (assessOnce_fields c v x .forward hs).2.2.2
    rw [if_pos ⟨rfl, hx x List.mem_cons_self⟩] at h4
    change (assessAll c (assessOnce c v x) rest).jamRun = _
    by_cases hr : rest = []
    · subst hr; exact h4
    · rw [ih _ ((assessOnce_sense c v x).trans hs) (fun y hy => hx y (List.mem_cons_of_mem _ hy)) hr, h4, List.length_cons]
      omega

/-! ### Assessments of the station -/

theorem readCurrent_keeps (s : Station) (x : Nat) :
    (s.readCurrent x).cfg = s.cfg ∧ (s.readCurrent x).line.state = s.line.state := by
  obtain ⟨-, h1, -, -, -, -, -, -, -, -, -, h2, -⟩ := advance_keeps 1 { s with vend := s.vend.map (Vend.read x) }
  exact ⟨h1, h2⟩

theorem readCurrent_vend (s : Station) (x : Nat) (h : s.line.state ≠ .halted) :
    (s.readCurrent x).vend = s.vend.map fun v => assessOnce s.cfg v x := by
  unfold Station.readCurrent
  rw [advance_vend]
  · exact Option.map_map ..
  · exact h

theorem readAll_vend (currents : List Nat) :
    ∀ s : Station, s.line.state ≠ .halted →
      (currents.foldl Station.readCurrent s).vend = s.vend.map fun v => assessAll s.cfg v currents := by
  induction currents with
  | nil => intro s _; cases h : s.vend <;> simp [assessAll, h]
  | cons x rest ih =>
    intro s h
    obtain ⟨hc, hl⟩ := readCurrent_keeps s x
    rw [List.foldl_cons, ih _ (hl ▸ h), readCurrent_vend s x h, hc, Option.map_map]
    rfl

/-- With the motor off no assessment is made (R34). -/
theorem assess_off (s : Station) (currents : List Nat) (h : s.motorOn = false) : s.assess currents = s := by
  unfold Station.assess
  rw [h]
  rfl

/-- The vend after assessments of the station. -/
theorem assess_vend (s : Station) (currents : List Nat) (hm : s.motorOn = true) (hl : s.line.state ≠ .halted) :
    (s.assess currents).vend = s.vend.map fun v => assessAll s.cfg v currents := by
  unfold Station.assess
  rw [if_pos hm]
  exact readAll_vend currents s hl

/-! ### Bits (R169) -/

/-- The data bits of a byte spell it. -/
theorem byteOfBits_byteBits : ∀ b : Byte, byteOfBits (byteBits b) = b := by decide +kernel

/-- Bytes sent are read back. -/
theorem readBytes_bytesBits (bytes : List Byte) : readBytes (bytesBits bytes) = some bytes := by
  induction bytes with
  | nil => rfl
  | cons b rest ih =>
    have h : byteOfBits (byteBits b) = b := byteOfBits_byteBits b
    have hb : bytesBits (b :: rest) = byteBits b ++ (true :: bytesBits rest) := by
      unfold bytesBits
      rw [List.flatMap_cons, List.append_assoc]
      rfl
    rw [hb]
    unfold byteBits at h ⊢
    simp only [List.range, List.range.loop, List.map, List.cons_append, List.nil_append] at h ⊢
    rw [readBytes, if_pos rfl, ih, h]
    rfl

end Sys2Proof.Laws
end

