-- ==== Sys2Proof/Tests/Slice0.lean ====
section
/-! SUPPORT. Tests: the operand ranges, a few of the spec's worked figures, one step each of some commands, and for every
statement with hypotheses a state and operands that meet them, clause by clause (`test_meets_…`). -/

namespace Sys2Proof.Tests

open Sys2Proof Sys2Proof.Machine

set_option Elab.async false

/-! ### A small station -/

/-- Station A of two, PAYMENT, with cooling. -/
def settings : Settings :=
  { blankSettings with
    address := 1, role := .payment, stationCount := 2, coolingFitted := true, bankBudget := 1000, base := ⟨40, 0⟩,
    allowance := ⟨200, 1⟩, vendMotor := ⟨60, 0⟩, inrush := ⟨150, 1⟩, run := ⟨150, 0⟩, heater := ⟨200, 0⟩, guarantee := true,
    extraTurns := 1, openThreshold := 100, jamThreshold := 500, shortThreshold := 1500, creditLimit := 100, inactivitySec := 60, coinTypes := [⟨1, 1⟩, ⟨5, 2⟩, ⟨20, 0⟩],
    cooling := { blankSettings.cooling with
      setpoint := 30, differential := 20, condenserLimit := 550, holdLimit := 80, holdDelayMin := 30, inrushSec := 2,
      intervalHours := 8, doorLimit := 10, heaterMethod := true, terminationTemp := 70, maxDefrostMin := 30,
      table := [⟨100, 600⟩, ⟨500, 100⟩, ⟨900, -300⟩] } }

/-- Position 10, in service. -/
def goods : Spiral := { Spiral.blank with fitted := true, price := 20, capacity := 10, stock := .known 5 }

def tubeOnes : Tube := { Tube.blank with fitted := true, denomination := 1, lowMark := 4, fullMark := 60, estimate := 9 }
def tubeFives : Tube := { Tube.blank with fitted := true, denomination := 5, lowMark := 4, fullMark := 60, estimate := 3 }

/-- The station in ACTIVE, the door closed. -/
def shop : Station :=
  { Station.reset with
    start := .none, built := true, cfg := settings, spirals := goods :: List.replicate 59 Spiral.blank,
    coin := { CoinUnit.blank with tubes := [tubeOnes, tubeFives, Tube.blank, Tube.blank, Tube.blank] },
    cooling := { Cooling.blank with compressor := .rest }, line := { Line.blank with state := .active } }

/-- The same at a vend-only station. -/
def panelOnly : Station := { shop with cfg := { settings with role := .vendOnly } }

/-- The door open. -/
def openShop : Station := { shop with faults := { FaultUnit.blank with doorOpen := true } }

def halted : Station := { Station.reset with start := .none, line := Line.halted false }

/-- ISOLATED by an address clash. -/
def clashed : Station := { shop with line := { Line.blank with state := .isolated .clash, clashLatched := true } }

/-- OFFLINE after a warm restart's invalid image, with credit kept and the door closed. -/
def offlineCredit : Station :=
  { shop with configInvalid := true, line := Line.blank, txn := { Txn.blank with state := .credit, credit := 23 } }

/-- A peer at address 2 with letter 1. -/
def peer : Peer := { Peer.fresh 2 with declared := true, letter := some 1, accepting := true, lineState := some 2 }

def withPeer : Station := { shop with peers := [peer] }

/-- An entry of peer 2 under tag 3. -/
def entry (state : EntryState) : Entry := ⟨some (.peer 2), some 3, 10, 20, state, false, 0, 1⟩

def queued (state : EntryState) : Station := { shop with queue := [entry state] }

/-- A vend in a phase. -/
def vend (phase : VendPhase) : Vend := { Vend.fresh (entry .vending) with phase := phase }

def vending (v : Vend) : Station :=
  { shop with queue := [v.entry], vend := some v, power := { Power.blank with vendMotor := some ⟨60, 0⟩ } }

/-- The same with a beam that has been clear for 10 ms. -/
def clearBeam (v : Vend) : Station := { vending v with chute := { Chute.blank with beamTime := 10 } }

/-- A sale with peer 2 under tag 5. -/
def selling (state : TxnState) (credit escrow : Nat) : Station :=
  { withPeer with txn :=
    { Txn.blank with state := state, credit := credit, escrow := escrow, offer := some ⟨.peer 2, 5, 10, if state = .committed then some escrow else none⟩ } }

/-- A payout of 6 with a coin in progress. -/
def paying (phase : CoinPhase) : Station :=
  { shop with
    txn := { Txn.blank with state := .paying }
    payout := { Payout.blank with
      state := .running, amount := 6, plan := [⟨5, 1, [(2, 1)]⟩, ⟨1, 1, [(1, 1)]⟩], currentTube := some 2, phase := phase } }

/-- A payout of 6 held while the door is open, a change of its record, and the tubes. -/
def stoppedPayout (f : Payout → Payout) (tubes : List Tube) : Station :=
  { openShop with
    txn := { Txn.blank with state := .paying }
    coin := { CoinUnit.blank with tubes := tubes }
    payout := f { (paying .none).payout with state := .stopped, stop := .door } }

/-- A test entry, a committed entry of the own customer under tag 12, and one of peer 5 that awaits its COMMIT. -/
def testEntry : Entry := ⟨none, none, 10, 0, .committed, true, 0, 0⟩
def ownEntry : Entry := ⟨some .loc, some 12, 10, 20, .committed, false, 0, 1⟩
def askedEntry : Entry := ⟨some (.peer 5), some 2, 10, 20, .awaitCommit, false, 0, 1⟩

/-- 02's full queue: a vend for an entry, behind it those three, with the own customer's 20 in escrow. -/
def fullQueue (e : Entry) : Station :=
  { vending { Vend.fresh e with phase := .turning } with
    queue := [e, testEntry, ownEntry, askedEntry]
    txn := { Txn.blank with state := .committed, credit := 3, escrow := 20, offer := some ⟨.loc, 12, 10, some 20⟩ } }

/-- Its first entry there, of peer 3, and a test vend in that place. -/
def firstEntry : Entry := ⟨some (.peer 3), some 9, 10, 20, .vending, false, 0, 1⟩
def testVend : Entry := { testEntry with state := .vending }

/-- The cooling controller with a change. -/
def chilling (f : Cooling → Cooling) : Station := { shop with cooling := f shop.cooling }

/-- A request of a class in a phase. -/
def asks (cls : LoadClass) (phase : RequestPhase) : Request := { Request.fresh cls ⟨60, 0⟩ with phase := phase, checked := true }

def asking (r : Request) : Station := { shop with power := { Power.blank with requests := [r] } }

def sending (f : Frame) : Station := { shop with line := { shop.line with queue := [f], sending := true } }

/-- The station in ISOLATED by SILENCE. -/
def alone (s : Station) : Station := { s with line := { s.line with state := .isolated .silence } }

def mach (t : Station) : State := { State.reset with station := t }

/-! ### Operand ranges: an ill-formed command for each check -/

def loadNothing : LoadInputs := ⟨true, true, [], false, false, List.replicate 5 false, List.replicate 5 false⟩

theorem test_ill_formed_loads :
    Instr.wellFormed (.loadEvent { loadNothing with tubeLow := [] }) = false ∧
      Instr.wellFormed (.loadEvent { loadNothing with tubeFull := [true] }) = false ∧
      Instr.wellFormed (.loadEvent { loadNothing with programmed := [(380, 1)] }) = false ∧
      Instr.wellFormed (.loadEvent { loadNothing with programmed := [(1230, 1)] }) = false ∧
      Instr.wellFormed (.loadEvent { loadNothing with programmed := [(379, 1), (512, 1), (1229, 1)] }) = true := by decide

theorem test_ill_formed_frames :
    Instr.wellFormed (.offer 0 1 0 1 0) = false ∧ Instr.wellFormed (.offer 9 1 0 1 0) = false ∧
      Instr.wellFormed (.offer 2 16 0 1 0) = false ∧ Instr.wellFormed (.offer 2 1 16 1 0) = false ∧
      Instr.wellFormed (.offer 2 1 0 256 0) = false ∧ Instr.wellFormed (.offer 2 1 0 1 256) = false ∧
      Instr.wellFormed (.commit 2 1 0 0) = false ∧ Instr.wellFormed (.commit 2 1 0 2001) = false ∧
      Instr.wellFormed (.withdraw 2 1 16) = false ∧
      Instr.wellFormed (.accept 2 1 0 20 0) = false ∧ Instr.wellFormed (.accept 2 1 0 20 5) = false ∧
      Instr.wellFormed (.refuse 2 1 0 0) = false ∧ Instr.wellFormed (.refuse 2 1 0 12) = false ∧
      Instr.wellFormed (.result 2 1 0 10 0) = false ∧ Instr.wellFormed (.result 2 1 0 0 4) = false ∧
      Instr.wellFormed (.claim 2 0 3 0 1 0) = false ∧ Instr.wellFormed (.claim 2 0 0 4 1 0) = false ∧
      Instr.wellFormed (.claim 2 0 0 0 256 0) = false ∧ Instr.wellFormed (.claim 2 0 0 0 1 4) = false ∧
      Instr.wellFormed (.release 2 0 3) = false ∧
      Instr.wellFormed (.audit 2 1 64 []) = false ∧ Instr.wellFormed (.audit 2 1 0 (List.replicate 11 0)) = false ∧
      Instr.wellFormed (.auditQuery 9 1 0) = false ∧ Instr.wellFormed (.auditQuery 2 1 32) = false ∧
      Instr.wellFormed (.auditQueryJournal 2 1 31) = false ∧ Instr.wellFormed (.auditQueryJournal 2 1 64) = false := by
  decide

def declared : DeclareFields := ⟨1, 7, ⟨255, 3⟩, ⟨255, 3⟩, ⟨255, 3⟩, 63⟩
def beat : HeartbeatFields := ⟨3, 3, 31, 4, ⟨255, 3⟩, ⟨255, 3⟩, ⟨255, 3⟩, ⟨255, 3⟩, 13⟩

theorem test_ill_formed_declares_and_heartbeats :
    Instr.wellFormed (.declare 8 0 declared) = true ∧
      Instr.wellFormed (.declare 8 0 { declared with role := 2 }) = false ∧
      Instr.wellFormed (.declare 8 0 { declared with letter := 8 }) = false ∧
      Instr.wellFormed (.declare 8 0 { declared with declaredMax := ⟨256, 0⟩ }) = false ∧
      Instr.wellFormed (.declare 8 0 { declared with allowance := ⟨0, 4⟩ }) = false ∧
      Instr.wellFormed (.declare 8 0 { declared with base := ⟨256, 0⟩ }) = false ∧
      Instr.wellFormed (.declare 8 0 { declared with trayMap := 64 }) = false ∧
      Instr.wellFormed (.heartbeat 8 0 beat) = true ∧
      Instr.wellFormed (.heartbeat 8 0 { beat with lineState := 0 }) = false ∧
      Instr.wellFormed (.heartbeat 8 0 { beat with lineState := 4 }) = false ∧
      Instr.wellFormed (.heartbeat 8 0 { beat with faultLevel := 4 }) = false ∧
      Instr.wellFormed (.heartbeat 8 0 { beat with flags := 32 }) = false ∧
      Instr.wellFormed (.heartbeat 8 0 { beat with depth := 5 }) = false ∧
      Instr.wellFormed (.heartbeat 8 0 { beat with base := ⟨256, 0⟩ }) = false ∧
      Instr.wellFormed (.heartbeat 8 0 { beat with vendMotor := ⟨0, 4⟩ }) = false ∧
      Instr.wellFormed (.heartbeat 8 0 { beat with compressor := ⟨256, 0⟩ }) = false ∧
      Instr.wellFormed (.heartbeat 8 0 { beat with heater := ⟨0, 4⟩ }) = false ∧
      Instr.wellFormed (.heartbeat 8 0 { beat with attention := 14 }) = false := by decide

theorem test_ill_formed_inputs :
    Instr.wellFormed (.commitTimerExpiry (.peer 0) 0) = false ∧ Instr.wellFormed (.commitTimerExpiry .loc 16) = false ∧
      Instr.wellFormed (.peerSilent 9) = false ∧ Instr.wellFormed (.peerGone 0) = false ∧
      Instr.wellFormed (.coin 16 .tube) = false ∧ Instr.wellFormed (.fault 0) = false ∧
      Instr.wellFormed (.fault 256) = false ∧ Instr.wellFormed (.status 256) = false ∧
      Instr.wellFormed (.tubeSensorChange 6 .low true) = false ∧ Instr.wellFormed (.keyDigit 10) = false ∧
      Instr.wellFormed (.sensorSample .air 1024) = false ∧ Instr.wellFormed (.fillTube 10 1) = false ∧
      Instr.wellFormed (.fillTube 1 1000) = false ∧ Instr.wellFormed (.emptyTube 10) = false ∧
      Instr.wellFormed (.clearTube 10) = false ∧ Instr.wellFormed (.clearSpiral 100) = false ∧
      Instr.wellFormed (.testVend 100) = false ∧ Instr.wellFormed (.showAudit 1000) = false := by decide

/-! ### Figures -/

/-- No row of the table gives bits. -/
theorem test_no_word_spells_a_command : decodeTableWord 8 0 = none ∧ decodeTableWord 32 4294967295 = none := by decide

/-- R81 to R88: 9 ones and 3 fives pay 23 exactly, and 25 as 24. -/
theorem test_payout_plans :
    payoutPlan shop.coin.tubes 23 = [⟨5, 3, [(2, 3)]⟩, ⟨1, 8, [(1, 8)]⟩] ∧ payableExactly shop.coin.tubes 23 = true ∧
      planTotal (payoutPlan shop.coin.tubes 25) = 24 ∧ payableExactly shop.coin.tubes 25 = false := by decide +kernel

/-- R130: points, a halfway quotient, and codes outside the table. -/
theorem test_conversion :
    convert settings.cooling.table 100 = 600 ∧ convert settings.cooling.table 16 = 600 ∧
      convert settings.cooling.table 300 = 350 ∧ convert settings.cooling.table 1007 = -300 ∧
      roundQuotient 5 2 = 3 ∧ roundQuotient (-5) 2 = -3 := by decide +kernel

/-- 07: an amount right-aligned over eight characters. -/
theorem test_amount_text : amountText { settings with baseUnitCode := 2, decimals := 2 } 7 = "    0.35" := by decide +kernel

/-- R169 to R171: a WITHDRAW of station 1 to station 2 under tag 3: its bytes, and the bits of its start and its head byte
0x71. A dominant stop bit is a framing error. -/
theorem test_frame_bytes :
    readFrame (frameBytes 1 ⟨2, .withdraw 3, false⟩) = some (.withdraw 1 2 3) ∧
      readFrame ((frameBytes 1 ⟨2, .withdraw 3, false⟩).map fun b => b ^^^ 1) = none ∧
      (frameBits 1 ⟨2, .withdraw 3, false⟩).take 10 =
        [false, false, true, true, true, false, false, false, true, true] ∧
      readBits (frameBits 1 ⟨2, .withdraw 3, false⟩) = some (.withdraw 1 2 3) ∧
      readBits ((frameBits 1 ⟨2, .withdraw 3, false⟩).set 9 false) = none := by decide +kernel

/-- R174: the lower kind takes the line, then the lower address; equal heads go on. -/
theorem test_contention :
    losesTo (byteBits 0x71) (byteBits 0x31) = true ∧ losesTo (byteBits 0x31) (byteBits 0x71) = false ∧
      losesTo (byteBits 0x72) (byteBits 0x71) = true ∧ losesTo (byteBits 0x71) (byteBits 0x71) = false := by decide +kernel

/-! ### One step -/

/-- The station that a command leaves. -/
def after (c : Instr) (s : Station) : Option Station :=
  match exec c (mach s) with
  | .next t => some t.station
  | _ => none

theorem test_coin : (after (.coin 2 .cashbox) shop).map (fun t => (t.txn.credit, t.txn.state, t.coin.journal.length)) =
    some (20, .credit, 1) := by decide +kernel

theorem test_offer_is_answered :
    (after (.offer 2 1 3 1 0) shop).map (fun t => (t.queue, t.line.queue)) =
      some ([entry .awaitCommit], [⟨2, .accept 3 20 1, false⟩]) := by decide +kernel

theorem test_commit_begins_a_claim :
    (after (.commit 2 1 3 20) (queued .awaitCommit)).map
        (fun t => (t.vendIn .claiming, t.power.requests.map fun r => (r.cls, r.phase), t.line.queue)) =
      some (true, [(.vendMotor, .sending)], [⟨0, .claim .vendMotor 1 ⟨60, 0⟩, true⟩]) := by decide +kernel

theorem test_drop_delivers :
    (after .dropEdge (clearBeam { vend .settling with turnsUsed := 1 })).map
        (fun t => (t.vend, (t.spiral 10).stock, t.power.vendMotor, t.line.queue)) =
      some (none, .known 4, none, [⟨2, .result 3 .delivered 1, false⟩, ⟨0, .release .vendMotor, false⟩]) := by
  decide +kernel

/-- R114, R172: an ACCEPT heard in ISOLATED by SILENCE is taken in LISTEN: NOT AVAIL, and a WITHDRAW behind the DECLARE. -/
theorem test_accept_in_listen :
    (after (.accept 2 1 5 20 1) (alone (selling .asking 23 0))).map
        (fun t => (t.line.state, t.txn.state, t.txn.credit, t.panel.message, t.line.queue.tail)) =
      some (.listen, .credit, 23, some .notAvail, [⟨2, .withdraw 5, false⟩]) := by decide +kernel

/-- 02's worked sequence 'the door opens with the queue full': the RESULT of the sale in flight, then the REFUSE, the own
customer's escrow back in credit, and the test entry picked. -/
theorem test_door_opens_on_a_full_queue :
    (after (.doorOpens 100) (fullQueue firstEntry)).map (fun t => (t.queue, t.line.queue, t.txn.credit, t.txn.state)) =
      some ([testVend], [⟨3, .result 9 .interrupted 0, false⟩, ⟨5, .refuse 2 .service, false⟩], 23, .credit) := by
  decide +kernel

/-- R27: a test vend in flight goes on, and the test entry behind it waits. -/
theorem test_door_opens_on_a_test_vend :
    (after (.doorOpens 100) (fullQueue testVend)).map (fun t => (t.queue, t.vendIn .turning, t.line.queue)) =
      some ([testVend, testEntry], true, [⟨5, .refuse 2 .service, false⟩]) := by decide +kernel

/-- R28: of two chilled entries and the VENDING one, chilled as well, cold-hold removes the two; the ambient spiral's stays. -/
theorem test_cold_hold_removes :
    (after .coldHold { fullQueue firstEntry with
      cooling := { shop.cooling with air := { Sensor.blank with reading := some 81 } }
      spirals := { goods with zone := .chilled } :: goods :: List.replicate 58 Spiral.blank
      queue := [firstEntry, ownEntry, { entry .committed with position := 11 }, askedEntry] }).map
        (fun t => (t.queue, t.line.queue, t.txn.credit, t.panel.message)) =
      some ([firstEntry, { entry .committed with position := 11 }], [⟨5, .refuse 2 .tempHold, false⟩], 23, some .hold) := by
  decide +kernel

/-- R29: a chute fault removes all but the VENDING entry, the test entry without a frame. -/
theorem test_chute_fault_removes :
    (after .chuteFault { fullQueue firstEntry with
      chute := { Chute.blank with blocked := true }, queue := [firstEntry, testEntry, entry .committed, askedEntry] }).map
        (fun t => (t.queue, t.vendIn .turning, t.line.queue)) =
      some ([firstEntry], true, [⟨2, .result 3 .chute 0, false⟩, ⟨5, .refuse 2 .chute, false⟩]) := by decide +kernel

/-- R24: with no vend in flight a COMMIT lets the oldest COMMITTED entry be picked that cold-hold does not withhold: here the
second, the first being for a chilled spiral and the third the one just bound. -/
theorem test_pick_order :
    (after (.commit 2 1 3 20) { shop with
      cooling := { shop.cooling with coldHold := true }
      spirals := goods :: { goods with zone := .chilled } :: List.replicate 58 Spiral.blank
      queue := [{ ownEntry with position := 11 }, { ownEntry with tag := some 13 }, entry .awaitCommit] }).map
        (fun t => (t.queue.map fun e => (e.tag, e.state), t.vend.map fun v => v.entry.tag)) =
      some ([(some 12, .committed), (some 13, .vending), (some 3, .committed)], some (some 13)) := by decide +kernel

/-- R165, R178: a station configured alone counts a peer that it hears in none of its sums, one of a larger bank does. -/
theorem test_station_alone_counts_itself :
    [1, 2].map (fun count =>
      let s := { withPeer with cfg := { settings with stationCount := count }, peers := [{ peer with vendMotor := 900 }] }
      (s.admissionSum ⟨60, 0⟩, s.windowSum (asks .vendMotor .window))) = [(100, 100), (1000, 1000)] := by decide +kernel

/-- R63, R64, R71, R110: a coin of 5 into a tube at 250, with credit 65533 and a full journal. -/
theorem test_coin_at_the_limits :
    (after (.coin 1 .tube) { shop with
      coin := { shop.coin with
        tubes := [tubeOnes, { tubeFives with fullMark := 250, estimate := 250 }]
        journal := List.replicate 32 ⟨.reject, none, 0, 0⟩ }
      txn := { Txn.blank with state := .credit, credit := 65533 } }).map
        (fun t => (t.txn.credit, t.audit.forfeitedValue, (t.tube 2).estimate, t.audit.tubeOvercount, t.coin.overrun)) =
      some (65535, 3, 250, 1, 1) := by decide +kernel

/-- R67, R98, R190: levels held for a millisecond less than their times, and for their times. -/
theorem test_held_levels :
    ((after (.coutEdge 1) (paying .pulse)).map fun t => t.payout.paid) = some 0 ∧
      ((after (.coutEdge 2) (paying .pulse)).map fun t => t.payout.paid) = some 5 ∧
      ((after (.doorOpens 99) shop).map fun t => t.faults.doorOpen) = some false ∧
      ((after (.doorOpens 100) shop).map fun t => t.faults.doorOpen) = some true ∧
      ((after (.tubeSensorChange 1 .low true 49) shop).map fun t => (t.tube 1).estimate) = some 9 ∧
      ((after (.tubeSensorChange 1 .low true 50) shop).map fun t => (t.tube 1).estimate) = some 4 ∧
      ((after (.brxDominant 9) shop).map fun t => t.line.state) = some .active ∧
      ((after (.brxDominant 10) shop).map fun t => t.line.state) = some (.isolated .lineFault) := by decide +kernel

/-- R59, R79, R56: the warning's INHIBIT before a cold start's load event, after an invalid image, and at a VEND-ONLY
station. -/
theorem test_warning_inhibits :
    [Station.reset, { Station.reset with start := .none, configInvalid := true }, panelOnly,
      { panelOnly with start := .readingWarm, line := Line.blank }].map
      (fun s => (after .powerFailWarning { s with coin := { s.coin with onTransmitter := none } }).map fun t =>
        t.coin.onTransmitter) =
      [some (some (.inhibit (List.range 16))), some (some (.inhibit (List.range 16))), some none,
       some (some (.inhibit (List.range 16)))] := by decide +kernel

/-- R186, R179: the warning ends ISOLATED, and with it the condition. -/
theorem test_warning_ends_isolated :
    (after .powerFailWarning { alone shop with faults := { FaultUnit.blank with standing := [.isolated] } }).map
      (fun t => t.faults.standing) = some [] := by decide +kernel

/-- R174, R179: a CLAIM that is being sent is cut off at entry to ISOLATED by SILENCE, a WITHDRAW is sent on. -/
theorem test_isolation_cuts :
    [(⟨0, .claim .vendMotor 1 ⟨60, 0⟩, true⟩ : Frame), ⟨2, .withdraw 0, false⟩].map
      (fun f => (after .silenceTimerExpiry (sending f)).map fun t => (t.line.state.isIsolated, t.line.sending, t.pins.btx.isEmpty)) =
      [some (true, false, true), some (true, true, false)] := by decide +kernel

/-- R157: the better rank is given the window; one that does not fit is HELD and the next is given it. -/
theorem test_window_is_given :
    ((after (.release 2 0 0) { withPeer with
        peers := [{ peer with vendMotor := 10 }],
        power := { Power.blank with requests := [asks .compressor .held, { asks .vendMotor .held with power := ⟨255, 3⟩ }] } }).map
          fun t => (t.power.requests.map fun r => r.phase, t.line.queue)) =
      some ([.sending, .held], [⟨0, .claim .compressor 2 ⟨60, 0⟩, true⟩]) := by decide +kernel

/-- R138: the fifth invalid sample of the air sensor begins fixed duty. -/
theorem test_air_fault :
    ((after (.sensorSample .air 0) (chilling fun c => { c with air := { c.air with invalidRun := 4 } })).map
      fun t => (t.cooling.air.fault, t.cooling.duty, t.cooling.demand)) = some (true, some .on, true) := by decide +kernel

/-- R35: a clear gap of 9 ms is no edge. -/
theorem test_short_gap_is_no_edge :
    (after .dropEdge { shop with chute := { Chute.blank with beamTime := 9 } }).map
        (fun t => (t.chute.blocked, t.audit.chuteActivity)) = some (true, 0) ∧
      (after .dropEdge { shop with chute := { Chute.blank with beamTime := 10 } }).map
        (fun t => (t.chute.blocked, t.audit.chuteActivity)) = some (true, 1) := by decide +kernel

/-- R34, R39: a reading above the short threshold counts as the 50th of an energising and not as the 51st. -/
theorem test_short_in_time :
    (after (.shortCheck (List.replicate 49 200 ++ [1501])) (vending (vend .starting))).map (fun t => t.vend.isSome) =
        some false ∧
      (after (.shortCheck (List.replicate 50 200 ++ [1501])) (vending (vend .starting))).map (fun t => t.vend.isSome) =
        some true := by decide +kernel

/-- R34, R41: 150 readings above the jam threshold reverse the vend; one that is not begins the run anew. -/
theorem test_jam_run :
    (after (.jam (List.replicate 150 501)) (vending (vend .turning))).map (fun t => t.vend.map fun v => v.phase) =
        some (some (.reversing .firstPause)) ∧
      (after (.jam (List.replicate 149 501 ++ [500])) (vending (vend .turning))).map
        (fun t => t.vend.map fun v => v.phase) = some (some .turning) := by decide +kernel

theorem test_trip : (after (.sensorSample .cond 100) (chilling fun c => { c with compressor := .run })).map
    (fun t => (t.cooling.compressor, t.audit.lockouts, t.pins.cmp)) = some (.lockout, 1, false) := by decide +kernel

theorem test_fill_tube : (after (.fillTube 1 250) openShop).map (fun t => ((t.tube 1).estimate, t.panel.message)) =
    some (250, some .done) := by decide +kernel

theorem test_halt_writes : (after .powerFailWarning (selling .committed 5 20)).map
    (fun t => (t.txn.credit, t.txn.escrow, t.audit.inDoubt, t.seqCount)) = some (25, 0, 1, 1) := by decide +kernel

/-- R176, R177, R186: the clash stands on through the halt, `isolated` does not, and a start has none latched. -/
theorem test_clash_latched_until_start :
    (after .powerFailWarning clashed).map
      (fun t => (t.faults.standing.contains .addressClash, t.faults.standing.contains .isolated)) = some (true, false) ∧
    (after .resetInput clashed).map
      (fun t => (t.line.clashLatched, t.faults.standing.contains .addressClash)) = some (false, false) := by decide +kernel

/-- R121, R203: inactivity forfeits the credit kept in OFFLINE, and not that of a halted station. -/
theorem test_forfeit_in_offline :
    (after .inactivityTimeout offlineCredit).map (fun t => (t.txn.credit, t.audit.forfeitedValue)) = some (0, 23) ∧
    (after .inactivityTimeout { offlineCredit with line := Line.halted false }).map (fun t => t.txn.credit) = some 23 := by
  decide +kernel

/-! ### Statements' hypotheses, each met -/

theorem test_meets_StepRunsTheFrontCommand : (State.reset.withPending [.reject, .powerOn]).pending = .reject :: [.powerOn] := rfl

theorem test_meets_IdleStepLetsTimePass :
    (mach (selling .asking 5 0)).pending = [] ∧ (selling .asking 5 0).running = true ∧
      (selling .asking 5 0).txn.state = .asking ∧ (selling .asking 5 0).txn.peerOwner = true ∧
      halted.line.state = .halted ∧
      (offlineCredit.line.state ≠ .halted ∧ offlineCredit.running = false ∧ offlineCredit.txn.state = .credit ∧
        offlineCredit.faults.doorOpen = false) ∧
      ((vending (vend .claiming)).vend = some (vend .claiming) ∧ (vending (vend .claiming)).line.state ≠ .halted ∧
        (vending (vend .claiming)).loadsSettled = true ∧ (vend .turning).phase ≠ .claiming) := by decide +kernel

theorem test_meets_step_answers (s : State) (h : s.pending = [.transmitterFree]) : ∃ t, step s = .next t := by
  unfold step; rw [h]; exact ⟨_, rfl⟩

theorem test_meets_StepKeepsMemoryCanonical :
    Memory.wf [(0, 1), (379, 255), (512, 7)] = true ∧ Memory.wf [] = true ∧ Memory.wf [(3, 0)] = false ∧
      Memory.wf [(4, 1), (4, 1)] = false := by decide +kernel

theorem test_meets_StepKeepsStationSettled : Settled State.reset.station := by unfold Settled; decide +kernel

/-- A running payment station with the indicator as its tubes have it, and tubes that light it: fives alone. -/
theorem test_meets_Settled_running :
    (let s := finish shop shop
     s.running = true ∧ isPayment s.cfg = true ∧ s.exactLit = indicatorLit s.cfg.coinTypes s.coin.tubes) ∧
    (let s := { shop with coin := { CoinUnit.blank with tubes := [Tube.blank, tubeFives] } }
     indicatorLit s.cfg.coinTypes s.coin.tubes = true) := by decide +kernel

theorem test_meets_StepKeepsBuffersBounded :
    Bounded { shop with
      queue := List.replicate 4 (entry .awaitCommit), txn := { Txn.blank with credit := 65535 },
      coin := { shop.coin with tubes := [{ tubeOnes with lowSensor := true, estimate := 4 },
        { tubeFives with fullMark := 250, estimate := 250 }] } } := by
  unfold Bounded; decide +kernel

theorem test_meets_StepNeverHeatsAndCools :
    HeatOrCool (chilling fun c => { c with compressor := .defrost, phase := .heater }) ∧
      HeatOrCool (chilling fun c => { c with compressor := .run }) := by
  unfold HeatOrCool; decide +kernel

/-- The small station's one known stock is that of position 10. -/
theorem shop_stock {s : Station} (hs : s.spirals = shop.spirals) {position n : Nat}
    (h : (s.spiral position).stock = .known n) : position = 10 ∧ n = 5 := by
  unfold Station.spiral at h
  rw [hs] at h
  split at h
  · rename_i hr
    simp [positionInRange] at hr
    obtain ⟨k, hk⟩ | hk : (∃ k, position - 10 = k + 1) ∨ position - 10 = 0 := by
      cases position - 10 with
      | zero => exact .inr rfl
      | succ k => exact .inl ⟨k, rfl⟩
    · rw [hk] at h
      change (List.getD (goods :: List.replicate 59 Spiral.blank) (k + 1) Spiral.blank).stock = _ at h
      rw [List.getD_cons_succ] at h
      rcases Nat.lt_or_ge k 59 with hlt | hge
      · rw [List.getD_eq_getElem _ _ (by simpa using hlt), List.getElem_replicate] at h; cases h
      · rw [List.getD_eq_default _ _ (by simpa using hge)] at h; cases h
    · rw [hk] at h
      cases h
      exact ⟨by omega, rfl⟩
  · cases h

theorem queueLaw_of {s : Station} (hs : s.spirals = shop.spirals) (hk : (s.queue.filterMap entryKey).Nodup)
    (hv : (s.queue.filter fun e => e.state = .vending) = (s.vend.map fun v => v.entry).toList)
    (hn : s.namingCount 10 ≤ 5) (hr : AtRest s) : QueueLaw s := by
  refine ⟨hk, hv, fun position n h => ?_, hr⟩
  obtain ⟨rfl, rfl⟩ := shop_stock hs h
  exact hn

/-- Two entries of position 10, one of them in TURNING, at a stock of 5. -/
theorem test_meets_QueueLaw :
    QueueLaw { vending (vend .turning) with queue := [entry .vending, { entry .awaitCommit with tag := some 4 }] } :=
  queueLaw_of rfl (by decide) (by decide) (by decide) (by unfold AtRest; decide +kernel)

/-- A vend in TURNING, the heater on and a compressor that asks. -/
theorem test_meets_LoadLaw :
    LoadLaw { vending (vend .turning) with
      cooling := { Cooling.blank with compressor := .defrost, phase := .heater },
      power := ⟨some ⟨60, 0⟩, none, some ⟨200, 0⟩, [asks .compressor .held]⟩ } := by
  refine ⟨⟨fun _ => ⟨_, rfl, by decide⟩, fun _ => rfl⟩, by decide, by decide, by decide, by decide, ?_, ?_⟩
  · intro cls; cases cls <;> decide
  · unfold AtRest; decide +kernel

/-- A clash that has isolated the station, one latched through a halt, and none. -/
theorem test_meets_ClashLaw :
    ClashLaw clashed ∧ ClashLaw { halted with line := Line.halted true } ∧ ClashLaw shop := by unfold ClashLaw; decide +kernel

theorem test_meets_OtherCommandsKeepTheMemory (s : State) :
    Instr.reject ≠ .powerOn ∧ Instr.reject ≠ .resetInput ∧ (∀ inp, Instr.reject ≠ .loadEvent inp) ∧
      (∀ b, Instr.reject ≠ .savedBlockWritten b) ∧ ∃ t, exec .reject s = .next t :=
  ⟨nofun, nofun, nofun, nofun, ⟨_, rfl⟩⟩

theorem test_meets_HaltedTakesOnlyReset :
    AtHalt halted ∧ (Instr.keyEnt ≠ .powerOn ∧ Instr.keyEnt ≠ .resetInput ∧ Instr.keyEnt ≠ .transmitterFree) := by
  unfold AtHalt; decide +kernel

theorem test_meets_ColdStartResets :
    halted.line.state = .halted ∧ Station.reset.start = .readingCold := by decide

theorem test_meets_WarmRestartClearsTheStation :
    (shop.line.state ≠ .halted ∧ shop.start ≠ .readingCold) ∧ openShop.serviceMode = true ∧
      (let s := { openShop with configInvalid := true, line := Line.blank }
       s.configInvalid = true ∧ s.line.state = .offline ∧ s.faults.doorOpen = true) ∧
      (selling .committed 5 20).txn.state = .committed ∧
      ((selling .asking 5 0).txn.state ≠ .committed ∧ (selling .asking 5 0).txn.escrow = 0) ∧
      25 = (selling .committed 5 20).txn.credit + (selling .committed 5 20).txn.escrow +
        ((selling .committed 5 20).payout.amount - (selling .committed 5 20).payout.paid) ∧
      shop.coin.onTransmitter ≠ none := by decide +kernel

/-- R125, R202: a RESTART in service mode gives the escrow back, in doubt. -/
theorem test_restart :
    (after .restart { selling .committed 5 20 with faults := { FaultUnit.blank with doorOpen := true } }).map
      (fun t => (t.start, t.line.state, t.txn.credit, t.txn.escrow, t.audit.inDoubt)) =
      some (.readingWarm, .offline, 25, 0, 1) := by decide +kernel

set_option maxRecDepth 100000 in
theorem test_meets_InvalidImageLeavesTheStationOffline :
    shop.start = .none ∧ Station.reset.start ≠ .none ∧ ({ loadNothing with imageAck := false }).imageAck = false ∧
      imageValid (Memory.readFrom [] 0 380) = false := by decide +kernel

/-- An image of a VEND-ONLY station 1 alone, without cooling, one spiral at position 10 priced 20. -/
def imageBytes : List Byte :=
  [1, 0, 0, 1, 0, 0, 0, 2, 0x03, 0xE8, 40, 0, 255, 1, 100, 1, 60, 0, 0, 0, 0, 0, 0, 0, 0, 0, 1, 1] ++
    [0, 100, 1, 0, 2, 0, 0, 100, 0, 60] ++ [1, 10, 0, 20] ++ List.replicate 336 0

def image : Memory := Memory.writeFrom [] 0 (withCheck imageBytes)

/-- An image of a PAYMENT station 1 alone with cooling, one coin type of value 1 in tube 1, and the cause RUN-TIME. -/
def coolImageBytes : List Byte :=
  [1, 0, 1, 1, 1, 1, 0, 2, 0x03, 0xE8, 40, 0, 255, 1, 100, 1, 60, 0, 150, 1, 150, 0, 200, 0, 0, 0, 1, 1] ++
    [0, 100, 1, 0, 2, 0, 0, 100, 0, 60] ++ [1, 10, 0, 20] ++ List.replicate 236 0 ++ [1, 1] ++ List.replicate 30 0 ++
    [1, 4, 60] ++ List.replicate 12 0 ++
    [0, 30, 20, 2, 38, 0, 80, 30, 2, 1, 8, 10, 1, 0, 70, 30] ++
    ((List.range 9).flatMap fun i => [0, byteOf (i + 1), 0, 0]) ++ [0]

def coolImage : Memory := Memory.writeFrom [] 0 (withCheck coolImageBytes)

def readingWarm : Station := { shop with start := .readingWarm, line := Line.blank }

set_option maxRecDepth 100000 in
theorem test_meets_ValidImageIsTakenAndLineListens :
    (withCheck imageBytes).length = 380 ∧ imageValid (Memory.readFrom image 0 380) = true ∧
      Memory.writeCells image loadNothing.programmed = image ∧ loadNothing.imageAck = true ∧
      isPayment (settingsOf (Memory.readFrom image 0 380)) = false ∧
      (settingsOf (Memory.readFrom image 0 380)).coolingFitted = false ∧
      Station.reset.start ≠ .none ∧ Station.reset.readsBlock = true ∧ readBlock image true = none ∧
      readingWarm.start ≠ .none ∧ readingWarm.readsBlock = false := by decide +kernel

set_option maxRecDepth 100000 in
/-- The same with a PAYMENT image with cooling, at a warm start whose run accumulator stands below the interval, at it, and
has been taken. -/
theorem test_meets_ValidImage_payment_and_cooling :
    imageValid (Memory.readFrom coolImage 0 380) = true ∧
      isPayment (settingsOf (Memory.readFrom coolImage 0 380)) = true ∧
      (settingsOf (Memory.readFrom coolImage 0 380)).coolingFitted = true ∧
      (settingsOf (Memory.readFrom coolImage 0 380)).cooling.causeRunTime = true ∧
      readingWarm.cooling.runTimeTaken = false ∧
      readingWarm.cooling.runAccumulator <
        3600000 * (settingsOf (Memory.readFrom coolImage 0 380)).cooling.intervalHours ∧
      readingWarm.cooling.doorCounter < (settingsOf (Memory.readFrom coolImage 0 380)).cooling.doorLimit ∧
      3600000 * (settingsOf (Memory.readFrom coolImage 0 380)).cooling.intervalHours ≤ 28800000 := by decide +kernel

/-- A LOCAL sale of 20 under tag 5 whose vend has seen its drop. -/
def sellingLocal (drops : Nat) : Station :=
  let e : Entry := ⟨some .loc, some 5, 10, 20, .vending, false, 0, 1⟩
  { vending { Vend.fresh e with phase := .turning, drops := drops } with
    txn := { Txn.blank with state := .committed, credit := 3, escrow := 20, offer := some ⟨.loc, 5, 10, some 20⟩ } }

theorem test_meets_PowerFailWarningHalts :
    halted.line.state = .halted ∧ shop.line.state ≠ .halted ∧ shop.built = true ∧ Station.reset.line.state ≠ .halted ∧
      Station.reset.built = false ∧
      ((sellingLocal 1).vend.map fun v => (v.entry.payer, v.entry.tag, v.drops)) = some (some .loc, some 5, 1) ∧
      (sellingLocal 1).txn.state = .committed ∧ (sellingLocal 1).answersOffer .loc 5 = true ∧
      ((sellingLocal 0).vend.map fun v => v.drops) = some 0 ∧
      (panelOnly).cfg.role ≠ .payment ∧ panelOnly.start = .none ∧ panelOnly.built = true ∧ shop.cfg.role = .payment ∧
      (selling .committed 5 20).vend = none ∧ (paying .pause).txn.state ≠ .committed ∧ (paying .pause).txn.escrow = 0 := by
  decide +kernel

set_option maxRecDepth 100000 in
theorem test_meets_SavedBlockWriteEnds :
    State.reset.saveWrite = none ∧ Memory.wf image = true ∧ (savedBlock Station.reset).length = 718 ∧
      blockCheckOk (savedBlock Station.reset) = true := by decide +kernel

theorem test_meets_DoorOpeningStopsSales :
    shop.doorRead = true ∧ shop.faults.doorOpen = false ∧ (paying .pause).doorRead = true ∧
      (paying .pause).payout.state = .running ∧ (paying .pause).payout.phase ≠ .pulse ∧ (paying .pulse).payout.phase = .pulse ∧
      (vending (vend .turning)).vend = some (vend .turning) ∧ (vend .turning).entry.test = false ∧
      (vend .turning).drops = 0 ∧ ({ vend .turning with drops := 3 }).drops ≠ 0 ∧ shop.cfg.coolingFitted = true ∧
      shop.cooling.defrostFree = true ∧ settings.cooling.doorLimit = 10 ∧ settings.cooling.causeDoorCount = false ∧
      ({ settings with coolingFitted := false }).coolingFitted = false := by decide +kernel

/-- The clauses under the queue's law: a customer's sale in flight, a test vend in flight, none, and an own sale that the
door ends, each with a queue to be answered that the transmit queue can take. -/
theorem test_meets_DoorOpening_queue :
    (QueueLaw (fullQueue firstEntry) ∧ QueueLaw (fullQueue testVend) ∧
      QueueLaw { shop with queue := [testEntry, askedEntry] } ∧ QueueLaw (sellingLocal 1) ∧ QueueLaw (sellingLocal 0)) ∧
      firstEntry.test = false ∧ testVend.test = true ∧
      ((fullQueue firstEntry).vend.bind interruptedFrame).toList = [⟨3, .result 9 .interrupted 0, false⟩] ∧
      ((fullQueue firstEntry).queue.filter fun e => e.state = .awaitCommit || (e.state = .committed && !e.test)).filterMap
        (removedFrame .service .service) = [⟨5, .refuse 2 .service, false⟩] ∧
      (fullQueue firstEntry).active = true ∧ (fullQueue firstEntry).line.queue = [] ∧
      ((fullQueue firstEntry).answersOffer .loc 12 = true ∧ (fullQueue firstEntry).txn.state = .committed) ∧
      ((sellingLocal 1).answersOffer .loc 5 = true ∧ (sellingLocal 1).txn.state = .committed) ∧
      ((fullQueue firstEntry).queue.filter fun e => e.state = .committed && e.test).find? (mayBePicked openShop) =
        some testEntry ∧
      openShop.queue.find? (mayBePicked openShop) = none := by
  refine ⟨⟨?_, ?_, ?_, ?_, ?_⟩, by decide +kernel⟩ <;>
    exact queueLaw_of rfl (by decide) (by decide) (by decide) (by unfold AtRest; decide +kernel)

/-- The line states in which answers are sent and one in which they are not, with a transmit queue that takes one frame. -/
theorem test_meets_RemovedAnswered :
    (shop.sendsAnswers ∧ (alone shop).sendsAnswers ∧ ¬clashed.sendsAnswers ∧ ¬offlineCredit.sendsAnswers) ∧
      (List.replicate 7 (⟨0, .release .vendMotor, false⟩ : Frame)).length +
        ([] ++ [askedEntry].filterMap (removedFrame .chute .chute)).length ≤ 8 := by
  unfold Station.sendsAnswers; decide +kernel

/-- R140: the tenth opening makes a defrost request where the set names DOOR-COUNT; the ninth and the eleventh do not. -/
theorem test_door_count :
    [8, 9, 10, 255].map (fun n =>
      (after (.doorOpens 100) { chilling (fun c => { c with compressor := .off, doorCounter := n }) with
        cfg := { settings with cooling := { settings.cooling with causeDoorCount := true } } }).map fun t =>
          (t.cooling.doorCounter, t.cooling.defrostRequest)) =
      [some (9, false), some (10, true), some (11, false), some (255, false)] := by decide +kernel

theorem test_meets_DoorClosingEndsService :
    openShop.doorRead = true ∧ openShop.faults.doorOpen = true ∧ openShop.payout.state ≠ .stopped ∧
      (let s := stoppedPayout id shop.coin.tubes
       s.doorRead = true ∧ s.faults.doorOpen = true ∧ s.vend = none ∧ s.payout.state = .stopped ∧ s.payout.tubesChanged = false ∧
         s.payout.pulseOn = none ∧ currentRun s.payout.plan = some ⟨5, 1, [(2, 1)]⟩ ∧ s.payout.currentTube = some 2 ∧
         s.payout.attempt = 1) ∧
      (stoppedPayout (fun p => { p with pulseOn := some 2 }) shop.coin.tubes).payout.pulseOn = some 2 ∧
      (stoppedPayout (fun p => { p with tubesChanged := true }) shop.coin.tubes).payout.tubesChanged = true ∧
      payoutPlan shop.coin.tubes 6 ≠ [] ∧ payoutPlan (List.replicate 5 Tube.blank) 6 = [] := by decide +kernel

/-- R104: a stopped payout of 6 goes on with its plan; with the tubes changed it is planned anew over what they hold, here
six ones, or has nothing to pay from and gives its 6 back as credit. -/
theorem test_stopped_payout_goes_on :
    ([(false, shop.coin.tubes), (true, tubeOnes :: List.replicate 4 Tube.blank), (true, List.replicate 5 Tube.blank)].map
      fun (changed, tubes) =>
        (after (.doorCloses 100) (stoppedPayout (fun p => { p with tubesChanged := changed }) tubes)).map fun t =>
          (t.payout.plan, t.payout.pulseOn, t.txn.credit, t.faults.active)) =
      [some ([⟨5, 1, [(2, 1)]⟩, ⟨1, 1, [(1, 1)]⟩], some 2, 0, none), some ([⟨1, 6, [(1, 6)]⟩], some 1, 0, none),
       some ([], none, 6, some (.shortPay 6))] := by
  decide +kernel

theorem test_meets_VendEndsByItsTimersAndChecks :
    (vending (vend .claiming)).vend = some (vend .claiming) ∧
      endsVend .claimTimerExpiry (vend .claiming) = some (.noPower, 15000) ∧
      endsVend .leaveHomeTimerExpiry (vend .starting) = some (.jammed, 600) ∧
      endsVend .revolutionTimerExpiry { vend .turning with timer := 5000 } = some (.jammed, 0) ∧
      (motorSense (vend (.reversing .reversed))).isSome = true ∧ motorSense (vend .starting) = some .forward ∧
      motorSense (vend .settling) ≠ some .forward ∧ (vend .starting).low = true ∧ (vend .starting).shorted = false ∧
      100 ≤ (vend .starting).onTime + (List.replicate 100 99).length ∧
      (vend .starting).onTime + (List.replicate 99 99).length < 100 ∧
      (vending (vend .claiming)).line.state ≠ .halted := by decide +kernel

/-- A short at the last reading of 50 ms, and none at the threshold. -/
theorem test_meets_ReadsShort :
    ReadsShort settings (vend .starting) (List.replicate 49 1500 ++ [1501]) ∧
      ¬ReadsShort settings (vend .starting) (List.replicate 200 1500) := by
  refine ⟨⟨49, 1501, by decide, by decide, by decide⟩, ?_⟩
  rintro ⟨i, x, h, _, hx⟩
  rw [List.getElem?_replicate] at h
  split at h
  · cases h; exact absurd hx (by decide)
  · cases h

/-- A current at the open threshold at the last reading of 100 ms, and none below it. -/
theorem test_meets_ReadsCurrent :
    ReadsCurrent settings (vend .starting) (List.replicate 99 99 ++ [100]) ∧
      ¬ReadsCurrent settings (vend .starting) (List.replicate 200 99) := by
  refine ⟨⟨99, 100, by decide, by decide, by decide⟩, ?_⟩
  rintro ⟨i, x, h, _, hx⟩
  rw [List.getElem?_replicate] at h
  split at h
  · cases h; exact absurd hx (by decide)
  · cases h

theorem test_meets_HomeLevelsDriveTheVend :
    (motorSense (vend .starting)).isSome = true ∧ (motorSense (vend .turning)).isSome = true ∧
      (motorSense (vend (.reversing .reversed))).isSome = true ∧ (vend .turning).drops = 0 ∧
      shop.cfg.guarantee = true ∧ ({ vend .turning with drops := 1 }).drops ≠ 0 := by decide +kernel

theorem test_meets_TurnsJamsAndReversals :
    ((vending (vend .settling)).advanceTo 800 (vending (vend .settling)).vendTimer).vend =
        some { vend .settling with timer := 800 } ∧
      shop.cfg.extraTurns = 1 ∧
      (150 ≤ ({ vend .turning with low := false }).jamRun + (List.replicate 150 501).length ∧
        (∀ x ∈ List.replicate 150 501, shop.cfg.jamThreshold < x) ∧ (vend .turning).jams = 0 ∧
        ({ vend .starting with jams := 1 }).jams ≠ 0) ∧
      ((List.replicate 149 501 ++ [500]).getLast? = some 500 ∧ 500 ≤ shop.cfg.jamThreshold ∧
        (vend .turning).jamRun + (List.replicate 149 501).length < 150 ∧
        motorSense (vend (.reversing .reversed)) ≠ some .forward) ∧
      ((vending (vend (.reversing .firstPause))).advanceTo 20 0).vend =
        some { vend (.reversing .firstPause) with timer := 20 } ∧
      ((vending (vend (.reversing .reversed))).advanceTo 400 0).vend.map (fun v => (v.phase, v.timer)) =
        some (.reversing .reversed, 400) ∧
      ((vending (vend (.reversing .secondPause))).advanceTo 20 0).vend =
        some { vend (.reversing .secondPause) with timer := 20 } := by decide +kernel

theorem test_meets_DropEdgeIsADropOrChuteActivity :
    (clearBeam (vend .turning)).doorRead = true ∧ (clearBeam (vend .turning)).chute.blocked = false ∧
      (clearBeam (vend .turning)).chute.beamTime = 10 ∧ shop.chute.beamTime < 10 ∧ shop.vend = none ∧
      (clearBeam (vend .claiming)).vendIn .claiming = true ∧ ({ vend .turning with drops := 3 }).drops = 3 ∧
      ({ vend .turning with drops := 2 }).drops < 3 ∧ ({ vend .settling with drops := 2 }).phase = .settling ∧
      positionInRange 10 = true ∧ 10 - 10 < shop.spirals.length := by decide +kernel

theorem test_meets_ChuteIsSupervised :
    (let s := { shop with chute := { Chute.blank with blocked := true } }
     s.doorRead = true ∧ s.chute.blocked = true ∧ s.beamTimed = true ∧ s.chute.fault = false) ∧
    (let s := { shop with now := 3600000, chute := { Chute.blank with rate := true, edges := List.replicate 21 0 } }
     s.doorRead = true ∧ s.chute.rate = true) ∧
    (let s := { shop with chute := { Chute.blank with fault := true } }
     s.beamTimed = true ∧ s.chute.blocked = false ∧ s.chute.fault = true) ∧
    shop.cfg.guarantee = true ∧ ({ settings with guarantee := false }).guarantee = false ∧
    ((fullQueue firstEntry).queue.filter fun e => e.state != .vending) = [testEntry, ownEntry, askedEntry] := by
  decide +kernel

/-- R29, R117, R122, R101: the sale of the own cabinet that a chute fault removes ends in a return with no tube to pay
from: CHUTE comes first, SHORT-PAY behind it. -/
theorem test_chute_fault_and_short_pay :
    (after .chuteFault { shop with
      chute := { Chute.blank with blocked := true }
      coin := { CoinUnit.blank with tubes := List.replicate 5 Tube.blank }
      queue := [⟨some .loc, some 5, 10, 20, .committed, false, 0, 1⟩]
      txn := { Txn.blank with
        state := .committed, escrow := 20, offer := some ⟨.loc, 5, 10, some 20⟩, returnRequested := true } }).map
      (fun t => (t.faults.active, t.faults.pendingNotice, t.txn.credit)) =
      some (some .chute, some (.shortPay 20), 20) := by decide +kernel

theorem test_meets_CommitTimerRemovesTheEntry :
    (queued .awaitCommit).awaiting (.peer 2) 3 = some (entry .awaitCommit) := by decide +kernel

/-- A frame heard leaves ACTIVE and LISTEN, and turns ISOLATED by SILENCE to LISTEN, with the records as they were. -/
theorem test_meets_heard :
    shop.heardPeer.active = true ∧ (alone shop).heardPeer.line.state = .listen ∧ (alone shop).heardPeer.active = false ∧
      (alone shop).heardPeer.cfg = shop.cfg ∧
      (alone (queued .awaitCommit)).heardPeer.queue.find? (entryIs (.peer 2) 3) = some (entry .awaitCommit) ∧
      (alone (selling .asking 23 0)).heardPeer.answersOffer (.peer 2) 5 = true ∧
      (alone (selling .asking 23 0)).heardPeer.txn.state = .asking ∧
      (alone (selling .committed 3 20)).heardPeer.txn.state = .committed ∧
      (alone shop).heardPeer.line.queue.length < 8 := by decide +kernel

theorem test_meets_OfferIsAdmittedOrRefused :
    shop.active = true ∧ offerOk 2 shop.cfg.address 3 1 0 = true ∧ 2 ≠ shop.cfg.address ∧
      (let s := { queued .awaitCommit with line := { Line.blank with state := .listen } }
       s.line.state = .listen ∧ s.active = false ∧ s.queue.find? (entryIs (.peer 2) 3) = some (entry .awaitCommit)) ∧
      (queued .awaitCommit).queue.find? (entryIs (.peer 2) 3) = some (entry .awaitCommit) ∧
      shop.queue.find? (entryIs (.peer 2) 3) = none ∧ shop.offerRefusal 7 0 = some .noSuch ∧
      (shop.faults.doorOpen = false ∧ shop.chuteStops = false ∧ shop.namesPosition 1 0 = true ∧
        (shop.spiral 10).status = .inService ∧ shop.withheld 10 = false ∧ (shop.spiral 10).stock = .known 5 ∧
        shop.namingCount 10 < 5 ∧ shop.queue.length < 4) := by decide +kernel

theorem test_meets_CommitBindsTheEntry :
    shop.active = true ∧ commitOk 2 shop.cfg.address 3 20 = true ∧ commitOk 2 shop.cfg.address 3 2000 = true ∧
      shop.queue.find? (entryIs (.peer 2) 3) = none ∧
      (queued .awaitCommit).queue.find? (entryIs (.peer 2) 3) = some (entry .awaitCommit) ∧
      (queued .committed).queue.find? (entryIs (.peer 2) 3) = some (entry .committed) ∧
      (queued .awaitCommit).vend = none ∧ (fullQueue firstEntry).vend ≠ none ∧
      (fullQueue firstEntry).queue.find? (entryIs (.peer 5) 2) = some askedEntry := by decide +kernel

theorem test_meets_WithdrawRemovesTheEntry :
    (queued .committed).active = true ∧ withdrawOk 2 (queued .committed).cfg.address 15 = true ∧
      2 ≠ (queued .committed).cfg.address := by decide +kernel

theorem test_meets_AcceptBindsOrDeclines :
    (selling .asking 23 0).active = true ∧ acceptOk 2 (selling .asking 23 0).cfg.address 5 20 4 = true ∧
      (selling .asking 23 0).answersOffer (.peer 2) 4 = false ∧ (selling .asking 23 0).answersOffer (.peer 2) 5 = true ∧
      (selling .committed 3 20).answersOffer (.peer 2) 5 = true ∧
      payableExactly (selling .asking 23 0).coin.tubes (23 - 20) = true ∧
      (selling .asking 19 0).txn.credit < 20 ∧ (selling .asking 60 0).cfg.multiVend = false ∧
      payableExactly (selling .asking 60 0).coin.tubes (60 - 20) = false := by decide +kernel

theorem test_meets_RefuseEndsTheOffer :
    (selling .asking 23 0).active = true ∧ refuseOk 2 (selling .asking 23 0).cfg.address 5 1 = true ∧
      refuseOk 2 (selling .asking 23 0).cfg.address 5 11 = true ∧
      (selling .asking 23 0).answersOffer (.peer 2) 6 = false ∧ (selling .asking 23 0).answersOffer (.peer 2) 5 = true ∧
      (selling .committed 3 20).answersOffer (.peer 2) 5 = true ∧
      (selling .committed 3 20).txn.returnRequested = false := by decide +kernel

theorem test_meets_ResultSettlesTheSale :
    (selling .committed 3 20).active = true ∧ resultOk 2 (selling .committed 3 20).cfg.address 5 0 3 = true ∧
      resultOk 2 (selling .committed 3 20).cfg.address 5 9 0 = true ∧ outcomeOf 0 = .delivered ∧ outcomeOf 9 ≠ .delivered ∧
      (selling .committed 3 20).answersOffer (.peer 2) 5 = true ∧ (selling .committed 3 20).txn.state = .committed := by
  decide +kernel

theorem test_meets_LateResultIsOnlyCounted :
    shop.active = true ∧ resultOk 2 shop.cfg.address 5 0 0 = true ∧ 2 ≠ shop.cfg.address ∧
      shop.answersOffer (.peer 2) 5 = false ∧ shop.txn.offer = none ∧ (selling .asking 3 0).txn.state = .asking := by
  decide +kernel

theorem test_meets_FramesWriteThePeerView :
    frameRoute (.claim 2 0 2 3 255 3) = some (2, 0) ∧ frameValid (.claim 2 0 2 3 255 3) = true ∧
      frameValid (.release 2 0 0) = true ∧ frameValid (.declare 2 0 declared) = true ∧
      frameValid (.heartbeat 2 0 beat) = true ∧ frameValid (.auditQuery 2 1 31) = true ∧
      frameRoute (.auditQuery 2 1 31) = some (2, 1) ∧ shop.running = true ∧ 2 ≠ 0 ∧ 2 ≠ shop.cfg.address ∧
      (let s := { shop with line := { Line.blank with state := .isolated .silence } }
       s.running = true ∧ s.line.state = .isolated .silence) ∧
      shop.line.state ≠ .isolated .silence ∧ shop.line.state ≠ .isolated .lineFault ∧
      (shop.answersDeclare 2 = true ∧ withPeer.answersDeclare 2 = false ∧ shop.line.state ≠ .isolated .clash) ∧
      (classOf 2 = some .defrostHeater ∧
        asks .compressor .window ∈ (asking (asks .compressor .window)).power.requests ∧
        (asks .compressor .window).phase = .window ∧ (asking (asks .compressor .window)).active = true) := by
  decide +kernel

theorem test_meets_AuditQueriesAreAnswered :
    auditQueryOk 0 1 31 = true ∧ auditQueryOk 8 0 32 = true ∧ shop.active = true ∧ 1 = shop.cfg.address ∧
      0 ≠ shop.cfg.address ∧ 8 ≠ shop.cfg.address := by decide +kernel

theorem test_meets_BadFramesAreOnlyCounted :
    (frameRoute (.claim 2 0 3 0 1 0)).isSome = true ∧ frameValid (.claim 2 0 3 0 1 0) = false ∧ shop.running = true ∧
      readBits [] = none ∧ readBits [true] = none ∧ readBits (frameBits 2 ⟨1, .withdraw 3, false⟩) ≠ none := by
  decide +kernel

theorem test_meets_OwnAddressFrameIsolates :
    frameRoute (.withdraw 1 2 0) = some (1, 2) ∧ frameValid (.withdraw 1 2 0) = true ∧ shop.running = true ∧
      1 = shop.cfg.address ∧ shop.line.sending = false ∧ (sending ⟨2, .withdraw 0, false⟩).line.sending = true ∧
      clashed.line.state = .isolated .clash ∧ shop.built = true ∧ shop.line.state ≠ .isolated .clash := by decide +kernel

/-- A latched clash in a settled station, which a step keeps or a start ends. -/
theorem test_meets_OwnAddressFrameIsolates_latched :
    (let s := finish clashed clashed
     s.line.clashLatched = true ∧ s.built = true ∧ Settled s) ∧
    ∃ t, step (mach clashed) = .next t := ⟨by unfold Settled; decide +kernel, _, rfl⟩

theorem test_meets_SendingAndLineFaults :
    (let s := sending ⟨2, .withdraw 0, false⟩
     s.running = true ∧ s.line.queue = ⟨2, .withdraw 0, false⟩ :: [] ∧ s.line.sending = true ∧ s.loadsSettled = true ∧
       s.line.errors < 7 ∧ s.line.state.beats = true) ∧
    (losesTo (byteBits (headByte 1 ⟨2, .withdraw 0, false⟩)) (byteBits (byteOf 0x70)) = true ∧
      losesTo (byteBits (headByte 1 ⟨2, .withdraw 0, false⟩)) (byteBits (byteOf 0x71)) = false ∧
      losesTo (byteBits (byteOf 255)) (byteBits (byteOf 254)) = true) ∧
    (let s := { sending ⟨0, .claim .vendMotor 1 ⟨60, 0⟩, true⟩ with
       power := { Power.blank with requests := [asks .vendMotor .sending] } }
     s.active = true ∧ (asks .vendMotor .sending) ∈ s.power.requests ∧ (asks .vendMotor .sending).phase = .sending) ∧
    (let s := { shop with line := { shop.line with errors := 7, sending := true } }
     7 ≤ s.line.errors ∧ s.line.sending = true ∧ s.line.state.beats = true) ∧
    (let s := { shop with line := { Line.blank with state := .isolated .lineFault, errors := 8, sending := true } }
     7 ≤ s.line.errors ∧ s.line.sending = true ∧ s.line.state.beats = false) := by decide +kernel

theorem test_meets_LineTimersAct :
    (let s := { shop with line := { Line.blank with state := .listen } }
     s.line.state = .listen ∧ (s.advanceTo 1500 0).line.heard = false ∧ (s.advanceTo 1500 0).cfg.stationCount ≠ 1) ∧
    (let s := { shop with line := { Line.blank with state := .listen, heard := true, declareDelay := some 0 } }
     (s.advanceTo 1500 0).line.heard = true ∧ s.line.state.beats = true ∧ s.line.declareDelay = some 0) ∧
    shop.active = true ∧ shop.cfg.stationCount ≠ 1 ∧
    ({ shop with line := { Line.blank with state := .isolated .lineFault } }).line.state = .isolated .lineFault := by
  decide +kernel

theorem test_meets_PeersAgeToSilentAndGone :
    withPeer.running = true ∧ withPeer.findPeer peer.address = some peer ∧ peer.presence = .present ∧
      ({ shop with peers := [{ peer with presence := .silent, age := 30000 }] }).findPeer peer.address =
        some { peer with presence := .silent, age := 30000 } ∧
      withPeer.faults.active = none ∧
      ({ withPeer with faults := { FaultUnit.blank with active := some .chute } }).faults.active ≠ none := by decide +kernel

theorem test_meets_WindowGrantsOrBacksOff :
    (let s := { vending (vend .claiming) with power := { Power.blank with requests := [asks .vendMotor .window] } }
     let u := s.advanceTo 50 0
     s.active = true ∧ s.requestIn .window = some (asks .vendMotor .window) ∧
       u.requestIn .window = some { asks .vendMotor .window with timer := 50, waited := 50 } ∧
       u.power.requests.filter (fun q => q.cls = .vendMotor) = [{ asks .vendMotor .window with timer := 50, waited := 50 }] ∧
       u.windowSum { asks .vendMotor .window with timer := 50, waited := 50 } ≤ u.cfg.bankBudget ∧
       u.vendIn .claiming = true) ∧
    (chilling fun c => { c with compressor := .waitPower }).cooling.compressor = .waitPower ∧
    (chilling fun c => { c with compressor := .defrost, phase := .heaterWait }).cooling.phase = .heaterWait ∧
    (asking { asks .compressor .window with power := ⟨255, 3⟩ }).cfg.bankBudget <
      (asking { asks .compressor .window with power := ⟨255, 3⟩ }).windowSum { asks .compressor .window with power := ⟨255, 3⟩ } ∧
    ({ withPeer with cfg := { settings with stationCount := 1 } }).cfg.stationCount = 1 := by
  decide +kernel

theorem test_meets_BackoffAndStarvation :
    (asking (asks .compressor .backoff)).requestOf .compressor = some (asks .compressor .backoff) ∧
      ({ asking (asks .compressor .backoff) with line := { Line.blank with state := .listen } }).active = false ∧
      (asking (asks .compressor .backoff)).line.state.isIsolated = false ∧
      (let s := { shop with power := { Power.blank with requests := [asks .compressor .backoff, asks .vendMotor .window] } }
       s.requestOf .compressor = some (asks .compressor .backoff) ∧ windowHeld s.power.requests = true) ∧
      (asks .compressor .held).checked = true ∧ (asks .compressor .held).starved = false ∧
      (let s := { vending (vend .claiming) with
         line := { Line.blank with state := .isolated .silence },
         power := { Power.blank with requests := [asks .vendMotor .backoff] } }
       let u := s.advanceTo 150 0
       s.power.requests = [asks .vendMotor .backoff] ∧ s.line.state.isIsolated = true ∧
         u.ownSum + watts (asks .vendMotor .backoff).power ≤ allowanceInForce u.cfg ∧ u.vendIn .claiming = true ∧
         allowanceInForce u.cfg < u.ownSum + watts ⟨255, 3⟩) := by decide +kernel

/-- The window given: to a backoff's end, at entry to ACTIVE, and to room made by a peer's frame, a peer GONE or forgotten,
and the compressor's run watts; a request that fits, one that does not, and a transmit queue with and without room. -/
theorem test_meets_WindowGiven :
    (let r := asks .compressor .ready
     let s := asking r
     s.active = true ∧ (s.power.requests.map fun q => q.cls).Nodup ∧ windowHeld s.power.requests = false ∧
       s.admissionSum r.power ≤ s.cfg.bankBudget ∧ s.cfg.bankBudget < s.admissionSum ⟨255, 3⟩ ∧
       (asks .vendMotor .ready).betterThan r = true ∧ s.line.queue.length < 7 ∧
       ¬(List.replicate 8 (⟨2, .withdraw 0, false⟩ : Frame)).length < 8) ∧
    (let s := { asking (asks .compressor .held) with line := { Line.blank with state := .listen, heard := true } }
     s.line.state = .listen ∧ (s.advanceTo 1500 0).line.heard = true) ∧
    (withPeer.active = true ∧ withPeer.findPeer 2 = some peer ∧ frameValid (.release 2 0 0) = true ∧
      frameValid (.claim 2 0 0 1 60 0) = true ∧ withPeer.requestIn .window = none) ∧
    (let silent : Station := { openShop with peers := [{ peer with presence := .silent }] }
     silent.active = true ∧ silent.findPeer peer.address = some { peer with presence := .silent } ∧
       silent.serviceMode = true ∧ ∃ p ∈ silent.peers, p.presence ≠ .present) ∧
    (let s := { chilling (fun c => { c with compressor := .run }) with power := { Power.blank with compressor := some ⟨150, 1⟩ } }
     let u := s.advanceTo 2000 0
     s.cooling.inrushDone = false ∧ u.power.compressor = some ⟨150, 1⟩ ∧ watts u.cfg.run ≤ watts ⟨150, 1⟩ ∧
       hasRequest u.power.requests .compressor = false) := by decide +kernel

theorem test_meets_CountsLess :
    CountsLess settings { peer with vendMotor := 10 } peer ∧ ¬CountsLess settings peer { peer with vendMotor := 10 } ∧
      CountsLess settings { peer with presence := .silent } { peer with declaredMax := 0 } := by
  unfold CountsLess; decide

/-- ISOLATED with a vend in TURNING and a heater that waits. -/
theorem test_meets_IsolatedLaw :
    IsolatedLaw { vending (vend .turning) with
      line := { Line.blank with state := .isolated .lineFault },
      power := ⟨some ⟨60, 0⟩, none, none, [asks .defrostHeater .held]⟩ } := by
  refine ⟨by decide, by decide, ?_, by decide, by unfold AtRest; decide +kernel⟩
  intro f h; cases h; rfl

theorem test_meets_CoinIsCreditedAndCounted :
    shop.coinUnitWorks = true ∧ (shop.coinTypeOf 0).value = 1 ∧ (shop.coinTypeOf 0).tube = 1 ∧
      (shop.tube 1).fitted = true ∧ (shop.coinTypeOf 15).value = 0 ∧ tubeNumberOk (shop.coinTypeOf 2).tube = false ∧
      (shop.tube 3).fitted = false ∧ (shop.tube 1).estimate < 250 ∧
      250 ≤ ({ tubeFives with fullMark := 250, estimate := 250 }).estimate := by decide +kernel

theorem test_meets_RejectIsJournalled : shop.coinUnitWorks = true := by decide +kernel

theorem test_meets_ValidatorLinkIsSupervised :
    shop.coinUnitWorks = true ∧ faultCodeOk 1 = true ∧ faultCodeOk 255 = true ∧ statusOk 0 = true ∧ statusOk 255 = true ∧
      ({ shop.coin with waitingInhibit := some [1] }).waitingInhibit = some [1] ∧
      (shop.coin.waitingInhibit = none ∧ shop.coin.waitingRoute = none) ∧
      (let s := { shop with coin := { shop.coin with lastInhibit := shop.inhibitSet, lastRoute := shop.routeSet } }
       s.coin.lastInhibit = s.inhibitSet ∧ s.coin.lastRoute = s.routeSet) := by decide +kernel

theorem test_meets_TubeSensorCorrectsTheEstimate :
    shop.coinUnitWorks = true ∧ tubeNumberOk 1 = true ∧ shop.tube 1 = tubeOnes ∧ tubeOnes.fitted = true ∧
      tubeOnes.lowSensor ≠ true ∧ tubeOnes.fullSensor ≠ true := by decide +kernel

theorem test_meets_CoutEdgeConfirmsTheCoin :
    (paying .pulse).running = true ∧ (paying .pulse).payout.phase = .pulse ∧
      currentRun (paying .pulse).payout.plan = some ⟨5, 1, [(2, 1)]⟩ ∧ (paying .pulse).payout.currentTube = some 2 ∧
      ((paying .pulse).tube 2).estimate ≠ 0 ∧ (currentRun (payRun (paying .pulse).payout.plan)).isSome = true ∧
      (paying .pause).payout.phase ≠ .pulse ∧ halted.running = false ∧
      currentRun (payRun [⟨5, 1, [(2, 1)]⟩]) = none ∧ (shop.tube 3).estimate = 0 ∧
      ({ (paying .pulse).payout with stop := .door }).stop = .door := by decide +kernel

theorem test_meets_PayoutTimersDriveTheCoin :
    (let s := { paying .pulse with payout := { (paying .pulse).payout with pulseOn := some 2 } }
     let u := s.advanceTo 60 s.payout.pulseTimer
     s.payout.pulseOn.isSome = true ∧ u.payout.phase ≠ .none) ∧
    (let s := { paying .none with payout := { (paying .none).payout with pulseOn := some 2 } }
     let u := s.advanceTo 60 s.payout.pulseTimer
     u.payout.phase = .none ∧ u.payout.state = .running ∧ currentRun u.payout.plan = some ⟨5, 1, [(2, 1)]⟩ ∧
       u.payout.currentTube = some 2) ∧
    (let u := (paying .pulse).advanceTo 150 0
     u.payout.currentTube = some 2 ∧ u.payout.attempt ≠ 2 ∧ u.payout.stop = .none) ∧
    (payoutPlan [tubeOnes, { tubeFives with status := .payoutFault }] 6 ≠ [] ∧
      payoutPlan [{ tubeOnes with status := .payoutFault }] 6 = [] ∧
      ({ (paying .pulse).payout with attempt := 2 }).attempt = 2) ∧
    (let u := (paying .pause).advanceTo 50 0
     (paying .pause).payout.phase = .pause ∧ u.payout.pulseOn = none ∧ currentRun u.payout.plan = some ⟨5, 1, [(2, 1)]⟩ ∧
       u.payout.currentTube = some 2) := by decide +kernel

theorem test_meets_CustomerKeysFillTheBuffer :
    shop.customerKeys = true ∧ shop.bufferLetter = 0 ∧ shop.bufferOpen = true ∧ shop.panel.buffer = none ∧
      panelOnly.customerKeys = true ∧ panelOnly.bufferOpen = true ∧ isPayment panelOnly.cfg = false ∧
      (let s := { panelOnly with panel := { Panel.blank with buffer := some ⟨0, some 6⟩ } }
       s.bufferLetter = 0 ∧ s.panel.buffer = some ⟨0, some 6⟩) ∧
      (selling .asking 5 0).bufferOpen = false ∧ (selling .committed 5 20).bufferOpen = false ∧
      (paying .pulse).bufferOpen = false := by decide +kernel

/-- R112: of the digits 0, 1, 6 and 7 the second and third name a tray. -/
theorem test_tray_digits :
    [0, 1, 6, 7].map (fun digit => (after (.keyDigit digit) shop).map fun t => (t.panel.buffer, t.panel.message)) =
      [some (none, some .notAvail), some (some ⟨0, some 1⟩, none), some (some ⟨0, some 6⟩, none),
        some (none, some .notAvail)] := by decide +kernel

theorem test_meets_SelectionMakesAnOffer :
    (let s := { withPeer with panel := { Panel.blank with buffer := some ⟨1, some 1⟩ } }
     s.customerKeys = true ∧ s.bufferOpen = true ∧ isPayment s.cfg = true ∧ s.panel.buffer = some ⟨1, some 1⟩ ∧
       (s.txn.lastTag + 1) % 16 = 0 ∧ s.ownerOf 1 = some (.peer 2) ∧ s.offerReaches 2 = true ∧ s.ownerOf 2 = none ∧
       s.ownerOf 0 = some .loc ∧ s.queue.find? (entryIs .loc 0) = none ∧ s.offerRefusal 6 9 = some .noSuch) ∧
    (let s := { shop with
       panel := { Panel.blank with buffer := some ⟨0, some 1⟩ }, txn := { Txn.blank with state := .credit, credit := 23 } }
     s.customerKeys = true ∧ s.bufferOpen = true ∧ s.ownerOf 0 = some .loc ∧ s.offerRefusal 1 0 = none ∧
       (s.spiral 10).price = 20 ∧ 20 ≤ s.txn.credit ∧ payableExactly s.coin.tubes (23 - 20) = true ∧
       payableExactly s.coin.tubes (60 - 20) = false ∧ s.cfg.multiVend = false) ∧
    (let s := { shop with peers := [{ peer with accepting := false }] }
     s.ownerOf 1 = some (.peer 2) ∧ s.offerReaches 2 = false) := by decide +kernel

theorem test_meets_ReturnsAndTransactionTimers :
    shop.customerKeys = true ∧ isPayment shop.cfg = true ∧ panelOnly.customerKeys = true ∧ isPayment panelOnly.cfg = false ∧
      (let s := { shop with txn := { Txn.blank with state := .credit, credit := 6 } }
       s.line.state ≠ .halted ∧ s.txn.state = .credit ∧ s.txn.credit ≠ 0 ∧ s.payout.state = .idle ∧ s.payout.pulseOn = none ∧
         payoutPlan s.coin.tubes s.txn.credit ≠ [] ∧ s.faults.doorOpen = false) ∧
      ((selling .asking 5 0).txn.offer = some ⟨.peer 2, 5, 10, none⟩ ∧ (selling .asking 5 0).payout.state = .idle ∧
        (selling .asking 5 0).customerKeys = true ∧
        sendAllowed (selling .asking 5 0).line.state (.withdraw 5) = true) ∧
      (selling .asking 5 0).line.state ≠ .halted ∧ (selling .asking 5 0).txn.peerOwner = true ∧
      (offlineCredit.line.state ≠ .halted ∧ offlineCredit.txn.state = .credit ∧ offlineCredit.faults.doorOpen = false) ∧
      (selling .committed 5 20).txn.state = .committed ∧ (selling .committed 5 20).txn.peerOwner = true ∧
      (let u := (selling .committed 5 20).advanceTo (Config.resultTime 0) 0
       u.txn.offer = some ⟨.peer 2, 5, 10, some 20⟩ ∧ sendAllowed u.line.state (.withdraw 5) = true ∧
         u.txn.returnRequested = false ∧ u.payout.state = .idle) := by decide +kernel

theorem test_meets_TechnicianKeysEditAndSubmit :
    openShop.serviceMode = true ∧ openShop.service.command = none ∧
      (⟨[1, 0], [5, 2, 5, 0], 0, none⟩ : ServiceEntry).command = some (.fillTube 5 250) ∧
      spelled [1, 0] [5, 2, 5, 0] = some (.fillTube 5 250) ∧ spelled [0] [] = none ∧ spelled [1, 3] [1] = none := by
  decide +kernel

theorem test_meets_DisplayEntryAndDoorTimers :
    ({ Panel.blank with buffer := some ⟨0, none⟩ }).buffer.isSome = true ∧
      (⟨[1], [], 0, none⟩ : ServiceEntry).isEmpty = false ∧
      ({ Panel.blank with message := some .done }).message.isSome = true ∧
      (let s := { shop with exactLit := true, panel := { Panel.blank with alternation := some .exactAmount } }
       s.panel.alternation.isSome = true ∧ (s.advanceTo 1000 0).alternates = (s.advanceTo 1000 0).panel.alternation) ∧
      (let s := { shop with faults := { FaultUnit.blank with active := some .chute, lamp := .flashing } }
       let u := s.advanceTo 500 0
       s.faults.lamp = .flashing ∧ u.lampMode = .flashing ∧ u.keepsConditions = true ∧
         u.faults.standing = allConditions.filter u.holds) ∧
      openShop.doorRead = true ∧ openShop.faults.doorOpen = true := by decide +kernel

theorem test_meets_SensorSampleIsTaken :
    (let s := chilling fun c => { c with compressor := .run }
     s.coolingOn = true ∧ (s.cooling.sensor .air).reading = none ∧
       ((s.cooling.sensor .air).sample settings.cooling.table 16).reading = some 600 ∧
       ((s.cooling.sensor .air).sample settings.cooling.table 1007).fault = false ∧ s.cooling.compressor = .run ∧
       settings.cooling.condenserLimit ≤ 600) ∧
    (let r : Sensor := { Sensor.blank with invalidRun := 4 }
     r.fault = false ∧ (r.sample settings.cooling.table 1023).fault = true) ∧
    (let r : Sensor := { Sensor.blank with fault := true, validRun := 9 }
     r.fault = true ∧ (r.sample settings.cooling.table 1007).fault = false ∧
       (r.sample settings.cooling.table 1007).reading = some (-300) ∧ -300 ≤ settings.cooling.holdLimit ∧
       settings.cooling.holdLimit < 600 ∧ shop.cooling.coldHold = false ∧ shop.cooling.duty = none) ∧
    (chilling fun c => { c with compressor := .defrost, phase := .offCycle }).cooling.phase.melting = true ∧
    (Sensor.blank.sample settings.cooling.table 565).reading = some 35 ∧ settings.cooling.setpoint < 35 ∧
    35 < settings.cooling.setpoint + settings.cooling.differential := by decide +kernel

/-- A compressor in RUN with a pending defrost, its slot standing, under the law of the loads. -/
theorem test_meets_SensorSample_trip :
    (let s := { chilling (fun c => { c with compressor := .run, phase := .pending }) with
       power := { Power.blank with compressor := some ⟨150, 0⟩ } }
     LoadLaw s ∧ s.cooling.compressor = .run ∧ s.coolingOn = true) ∧
    ((Sensor.blank.sample settings.cooling.table 100).reading = some 600 ∧
      (Sensor.blank.sample settings.cooling.table 100).fault = false) := by
  refine ⟨⟨⟨?_, by decide, by decide, by decide, by decide, ?_, ?_⟩, by decide, by decide⟩, by decide +kernel⟩
  · exact ⟨fun h => absurd h (by decide), fun ⟨_, hv, _⟩ => nomatch hv⟩
  · intro cls; cases cls <;> decide
  · unfold AtRest; decide +kernel

/-- R132: 35 lies between setpoint and setpoint plus differential and leaves demand. -/
theorem test_reading_between_leaves_demand :
    [false, true].map (fun demand =>
      (after (.sensorSample .air 565) (chilling fun c => { c with demand := demand })).map fun t => t.cooling.demand) =
      [some false, some true] := by decide +kernel

/-- R136: two trips within the hour make the next the third; one that is older, or one alone, does not. -/
theorem test_trips :
    [[1000000, 4599999], [999000, 4599999], [4599999]].map (fun times =>
      (after (.sensorSample .cond 100) { chilling (fun c => { c with compressor := .run, tripTimes := times }) with
        now := 4599000 }).map fun t => (t.cooling.compressor, t.cooling.tripTimes, t.faults.active)) =
      [some (.latched, [4599999, 4600000], some .compressor), some (.lockout, [4599999, 4600000], none),
       some (.lockout, [4599999, 4600000], none)] := by decide +kernel

theorem test_meets_CompressorTimersAct :
    (let u := (chilling fun c => { c with demand := true }).advanceTo 180000 0
     u.cooling.compressor = .rest ∧ u.cooling.defrostRequest = false ∧ u.cooling.demand = true) ∧
    (let s := { (chilling fun c => { c with compressor := .run }) with
       power := { Power.blank with compressor := some ⟨150, 1⟩ } }
     s.cooling.inrushDone = false ∧ (s.advanceTo 2000 0).power.compressor = some ⟨150, 1⟩ ∧
       watts settings.run ≤ watts ⟨150, 1⟩ ∧ hasRequest (s.advanceTo 2000 0).power.requests .compressor = false ∧
       (s.advanceTo 60000 0).cooling.demand = false) ∧
    (let u := (chilling fun c => { c with compressor := .lockout }).advanceTo 600000 0
     180000 ≤ u.cooling.sinceStop ∧ u.cooling.demand = false) ∧
    (let s := chilling fun c => { c with compressor := .run, duty := some .on }
     s.coolingOn = true ∧ s.cooling.dutyRuns = true) ∧
    (chilling fun c => { c with duty := some .off }).cooling.dutyRuns = true := by decide +kernel

theorem test_meets_DefrostAndHoldTimersAct :
    (let s := chilling fun c => { c with compressor := .run, coil := { Sensor.blank with reading := some (-150) } }
     s.cooling.compressor ≠ .off ∧ s.cooling.runTimeTaken = false ∧ (s.advanceTo 28800000 0).cooling.defrostFree = true ∧
       s.cooling.icing = true ∧ s.cooling.iceTaken = false ∧ s.cooling.defrostFree = true) ∧
    (chilling fun c => { c with compressor := .defrost, phase := .heaterWait }).cooling.phase.melting = true ∧
    (let u := (chilling fun c => { c with compressor := .defrost, phase := .drip }).advanceTo 120000 0
     u.cooling.sinceStop < 180000) ∧
    (let s := chilling fun c => { c with air := { Sensor.blank with reading := some 81 } }
     s.holdRuns = true ∧ s.coolingOn = true) ∧
    (let s := { fullQueue firstEntry with spirals := { goods with zone := .chilled } :: List.replicate 59 Spiral.blank }
     (s.queue.filter fun e => e.state != .vending && (s.spiral e.position).zone = .chilled) =
       [testEntry, ownEntry, askedEntry]) ∧
    (let s := chilling fun c => { c with runAccumulator := 28800000 }
     s.cooling.compressor = .rest ∧ 3600000 * s.cfg.cooling.intervalHours ≤ s.cooling.runAccumulator) := by decide +kernel

theorem test_meets_AckAttentionMovesTheLatch :
    (let s := { openShop with faults := { openShop.faults with
       pendingNotice := some .chute, standing := [.exactChangeLit, .noSpiralAvailable] }, exactLit := true }
     s.serviceMode = true ∧ s.keepsConditions = true ∧ s.faults.standing = allConditions.filter s.holds) := by decide +kernel

theorem test_meets_TubeCommandsAreTakenOrRefused :
    openShop.serviceMode = true ∧ openShop.cfg.role = .payment ∧ (openShop.tube 1).fitted = true ∧
      (openShop.tube 5).fitted = false ∧ (openShop.tube 1).status = .usable ∧
      ({ tubeOnes with status := .payoutFault }).status = .payoutFault ∧
      (stoppedPayout id shop.coin.tubes).serviceMode = true ∧ (stoppedPayout id shop.coin.tubes).payout.state = .stopped ∧
      openShop.payout.state ≠ .stopped := by decide +kernel

theorem test_meets_SpiralAndAuditCommandsAct :
    openShop.serviceMode = true ∧ (openShop.spiral 10).fitted = true ∧ 69 - 10 < openShop.spirals.length ∧
      openShop.clearSpiralTaken 10 = false ∧ openShop.namesPosition 1 0 = true ∧ openShop.namesPosition 1 1 = false ∧
      (openShop.spiral 10).status = .inService ∧ openShop.cooling.coldHold = false ∧ openShop.chute.fault = false ∧
      openShop.queue.length < 4 ∧
      (let s := { openShop with spirals := { goods with status := .jammed } :: List.replicate 59 Spiral.blank }
       (s.spiral 10).status = .jammed ∧ s.vend = none) := by decide +kernel

/-- R193: the items 0, 1, 135 and 136. -/
theorem test_audit_items :
    [0, 1, 135, 136].map (fun item => (after (.showAudit item) openShop).map fun t => (t.service.item, t.panel.message)) =
      [some (none, some .refused), some (some 1, none), some (some 135, none), some (none, some .refused)] := by
  decide +kernel

theorem test_meets_CoolingAndBankCommandsAct :
    openShop.serviceMode = true ∧ openShop.cfg.coolingFitted = true ∧ openShop.cooling.coldHold = false ∧
      openShop.cooling.defrostRequest = false ∧ openShop.cooling.phase = .none ∧ openShop.cooling.compressor ≠ .latched ∧
      (let s := { openShop with cooling := { Cooling.blank with
         compressor := .latched, coldHold := true, air := { Sensor.blank with reading := some 80 } } }
       s.cooling.compressor = .latched ∧ s.cooling.sinceStop < 180000 ∧ s.holdReadingGood = true) ∧
      ({ openShop with cooling := { Cooling.blank with coldHold := true } }).holdReadingGood = false := by decide +kernel

theorem test_meets_FrameBytesReadBack :
    (commandOf 8 ⟨15, .heartbeat beat, false⟩).wellFormed = true ∧
      readFrame (frameBytes 8 ⟨15, .heartbeat beat, false⟩) = some (commandOf 8 ⟨15, .heartbeat beat, false⟩) ∧
      readBits (frameBits 1 ⟨0, .declare declared, false⟩) = some (commandOf 1 ⟨0, .declare declared, false⟩) := by
  decide +kernel

theorem test_meets_PayoutPlansAreSound :
    payableExactly shop.coin.tubes 0 = true ∧ payoutPlan shop.coin.tubes 0 = [] ∧
      payableExactly shop.coin.tubes 24 = true ∧
      (selling .committed 5 20).held + (selling .committed 5 20).gone +
        (selling .committed 5 20).takenValue (.coin 2 .tube) ≤ 4294967295 := by decide +kernel

theorem test_meets_MoneyLaw : MoneyLaw (selling .committed 5 20) ∧ MoneyLaw (paying .pulse) := by
  refine ⟨⟨by decide, fun _ => ⟨_, rfl, by decide⟩, by decide, by decide, by decide, by decide, by decide, by decide,
    by decide, by unfold AtRest; decide +kernel⟩, by decide, fun h => absurd h (by decide), by decide, by decide, by decide,
    by decide, by decide, by decide, by decide, by unfold AtRest; decide +kernel⟩

end Sys2Proof.Tests
end

/-! SUPPORT. The service commands of the planogram store, the test vend and the audit display (O57): what a lookup of a
spiral reads after a write, what the submission of a service command shows and keeps, and the effects of REFILL,
CLEAR-SPIRAL, TEST-VEND and SHOW-AUDIT. -/

namespace Sys2Proof.Proofs

open Sys2Proof.Machine Sys2Proof.Laws

section Spirals

/-! ### Reads of a spiral's record after a write -/

theorem spiral_congr {s t : Station} (h : t.spirals = s.spirals) (position : Nat) : t.spiral position = s.spiral position := by
  simp [Station.spiral, h]

theorem spiral_finish (o s : Station) (position : Nat) : (finish o s).spiral position = s.spiral position :=
  spiral_congr (finish_same o s .spirals) position

@[simp] theorem setSpiral_spirals_length (s : Station) (position : Nat) (f : Spiral → Spiral) :
    (s.setSpiral position f).spirals.length = s.spirals.length := by
  unfold Station.setSpiral
  split <;> simp

theorem spiral_setSpiral_same (s : Station) {position : Nat} (f : Spiral → Spiral) (hr : positionInRange position = true)
    (hl : position - 10 < s.spirals.length) : (s.setSpiral position f).spiral position = f (s.spiral position) := by
  simp [Station.spiral, Station.setSpiral, hr, List.getD_eq_getElem?_getD, updateAt_getElem_self, List.getElem?_eq_getElem hl]

theorem spiral_setSpiral_other (s : Station) {position other : Nat} (f : Spiral → Spiral) (h : other ≠ position) :
    (s.setSpiral position f).spiral other = s.spiral other := by
  cases ho : positionInRange other with
  | false => simp [Station.spiral, ho]
  | true =>
    cases hp : positionInRange position with
    | false => simp [Station.setSpiral, hp]
    | true =>
      have hne : other - 10 ≠ position - 10 := by
        simp only [positionInRange, Bool.and_eq_true, decide_eq_true_eq] at ho hp
        omega
      simp [Station.spiral, Station.setSpiral, ho, hp, List.getD_eq_getElem?_getD, updateAt_getElem_other _ _ _ _ hne]

/-! ### The naming rule over all positions (R4, R10) -/

@[simp] theorem stockUnderNaming_twice (stock : Stock) (naming : Nat) :
    stockUnderNaming (stockUnderNaming stock naming) naming = stockUnderNaming stock naming := by
  cases stock with
  | unknown => rfl
  | known n => by_cases h : n < naming <;> simp [stockUnderNaming, h]

theorem namingCount_of_kept {l : List Region} {s t : Station} (h : Kept l s t) (hq : Region.queue ∉ l)
    (hv : Region.vend ∉ l) (position : Nat) : t.namingCount position = s.namingCount position := by
  have queue_eq : t.queue = s.queue := h .queue hq
  have vend_eq : t.vend = s.vend := h .vend hv
  simp [Station.namingCount, Station.vendDrops, queue_eq, vend_eq]

@[simp] theorem applyNaming_spirals_length (s : Station) (position : Nat) :
    (s.applyNaming position).spirals.length = s.spirals.length := setSpiral_spirals_length s position _

theorem foldl_applyNaming_spirals_length (positions : List Nat) (s : Station) :
    (positions.foldl Station.applyNaming s).spirals.length = s.spirals.length := by
  induction positions generalizing s with
  | nil => rfl
  | cons p rest ih => exact (ih _).trans (applyNaming_spirals_length s p)

/-- A record with R4 applied. -/
def namedRecord (s : Station) (position : Nat) : Spiral :=
  { s.spiral position with stock := stockUnderNaming (s.spiral position).stock (s.namingCount position) }

theorem spiral_applyNaming_same (s : Station) {position : Nat} (hr : positionInRange position = true)
    (hl : position - 10 < s.spirals.length) : (s.applyNaming position).spiral position = namedRecord s position :=
  spiral_setSpiral_same s _ hr hl

theorem spiral_applyNaming_other (s : Station) {position other : Nat} (h : other ≠ position) :
    (s.applyNaming position).spiral other = s.spiral other := spiral_setSpiral_other s _ h

/-- R4 applied anywhere leaves what R4 makes of a record. -/
theorem namedRecord_applyNaming (s : Station) (p : Nat) {position : Nat} (hr : positionInRange position = true)
    (hl : position - 10 < s.spirals.length) : namedRecord (s.applyNaming p) position = namedRecord s position := by
  have naming_eq := namingCount_of_kept (applyNaming_kept s p) (by decide) (by decide) position
  by_cases h : position = p
  · subst h
    simp [namedRecord, naming_eq, spiral_applyNaming_same s hr hl]
  · simp [namedRecord, naming_eq, spiral_applyNaming_other s h]

/-- The rule takes hold at a listed position and stays: a later application finds the record named already. -/
theorem spiral_foldl_applyNaming (positions : List Nat) (s : Station) {position : Nat}
    (hr : positionInRange position = true) (hl : position - 10 < s.spirals.length)
    (hp : position ∈ positions ∨ s.spiral position = namedRecord s position) :
    (positions.foldl Station.applyNaming s).spiral position = namedRecord s position := by
  induction positions generalizing s with
  | nil => exact hp.resolve_left List.not_mem_nil
  | cons p rest ih =>
    rw [← namedRecord_applyNaming s p hr hl]
    refine ih (s.applyNaming p) (by simpa using hl) ?_
    rw [namedRecord_applyNaming s p hr hl]
    by_cases h : position = p
    · subst h
      exact Or.inr (spiral_applyNaming_same s hr hl)
    · rw [spiral_applyNaming_other s h]
      exact hp.imp_left fun hm => (List.mem_cons.mp hm).resolve_left h

theorem mem_allPositions {position : Nat} (h : positionInRange position = true) : position ∈ allPositions := by
  simp only [positionInRange, Bool.and_eq_true, decide_eq_true_eq] at h
  exact List.mem_map.mpr ⟨position - 10, List.mem_range.mpr (by omega), by omega⟩

/-! ### REFILL (R10) -/

theorem refill_spirals_length (s : Station) : s.refill.spirals.length = s.spirals.length :=
  (foldl_applyNaming_spirals_length allPositions { s with spirals := s.spirals.map refillRecord }).trans
    (List.length_map refillRecord)

/-- R10: a fitted spiral's record after REFILL, with R4 applied. -/
theorem refill_spiral (s : Station) {position : Nat} (hr : positionInRange position = true)
    (hl : position - 10 < s.spirals.length) (hf : (s.spiral position).fitted = true) :
    s.refill.spiral position = { s.spiral position with
      stock := stockUnderNaming (.known (s.spiral position).capacity) (s.namingCount position)
      status := if (s.spiral position).status = .soldOut then .inService else (s.spiral position).status } := by
  have filled : ({ s with spirals := s.spirals.map refillRecord } : Station).spiral position = refillRecord (s.spiral position) := by
    simp [Station.spiral, hr, List.getD_eq_getElem?_getD, List.getElem?_eq_getElem hl]
  unfold Station.refill
  rw [spiral_foldl_applyNaming _ _ hr (by simpa using hl) (Or.inl (mem_allPositions hr))]
  simp only [namedRecord, filled, refillRecord, hf, if_true]
  rfl

end Spirals

section Queue

/-! ### The entry of a TEST-VEND (R30) -/

theorem updateFirst_getLast {α : Type} (p : α → Bool) (f : α → α) {l : List α} {a : α} (h : l.getLast? = some a) :
    (updateFirst p f l).getLast? = some a ∨ (updateFirst p f l).getLast? = some (f a) := by
  induction l with
  | nil => cases h
  | cons b rest ih =>
    unfold updateFirst
    split
    · cases rest with
      | nil => cases h; exact Or.inr rfl
      | cons c cs => exact Or.inl h
    · cases rest with
      | nil => exact Or.inl h
      | cons c cs =>
        have hne : updateFirst p f (c :: cs) ≠ [] := by
          rw [← List.length_pos_iff, updateFirst_length]
          simp
        rw [List.getLast?_cons_of_ne_nil hne]
        exact ih (by simpa using h)

/-- R24: the pick keeps every entry in its place; one of them may become VENDING. -/
theorem pick_queue (s : Station) :
    s.pick.queue = s.queue ∨ s.pick.queue = updateFirst s.pickable (fun e => { e with state := .vending }) s.queue := by
  cases hv : s.vend with
  | some v => exact Or.inl (by rw [pick_of_vend hv])
  | none =>
    cases hp : s.queue.find? s.pickable with
    | none => exact Or.inl (by rw [pick_of_none hv hp])
    | some e => exact Or.inr (pick_of_some hv hp).1

theorem pick_queue_length (s : Station) : s.pick.queue.length = s.queue.length := by
  rcases pick_queue s with h | h <;> simp [h]

theorem pick_queue_getLast (s : Station) {e : Entry} (h : s.queue.getLast? = some e) :
    s.pick.queue.getLast? = some e ∨ s.pick.queue.getLast? = some { e with state := .vending } := by
  rcases pick_queue s with hq | hq <;> rw [hq]
  · exact Or.inl h
  · exact updateFirst_getLast _ _ h

/-- R30: the entry that a TEST-VEND adds. -/
def testEntry (position : Nat) : Entry :=
  { payer := none, tag := none, position := position, price := 0, state := .committed, test := true, commitTimer := 0,
    queuePos := 0 }

/-- The queue handed to the pick is the queue with the test entry behind it. -/
theorem addTestEntry_eq (s : Station) (position : Nat) :
    s.addTestEntry position = (({ s with queue := s.queue ++ [testEntry position] }).applyNaming position).pick := rfl

theorem addTestEntry_queue_length (s : Station) (position : Nat) :
    (s.addTestEntry position).queue.length = s.queue.length + 1 := by
  simp [addTestEntry_eq, pick_queue_length, Station.applyNaming]

theorem addTestEntry_queue_getLast (s : Station) (position : Nat) :
    ∃ e, (s.addTestEntry position).queue.getLast? = some e ∧ e.test = true ∧ e.position = position ∧ e.payer = none ∧
      (e.state = .committed ∨ e.state = .vending) := by
  have last : (({ s with queue := s.queue ++ [testEntry position] }).applyNaming position).queue.getLast? =
      some (testEntry position) := by
    simp [Station.applyNaming]
  rw [addTestEntry_eq]
  rcases pick_queue_getLast _ last with h | h
  · exact ⟨_, h, rfl, rfl, rfl, Or.inl rfl⟩
  · exact ⟨_, h, rfl, rfl, rfl, Or.inr rfl⟩

/-- R30: the checks of a TEST-VEND in their order. -/
theorem testRefusal_eq (s : Station) (position : Nat) :
    s.testRefusal position =
      if s.namesPosition (position / 10) (position % 10) = false then some .noSuch
      else if (s.spiral position).status = .jammed ∨ (s.spiral position).status = .motorFault then some .jammed
      else if (s.spiral position).zone = .chilled ∧ s.cooling.coldHold = true then some .tempHold
      else if s.chute.fault = true ∧ s.cfg.guarantee = true then some .chute
      else if 4 ≤ s.queue.length then some .queueFull
      else none := by
  simp [Station.testRefusal, Station.withheld, Station.chuteStops]

end Queue

section Submission

/-! ### The submission of a service command (R191, R192) -/

theorem submit_of_serviceMode {s : Station} (h : s.serviceMode = true) (c : ServiceCommand) :
    s.submit c = s.serviceKey.submitted.runService c := if_pos h

theorem submitted_kept (s : Station) : Kept [.service, .message] s s.serviceKey.submitted := by
  intro r hr
  cases r <;> first | exact absurd (by decide) hr | rfl

theorem gives_of_submit {i : Instr} {c : ServiceCommand} {s : State} {P : Station → Prop}
    (hs : s.station.serviceMode = true) (hi : exec i s = .next (event s fun o => o.submit c))
    (hp : P (finish s.station (s.station.serviceKey.submitted.runService c))) : Gives i s P :=
  gives_of_event _ hi (by rwa [submit_of_serviceMode hs])

theorem showService_message {s : Station} (h : s.faults.doorOpen = true) (m : Message) :
    (s.showService m).panel.message = some m := by
  simp [Station.showService, h]

/-- What the display shows at the end of a submission whose effect on the station is `u`, and what is kept. -/
theorem finish_showService {s u : Station} {l : List Region} (hs : s.serviceMode = true)
    (hu : Kept l s.serviceKey.submitted u) (hsvc : Region.service ∉ l) (hdoor : Region.door ∉ l)
    (hload : (Region.power ∉ l ∧ Region.line ∉ l) ∨
      (Region.vend ∈ l ∧ Region.cooling ∈ l ∧ Region.power ∈ l ∧ Region.lineQueue ∈ l)) (m : Message) :
    (finish s (u.showService m)).service = ServiceEntry.blank ∧ (finish s (u.showService m)).panel.message = some m ∧
      KeepsBut (.service :: .message :: l) s (finish s (u.showService m)) := by
  have door_open : u.faults.doorOpen = true := by
    have door_kept := congrArg Prod.fst (hu .door hdoor)
    exact door_kept.trans (Bool.and_eq_true_iff.mp hs).2
  have shown_kept : Kept (.service :: .message :: l) s (u.showService m) :=
    (((submitted_kept s).mono (by simp)).trans (hu.mono (by simp +contextual))).trans
      ((showService_kept u m).mono (by simp))
  refine ⟨?_, ?_, keepsBut_of_kept s shown_kept (by simpa using hload)⟩
  · have entry_blank : u.service = ServiceEntry.blank := hu .service hsvc
    exact (finish_same s _ .service).trans ((showService_kept u m .service (by decide)).trans entry_blank)
  · exact (finish_same s _ .message).1.trans (showService_message door_open m)

theorem finish_refused {s : Station} (hs : s.serviceMode = true) (m : Message) :
    RefusedWith m s (finish s (s.serviceKey.submitted.showService m)) :=
  finish_showService hs (Kept.refl [] _) (by decide) (by decide) (by decide) m

/-- A command refused by its owning rule. -/
theorem gives_refused_of_submit {i : Instr} {c : ServiceCommand} {s : State} (hs : s.station.serviceMode = true)
    (hi : exec i s = .next (event s fun o => o.submit c)) {m : Message}
    (hc : s.station.serviceKey.submitted.runService c = s.station.serviceKey.submitted.showService m) :
    Gives i s (RefusedWith m s.station) :=
  gives_of_submit hs hi (by rw [hc]; exact finish_refused hs m)

theorem spiral_finish_showService (o s : Station) (m : Message) (position : Nat) :
    (finish o (s.showService m)).spiral position = s.spiral position :=
  (spiral_finish _ _ _).trans (spiral_congr (showService_kept s m .spirals (by decide)) position)

theorem queue_finish_showService (o s : Station) (m : Message) : (finish o (s.showService m)).queue = s.queue :=
  (finish_same o _ .queue).trans (showService_kept s m .queue (by decide))

end Submission

section Commands

/-! ### The four commands -/

variable {s : State}

/-- R10. -/
theorem refill_gives (hs : s.station.serviceMode = true) :
    Gives .refill s fun t =>
      Done t ∧ KeepsBut [.service, .message, .spirals] s.station t ∧ t.spirals.length = s.station.spirals.length ∧
      ∀ position, positionInRange position = true → position - 10 < s.station.spirals.length →
        (s.station.spiral position).fitted = true →
        (t.spiral position).stock = stockUnderNaming (.known (s.station.spiral position).capacity)
          (s.station.namingCount position) ∧
        (t.spiral position).status = (if (s.station.spiral position).status = .soldOut then .inService
          else (s.station.spiral position).status) ∧
        (t.spiral position).consecutiveEmpty = (s.station.spiral position).consecutiveEmpty := by
  refine gives_of_submit (c := .refill) hs rfl ?_
  have taken : s.station.serviceKey.submitted.runService .refill = s.station.serviceKey.submitted.refill.showService .done :=
    rfl
  rw [taken]
  obtain ⟨entry, shown, kept⟩ := finish_showService hs (refill_kept s.station.serviceKey.submitted)
    (by decide) (by decide) (by decide) .done
  have spirals_eq := (finish_same s.station (s.station.serviceKey.submitted.refill.showService .done) .spirals).trans
    (showService_kept _ _ .spirals (by decide))
  refine ⟨⟨entry, shown⟩, kept, (congrArg List.length spirals_eq).trans (refill_spirals_length _), ?_⟩
  intro position hr hl hf
  have record := (spiral_congr spirals_eq position).trans (refill_spiral s.station.serviceKey.submitted hr hl hf)
  exact ⟨congrArg Spiral.stock record, congrArg Spiral.status record, (congrArg Spiral.consecutiveEmpty record :)⟩

theorem clearSpiralTaken_iff (s : Station) (position : Nat) :
    s.clearSpiralTaken position = true ↔
      (s.spiral position).fitted = true ∧ (∀ v, s.vend = some v → v.entry.position ≠ position) ∧
      ((s.spiral position).status = .jammed ∨ (s.spiral position).status = .motorFault) := by
  cases hv : s.vend <;> simp [Station.clearSpiralTaken, hv, and_assoc]

/-- R11: CLEAR-SPIRAL taken. -/
theorem clearSpiral_gives (hs : s.station.serviceMode = true) {position : Nat} (hr : positionInRange position = true)
    (hl : position - 10 < s.station.spirals.length) (ht : s.station.clearSpiralTaken position = true) :
    Gives (.clearSpiral position) s fun t =>
      t.spiral position = clearRecord (s.station.spiral position) ∧ Done t ∧
        KeepsBut [.service, .message, .spirals] s.station t := by
  refine gives_of_submit (c := .clearSpiral position) hs rfl ?_
  have taken : s.station.serviceKey.submitted.runService (.clearSpiral position) =
      (s.station.serviceKey.submitted.setSpiral position clearRecord).showService .done := if_pos ht
  rw [taken]
  obtain ⟨entry, shown, kept⟩ := finish_showService hs (setSpiral_kept s.station.serviceKey.submitted position clearRecord)
    (by decide) (by decide) (by decide) .done
  exact ⟨(spiral_finish_showService _ _ _ _).trans (spiral_setSpiral_same _ _ hr hl), ⟨entry, shown⟩, kept⟩

/-- R11: CLEAR-SPIRAL refused. -/
theorem clearSpiral_refused (hs : s.station.serviceMode = true) {position : Nat}
    (ht : s.station.clearSpiralTaken position = false) :
    Gives (.clearSpiral position) s (RefusedWith .refused s.station) :=
  gives_refused_of_submit (c := .clearSpiral position) hs rfl (if_neg (ne_true_of_eq_false ht))

theorem testVend_of_refusal {s : Station} {position : Nat} {r : Reason} (h : s.testRefusal position = some r) :
    s.testVend position = s.showService (reasonMessage r) := by
  unfold Station.testVend
  rw [h]

theorem testVend_of_no_refusal {s : Station} {position : Nat} (h : s.testRefusal position = none) :
    s.testVend position = (s.addTestEntry position).showService .done := by
  unfold Station.testVend
  rw [h]
  rfl

/-- R30: a TEST-VEND that a check refuses shows the reason. -/
theorem finish_testVend_refused {s : Station} (hs : s.serviceMode = true) {position : Nat} {r : Reason}
    (h : s.testRefusal position = some r) :
    RefusedWith (reasonMessage r) s (finish s (s.serviceKey.submitted.testVend position)) := by
  have same : s.serviceKey.submitted.testRefusal position = some r := h
  rw [testVend_of_refusal same]
  exact finish_refused hs _

/-- R30: what a TEST-VEND taken at `s` leaves in `t`: its entry is the newest, picked at once or waiting. -/
def TestVendTaken (position : Nat) (s t : Station) : Prop :=
  Done t ∧ t.queue.length = s.queue.length + 1 ∧
    (∃ e, t.queue.getLast? = some e ∧ e.test = true ∧ e.position = position ∧ e.payer = none ∧
      (e.state = .committed ∨ e.state = .vending)) ∧
    KeepsBut [.service, .message, .queue, .spirals, .vend, .power, .lineQueue, .cooling] s t

theorem finish_testVend_taken {s : Station} (hs : s.serviceMode = true) {position : Nat}
    (h : s.testRefusal position = none) :
    TestVendTaken position s (finish s (s.serviceKey.submitted.testVend position)) := by
  have same : s.serviceKey.submitted.testRefusal position = none := h
  rw [testVend_of_no_refusal same]
  have regions : Kept [.queue, .spirals, .vend, .power, .lineQueue, .cooling] s.serviceKey.submitted
      (s.serviceKey.submitted.addTestEntry position) := (addTestEntry_kept _ position).mono (by decide)
  obtain ⟨entry, shown, kept⟩ := finish_showService hs regions (by decide) (by decide) (by decide) .done
  obtain ⟨e, last, props⟩ := addTestEntry_queue_getLast s.serviceKey.submitted position
  have queue_eq := queue_finish_showService s (s.serviceKey.submitted.addTestEntry position) .done
  unfold TestVendTaken
  rw [queue_eq, addTestEntry_queue_length]
  exact ⟨⟨entry, shown⟩, rfl, ⟨e, last, props⟩, kept⟩

/-- R30: TEST-VEND, by the first of its checks that fails. -/
theorem testVend_gives (hs : s.station.serviceMode = true) (position : Nat) :
    Gives (.testVend position) s fun t =>
      if s.station.namesPosition (position / 10) (position % 10) = false then RefusedWith .notAvail s.station t
      else if (s.station.spiral position).status = .jammed ∨ (s.station.spiral position).status = .motorFault then
        RefusedWith .jammed s.station t
      else if (s.station.spiral position).zone = .chilled ∧ s.station.cooling.coldHold = true then
        RefusedWith .hold s.station t
      else if s.station.chute.fault = true ∧ s.station.cfg.guarantee = true then RefusedWith .notAvail s.station t
      else if 4 ≤ s.station.queue.length then RefusedWith .notAvail s.station t
      else TestVendTaken position s.station t := by
  refine gives_of_submit (c := .testVend position) hs rfl ?_
  have taken : s.station.serviceKey.submitted.runService (.testVend position) =
      s.station.serviceKey.submitted.testVend position := rfl
  rw [taken]
  have refusal := testRefusal_eq s.station position
  split_ifs at refusal ⊢
  · exact finish_testVend_refused hs refusal
  · exact finish_testVend_refused hs refusal
  · exact finish_testVend_refused hs refusal
  · exact finish_testVend_refused hs refusal
  · exact finish_testVend_refused hs refusal
  · exact finish_testVend_taken hs refusal

theorem itemOk_iff (item : Nat) : itemOk item = true ↔ 1 ≤ item ∧ item ≤ 135 := by
  simp [itemOk]

/-- R193: SHOW-AUDIT taken shows its item and no result. -/
theorem showAudit_gives (hs : s.station.serviceMode = true) {item : Nat} (hi : itemOk item = true) :
    Gives (.showAudit item) s fun t =>
      t.service = { ServiceEntry.blank with item := some item } ∧ t.panel.message = none ∧
      KeepsBut [.service, .message] s.station t := by
  refine gives_of_submit (c := .showAudit item) hs rfl ?_
  have taken : s.station.serviceKey.submitted.runService (.showAudit item) =
      { s.station.serviceKey.submitted with service := { ServiceEntry.blank with item := some item } } := if_pos hi
  rw [taken]
  have entry := finish_same s.station
    { s.station.serviceKey.submitted with service := { ServiceEntry.blank with item := some item } } .service
  have message := finish_same s.station
    { s.station.serviceKey.submitted with service := { ServiceEntry.blank with item := some item } } .message
  refine ⟨entry, message.1, keepsBut_of_kept s.station ?_ (by decide)⟩
  intro r hr
  cases r <;> first | exact absurd (by decide) hr | rfl

theorem showAudit_refused (hs : s.station.serviceMode = true) {item : Nat} (hi : itemOk item = false) :
    Gives (.showAudit item) s (RefusedWith .refused s.station) :=
  gives_refused_of_submit (c := .showAudit item) hs rfl (if_neg (ne_true_of_eq_false hi))

end Commands

/-- Settles O57, each command by its own lemma. -/
theorem spiralAndAuditCommandsAct : Obligations.SpiralAndAuditCommandsAct := by
  unfold Obligations.SpiralAndAuditCommandsAct
  intro s hs
  refine ⟨refill_gives hs, ?clearTaken, ?clearRefused, ?testVend, ?auditTaken, ?auditRefused⟩
  case clearTaken =>
    intro position hr hl fitted notVending faulted
    exact clearSpiral_gives hs hr hl ((clearSpiralTaken_iff _ _).mpr ⟨fitted, notVending, faulted⟩)
  case clearRefused => exact fun _ ht => clearSpiral_refused hs ht
  case testVend =>
    rintro position _ rfl
    exact testVend_gives hs position
  case auditTaken => exact fun item low high => showAudit_gives hs ((itemOk_iff item).mpr ⟨low, high⟩)
  case auditRefused =>
    intro item outside
    refine showAudit_refused hs (Bool.eq_false_iff.mpr fun ok => ?_)
    have bounds := (itemOk_iff item).mp ok
    omega

end Sys2Proof.Proofs

/-! SUPPORT. The frames of the vend queue's traffic (O24 to O27): what hearing a peer does to the station, what the end of an
event adds to the transmit queue while the station is not isolated, and the effects of COMMIT_TIMER_EXPIRY, OFFER, COMMIT and
WITHDRAW. -/

namespace Sys2Proof.Proofs

open Sys2Proof.Machine Sys2Proof.Laws

section Regions

/-! ### Regions of a station -/

theorem kept_symm {r : Region} {a b : Station} (h : Region.kept r a b) : Region.kept r b a := by
  cases r <;> exact Eq.symm h

/-- Line interface and transmit queue make up the line. -/
theorem line_of_kept {a b : Station} (ho : Region.kept .line a b) (hq : Region.kept .lineQueue a b) : b.line = a.line := by
  have owned_eq : b.line.owned = a.line.owned := ho
  have queue_eq : b.line.queue = a.line.queue := congrArg Prod.fst hq
  calc b.line = { b.line.owned with queue := b.line.queue } := rfl
    _ = { a.line.owned with queue := a.line.queue } := by rw [owned_eq, queue_eq]
    _ = a.line := rfl

theorem cfg_of_kept {a b : Station} (h : Region.kept .setup a b) : b.cfg = a.cfg :=
  congrArg (fun p => p.2.2.2.2) h

theorem doorOpen_of_kept {a b : Station} (h : Region.kept .door a b) : b.faults.doorOpen = a.faults.doorOpen :=
  congrArg Prod.fst h

/-- The regions that no waiting load touches are the same after the event where the body keeps them. -/
theorem same_of_kept (o : Station) {l rs : List Region} {a b : Station} (h : Kept l a b)
    (hd : ∀ r ∈ rs, r ∉ l ∧ r ∉ [Region.vend, .cooling, .power, .lineQueue]) : ∀ r ∈ rs, r.same a (finish o b) := by
  intro r hr
  obtain ⟨unlisted, unloaded⟩ := hd r hr
  exact finish_of_kept o h r unlisted fun hx => absurd (by simpa using hx) unloaded

end Regions

section Claims

/-! ### The end of an event while the station is not isolated (R157) -/

/-- `t` is `s` but for the power budget unit and CLAIMs of its waiting loads behind the frames of the transmit queue. -/
def Claims (s t : Station) : Prop :=
  ∃ frames n p, t = { s with
    line := { s.line with queue := s.line.queue ++ frames }, audit := { s.audit with txOverflow := n }, power := p } ∧
    ∀ f ∈ frames, f.opensWindow = true

theorem Claims.power (s : Station) (p : Power) : Claims s { s with power := p } :=
  ⟨[], s.audit.txOverflow, p, by simp, by simp⟩

theorem Claims.trans {s t u : Station} (h : Claims s t) (k : Claims t u) : Claims s u := by
  obtain ⟨fs, n, p, rfl, hf⟩ := h
  obtain ⟨gs, n', p', rfl, hg⟩ := k
  exact ⟨fs ++ gs, n', p', by simp, by simpa [or_imp, forall_and] using ⟨hf, hg⟩⟩

theorem Claims.line_state {s t : Station} (h : Claims s t) : t.line.state = s.line.state := by
  obtain ⟨_, _, _, rfl, _⟩ := h
  rfl

/-- R173: a CLAIM replaces no frame. -/
theorem queueFrame_claim (queue : List Frame) (cls : LoadClass) (rank : Nat) (power : Fig) :
    queueFrame queue ⟨0, .claim cls rank power, true⟩ =
      if queue.length < 8 then (queue ++ [⟨0, .claim cls rank power, true⟩], true) else (queue, false) := by
  simp [queueFrame, replacesBehindHead, FrameBody.isHeartbeat]

/-- R157: the CLAIM of an attempt stands behind the frames of the queue, where it is taken. -/
theorem claim_claims (s : Station) (r : Request) : Claims s (s.claim r) := by
  have handed : ∀ t b, s.handFrame ⟨0, .claim r.cls r.rank r.power, true⟩ = (t, b) → Claims s t := by
    intro t b h
    unfold Station.handFrame at h
    rw [queueFrame_claim] at h
    by_cases allowed : sendAllowed s.line.state (.claim r.cls r.rank r.power) = true
    · by_cases room : s.line.queue.length < 8
      · simp only [allowed, room, if_true] at h
        cases h
        exact ⟨_, s.audit.txOverflow, s.power, rfl, by simp⟩
      · simp only [allowed, room, if_true, if_false] at h
        cases h
        exact ⟨[], _, s.power, by simp; rfl, by simp⟩
    · simp only [allowed] at h
      cases h
      exact Claims.power s s.power
  unfold Station.claim
  split
  · exact (handed _ _ ‹_›).trans (Claims.power _ _)
  · exact (handed _ _ ‹_›).trans (Claims.power _ _)

theorem checkActive_claims (s : Station) (r : Request) : Claims s (s.checkActive r) := by
  unfold Station.checkActive
  dsimp only
  split
  · exact (Claims.power s _).trans (claim_claims _ r)
  · exact (Claims.power s _).trans (Claims.power _ _)

theorem checkOne_claims {s t : Station} (hi : s.line.state.isIsolated = false) (h : s.checkOne = some t) : Claims s t := by
  unfold Station.checkOne at h
  split at h
  · cases h
  · split_ifs at h
    · cases h
      exact checkActive_claims s _
    · simp_all

theorem admitFor_claims (n : Nat) {s : Station} (hi : s.line.state.isIsolated = false) : Claims s (admitFor n s) := by
  induction n generalizing s with
  | zero => exact Claims.power s s.power
  | succ n ih =>
    unfold admitFor
    split
    · exact Claims.power s s.power
    · rename_i t checked
      have step := checkOne_claims hi checked
      exact step.trans (ih (by rw [step.line_state]; exact hi))

/-- What the end of an event derives after the admission of loads leaves the line and the vend alone. -/
theorem finish_line_vend (o s : Station) :
    (finish o s).line = (s.evaluateIfChanged o).admitLoads.line ∧
      (finish o s).vend = (s.evaluateIfChanged o).admitLoads.vend := by
  have ice (a : Station) : a.resetIce.line = a.line ∧ a.resetIce.vend = a.vend := by
    obtain ⟨_, h, _⟩ := resetIce_shape a
    rw [h]; exact ⟨rfl, rfl⟩
  have masks (a : Station) : a.sendChangedMasks.line = a.line ∧ a.sendChangedMasks.vend = a.vend := by
    obtain ⟨_, _, _, _, _, h⟩ := sendChangedMasks_masks a
    rw [h]; exact ⟨rfl, rfl⟩
  have conditions (a : Station) : a.updateConditions.line = a.line ∧ a.updateConditions.vend = a.vend := by
    obtain ⟨_, _, h⟩ := updateConditions_shape a
    rw [h]; exact ⟨rfl, rfl⟩
  have lamp (a : Station) : a.driveLamp.line = a.line ∧ a.driveLamp.vend = a.vend := by
    obtain ⟨_, _, _, h⟩ := driveLamp_shape a
    rw [h]; exact ⟨rfl, rfl⟩
  have alternation (a : Station) : a.driveAlternation.line = a.line ∧ a.driveAlternation.vend = a.vend := by
    obtain ⟨_, _, _, h⟩ := driveAlternation_shape a
    rw [h]; exact ⟨rfl, rfl⟩
  have pins (a : Station) : a.drivePins.line = a.line ∧ a.drivePins.vend = a.vend := ⟨rfl, rfl⟩
  simp only [finish, Station.driveOutputs, ice, masks, conditions, lamp, alternation, pins, and_self]

/-- While the station is not isolated no load is granted at the end of an event: CLAIMs are all that it adds. -/
theorem finish_claims (o : Station) {s : Station} (hi : s.line.state.isIsolated = false) :
    (∃ frames, (finish o s).line.queue = s.line.queue ++ frames ∧ ∀ f ∈ frames, f.opensWindow = true) ∧
      (finish o s).vend = s.vend := by
  obtain ⟨line_eq, vend_eq⟩ := finish_line_vend o s
  obtain ⟨lit, evaluated⟩ := evaluateIfChanged_shape s o
  rw [evaluated] at line_eq vend_eq
  obtain ⟨frames, n, p, admitted, claims⟩ := admitFor_claims 12 (s := { s with exactLit := lit }) hi
  rw [Station.admitLoads, admitted] at line_eq vend_eq
  exact ⟨⟨frames, by rw [line_eq], claims⟩, vend_eq⟩

end Claims

section Hearing

/-! ### Hearing a peer (R172, R178) -/

/-- Transmit queue and overflow counter after a frame is handed follow from the line and the counter before. -/
theorem hand_congr {s t : Station} (hl : t.line = s.line) (ho : t.audit.txOverflow = s.audit.txOverflow) (dst : Nat)
    (body : FrameBody) :
    (t.hand dst body).line = (s.hand dst body).line ∧
      (t.hand dst body).audit.txOverflow = (s.hand dst body).audit.txOverflow := by
  unfold Station.hand Station.handFrame
  rw [hl]
  split
  · cases queueFrame s.line.queue ⟨dst, body, false⟩ with
    | mk q taken => cases taken <;> simp [ho]
  · exact ⟨hl, ho⟩

theorem sendMasks_line_audit (s : Station) : s.sendMasks.line = s.line ∧ s.sendMasks.audit = s.audit := by
  obtain ⟨_, _, _, _, _, h⟩ := sendMasks_masks s
  rw [h]
  exact ⟨rfl, rfl⟩

/-- R178: the line after the entry to LISTEN follows from the line, the settings and the overflow counter before. -/
theorem enterListen_congr {s t : Station} (hl : t.line = s.line) (hc : t.cfg = s.cfg)
    (ho : t.audit.txOverflow = s.audit.txOverflow) :
    t.enterListen.line = s.enterListen.line ∧ t.enterListen.audit.txOverflow = s.enterListen.audit.txOverflow := by
  unfold Station.enterListen Station.queueDeclare Station.declareFields
  dsimp only
  rw [(sendMasks_line_audit _).1, (sendMasks_line_audit _).1, (sendMasks_line_audit _).2, (sendMasks_line_audit _).2, hl, hc]
  refine hand_congr ?_ ?_ _ _
  · rfl
  · exact ho

theorem enterListen_coinLink {s t : Station} (h : Region.kept .coinLink s t) :
    Region.kept .coinLink s.enterListen t.enterListen := by
  have entered : ∀ a : Station, Region.kept .coinLink { a with coin := { a.coin with statusTimer := 0 } } a.enterListen :=
    fun a => ((queueDeclare_kept _).mono (m := [.lineQueue]) (by decide)).trans
      ((sendMasks_kept _).mono (by decide)) .coinLink (by decide)
  have reset : Region.kept .coinLink { s with coin := { s.coin with statusTimer := 0 } }
      { t with coin := { t.coin with statusTimer := 0 } } := by
    have fault_eq : (t.coin.faultStands, t.coin.faultCode) = (s.coin.faultStands, s.coin.faultCode) := congrArg Prod.snd h
    exact Prod.ext rfl fault_eq
  exact Region.kept_trans (kept_symm (entered s)) (Region.kept_trans reset (entered t))

/-- R172: the peer view, the power budget unit and the latch have no part in what hearing a peer does to the line. -/
theorem heardPeer_of_kept {s t : Station} (h : Kept [.peers, .power, .latch] s t) :
    Kept [.peers, .power, .latch] s.heardPeer t.heardPeer := by
  have line_eq : t.line = s.line := line_of_kept (h _ (by decide)) (h _ (by decide))
  have overflow_eq : t.audit.txOverflow = s.audit.txOverflow := congrArg Prod.snd (h .lineQueue (by decide))
  have cfg_eq := cfg_of_kept (h .setup (by decide))
  have link := h .coinLink (by decide)
  obtain ⟨listen_line, listen_overflow⟩ := enterListen_congr line_eq cfg_eq overflow_eq
  have heard : t.heardPeer.line = s.heardPeer.line ∧ t.heardPeer.audit.txOverflow = s.heardPeer.audit.txOverflow ∧
      Region.kept .coinLink s.heardPeer t.heardPeer := by
    unfold Station.heardPeer
    dsimp only
    rw [line_eq]
    split
    · exact ⟨by rw [listen_line], listen_overflow, enterListen_coinLink link⟩
    · exact ⟨by rw [listen_line], listen_overflow, enterListen_coinLink link⟩
    · exact ⟨by rw [line_eq], overflow_eq, link⟩
  obtain ⟨heard_line, heard_overflow, heard_link⟩ := heard
  intro r hr
  by_cases hin : r ∈ [Region.line, .lineQueue, .coinLink]
  · fin_cases hin
    · exact congrArg Line.owned heard_line
    · exact Prod.ext (congrArg Line.queue heard_line) heard_overflow
    · exact heard_link
  · exact Region.kept_trans (kept_symm (heardPeer_kept s r hin)) (Region.kept_trans (h r hr) (heardPeer_kept t r hin))

/-- R172 steps 1 and 2: the station that has heard a frame which changes nothing of its sender's entry but its age. -/
def heardFrom (s : Station) (src : Nat) : Station := ((s.refreshPeer src id).noticeLetter).heardPeer

theorem refreshPeer_keeps_queue (s : Station) (address : Nat) (apply : Peer → Peer) :
    Kept [.peers, .power] s (s.refreshPeer address apply) := by
  have viewed : ∀ peers, Kept [.peers, .power] s { s with peers := peers } := fun peers =>
    (peers_kept s peers).mono (by decide)
  unfold Station.refreshPeer
  split
  · unfold Station.changePeer Station.bankRoomMade
    dsimp only
    split
    · split
      · exact (viewed _).trans ((power_kept _ _).mono (by decide))
      · exact viewed _
    · exact viewed _
  · exact viewed _

/-- What hearing a frame does beside what hearing its sender does: the peer view, the waiting loads, the latch. -/
theorem heardFrom_kept (s : Station) (src : Nat) : Kept [.peers, .power, .latch] s.heardPeer (heardFrom s src) :=
  heardPeer_of_kept (((refreshPeer_keeps_queue s src id).mono (by decide)).trans ((noticeLetter_kept _).mono (by decide)))

theorem active_of_line {s t : Station} (h : t.line = s.line) : t.active = s.active := by
  simp [Station.active, h]

theorem heardFrom_line (s : Station) (src : Nat) : (heardFrom s src).line = s.heardPeer.line :=
  line_of_kept (heardFrom_kept s src _ (by decide)) (heardFrom_kept s src _ (by decide))

/-- A station that listens or is active once it has heard a peer has received the frame. -/
theorem running_of_heard {s : Station} (h : s.heardPeer.line.state = .listen ∨ s.heardPeer.active = true) :
    s.running = true := by
  cases hs : s.line.state with
  | offline => simp [Station.heardPeer, Station.active, hs] at h
  | halted => simp [Station.heardPeer, Station.active, hs] at h
  | listen => simp [Station.running, LineState.running, hs]
  | active => simp [Station.running, LineState.running, hs]
  | isolated cause => simp [Station.running, LineState.running, hs]

/-- R172 step 3: a valid frame for this station is handed on, in LISTEN and in ACTIVE. -/
theorem takeFrame_handsOn {s : Station} {src : Nat} (hear : s.heardPeer.line.state = .listen ∨ s.heardPeer.active = true)
    (hsrc : src ≠ s.cfg.address) (handoff : Station → Station) :
    s.takeFrame true src s.cfg.address id id handoff = handoff (heardFrom s src) := by
  have line_eq := heardFrom_line s src
  have cfg_eq : (heardFrom s src).cfg = s.cfg :=
    (cfg_of_kept (heardFrom_kept s src _ (by decide))).trans (cfg_of_kept (heardPeer_kept s _ (by decide)))
  have handed : (heardFrom s src).handsOn true = true := by
    simpa [Station.handsOn, Station.active, line_eq] using hear
  unfold Station.takeFrame
  simp only [running_of_heard hear, hsrc, Bool.not_true, Bool.false_eq_true, if_false, id]
  change (if (heardFrom s src).handsOn (decide (s.cfg.address = (heardFrom s src).cfg.address)) then _ else _) = _
  rw [cfg_eq, decide_eq_true rfl, if_pos handed]
  rfl

/-- What a frame command gives that its block takes. -/
theorem gives_of_handoff {c : Instr} {s : State} {src : Nat} {ok : Bool} {P : Station → Prop} (handoff : Station → Station)
    (hear : s.station.heardPeer.line.state = .listen ∨ s.station.heardPeer.active = true) (hok : ok = true)
    (hsrc : src ≠ s.station.heardPeer.cfg.address)
    (hc : exec c s = .next (event s fun o => o.takeFrame ok src s.station.heardPeer.cfg.address id id handoff))
    (hp : P (finish s.station (handoff (heardFrom s.station src)))) : Gives c s P := by
  have cfg_eq := cfg_of_kept (heardPeer_kept s.station .setup (by decide))
  refine gives_of_event _ hc ?_
  rw [cfg_eq] at hsrc ⊢
  rwa [hok, takeFrame_handsOn hear hsrc]

end Hearing

section Answers

/-! ### Answers on the line (R17, R173) -/

variable {u w : Station}

theorem not_isolated_of_hears (hear : u.line.state = .listen ∨ u.active = true) : u.line.state.isIsolated = false := by
  rcases hear with h | h
  · simp [h, LineState.isIsolated]
  · have active_state : u.line.state = .active := by simpa [Station.active] using h
    simp [active_state, LineState.isIsolated]

/-- LISTEN and ACTIVE let every answer be queued but an ACCEPT, which only ACTIVE does. -/
theorem sendAllowed_of_hears {body : FrameBody} (hear : u.line.state = .listen ∨ u.active = true)
    (hb : u.active = true ∨ body.onlyActive = false) : sendAllowed u.line.state body = true := by
  unfold Station.active at hear hb
  cases h : u.line.state <;> simp_all [sendAllowed]

/-- An answer is queued in the event when the queue had room. -/
theorem queued_of_hand (o : Station) {dst : Nat} {body : FrameBody} (hl : w.line = u.line)
    (hear : u.line.state = .listen ∨ u.active = true) (hb : u.active = true ∨ body.onlyActive = false)
    (hh : body.isHeartbeat = false) : Queued u (finish o (w.hand dst body)) dst body := by
  intro room
  have allowed : sendAllowed w.line.state body = true := by rw [hl]; exact sendAllowed_of_hears hear hb
  have state_eq : (w.hand dst body).line.state = u.line.state := by
    rw [state_of_kept (hand_kept w dst body) (by decide), hl]
  obtain ⟨⟨frames, queue_eq, -⟩, -⟩ := finish_claims o (s := w.hand dst body)
    (by rw [state_eq]; exact not_isolated_of_hears hear)
  rw [queue_eq, hand_queue allowed hh (by rw [hl]; exact room)]
  simp

end Answers

section Offer

/-! ### OFFER (R17 to R20) -/

theorem queueOffer_of_repeated {s : Station} {payer : Payer} {tag : Nat} {e : Entry}
    (h : s.queue.find? (entryIs payer tag) = some e) (tray column : Nat) :
    s.queueOffer payer tag tray column = (s, if s.active then .accept e.price e.queuePos else .refuse .notReady) := by
  simp [Station.queueOffer, h]

theorem queueOffer_of_refusal {s : Station} {payer : Payer} {tag tray column : Nat} {r : Reason}
    (h : s.queue.find? (entryIs payer tag) = none) (hr : s.offerRefusal tray column = some r) :
    s.queueOffer payer tag tray column = (s, .refuse r) := by
  simp [Station.queueOffer, h, hr]

theorem queueOffer_of_admission {s : Station} {payer : Payer} {tag tray column : Nat}
    (h : s.queue.find? (entryIs payer tag) = none) (hr : s.offerRefusal tray column = none) :
    s.queueOffer payer tag tray column =
      (({ s with queue := s.queue ++ [s.newEntry payer tag tray column] }).applyNaming (positionNumber tray column),
        .accept (s.spiral (positionNumber tray column)).price (s.queue.length + 1)) := by
  simp [Station.queueOffer, h, hr, Station.newEntry]

theorem takeOffer_kept (src tag tray column : Nat) (s : Station) :
    Kept [.queue, .spirals, .lineQueue] s (Station.takeOffer src tag tray column s) := by
  have queued := (queueOffer_kept s (.peer src) tag tray column).mono (m := [.queue, .spirals, .lineQueue]) (by decide)
  unfold Station.takeOffer
  split <;> rename_i answered <;> rw [answered] at queued <;> exact queued.trans ((hand_kept _ _ _).mono (by decide))

/-- Outside ACTIVE the first check of R18 fails. -/
theorem offerRefusal_of_not_active {s : Station} (h : s.active = false) (tray column : Nat) :
    s.offerRefusal tray column = some .notReady := by
  simp [Station.offerRefusal, h]

/-- R18: an offer that passes the nine checks. -/
theorem offerRefusal_eq_none {s : Station} {tray column : Nat} (active : s.active = true)
    (door : s.faults.doorOpen = false) (chute : s.chuteStops = false) (named : s.namesPosition tray column = true)
    (status : (s.spiral (10 * tray + column)).status = .inService) (cold : s.withheld (10 * tray + column) = false)
    (stock : ∀ n, (s.spiral (10 * tray + column)).stock = .known n → s.namingCount (10 * tray + column) < n)
    (room : s.queue.length < 4) : s.offerRefusal tray column = none := by
  have in_stock : Station.offerRefusal.stockExhausted (s.spiral (10 * tray + column)).stock
      (s.namingCount (10 * tray + column)) = false := by
    cases known : (s.spiral (10 * tray + column)).stock with
    | unknown => rfl
    | known n => simpa [Station.offerRefusal.stockExhausted] using stock n known
  simp [Station.offerRefusal, positionNumber, active, door, chute, named, status, cold, in_stock, room]

/-- The checks of R18 read nothing of the peer view, the waiting loads or the latch. -/
theorem offerRefusal_of_kept {s t : Station} (h : Kept [.peers, .power, .latch] s t) (tray column : Nat) :
    t.offerRefusal tray column = s.offerRefusal tray column := by
  have active_eq : t.active = s.active := active_of_line (line_of_kept (h _ (by decide)) (h _ (by decide)))
  have door_eq := doorOpen_of_kept (h .door (by decide))
  have chute_eq : t.chute = s.chute := h .chute (by decide)
  have cfg_eq := cfg_of_kept (h .setup (by decide))
  have cooling_eq : t.cooling = s.cooling := h .cooling (by decide)
  have queue_eq : t.queue = s.queue := h .queue (by decide)
  have spiral_eq := spiral_congr (h .spirals (by decide))
  have naming_eq := namingCount_of_kept h (by decide) (by decide)
  simp [Station.offerRefusal, Station.chuteStops, Station.namesPosition, Station.withheld, active_eq, door_eq, chute_eq,
    cfg_eq, cooling_eq, queue_eq, spiral_eq, naming_eq]

theorem takeOffer_of_repeated {s : Station} {src tag : Nat} {e : Entry}
    (h : s.queue.find? (entryIs (.peer src) tag) = some e) (tray column : Nat) :
    Station.takeOffer src tag tray column s =
      s.hand src (if s.active then .accept tag e.price e.queuePos else .refuse tag .notReady) := by
  unfold Station.takeOffer
  rw [queueOffer_of_repeated h]
  cases s.active <;> rfl

theorem takeOffer_of_refusal {s : Station} {src tag tray column : Nat} {r : Reason}
    (h : s.queue.find? (entryIs (.peer src) tag) = none) (hr : s.offerRefusal tray column = some r) :
    Station.takeOffer src tag tray column s = s.hand src (.refuse tag r) := by
  unfold Station.takeOffer
  rw [queueOffer_of_refusal h hr]

/-- R20: the station with the entry of an admitted offer. -/
def admitted (s : Station) (payer : Payer) (tag tray column : Nat) : Station :=
  ({ s with queue := s.queue ++ [s.newEntry payer tag tray column] }).applyNaming (positionNumber tray column)

theorem takeOffer_of_admission {s : Station} {src tag tray column : Nat}
    (h : s.queue.find? (entryIs (.peer src) tag) = none) (hr : s.offerRefusal tray column = none) :
    Station.takeOffer src tag tray column s =
      (admitted s (.peer src) tag tray column).hand src
        (.accept tag (s.spiral (positionNumber tray column)).price (s.queue.length + 1)) := by
  unfold Station.takeOffer
  rw [queueOffer_of_admission h hr]
  rfl

theorem admitted_queue (s : Station) (payer : Payer) (tag tray column : Nat) :
    (admitted s payer tag tray column).queue = s.queue ++ [s.newEntry payer tag tray column] :=
  applyNaming_kept _ _ .queue (by decide)

theorem admitted_line (s : Station) (payer : Payer) (tag tray column : Nat) :
    (admitted s payer tag tray column).line = s.line :=
  line_of_kept (applyNaming_kept _ _ .line (by decide)) (applyNaming_kept _ _ .lineQueue (by decide))

/-- Outside ACTIVE an offer is refused NOT-READY, new or repeated. -/
theorem takeOffer_of_not_active {s : Station} (h : s.active = false) (src tag tray column : Nat) :
    Station.takeOffer src tag tray column s = s.hand src (.refuse tag .notReady) := by
  cases found : s.queue.find? (entryIs (.peer src) tag) with
  | some e => rw [takeOffer_of_repeated found, h]; rfl
  | none => exact takeOffer_of_refusal found (offerRefusal_of_not_active h tray column)

theorem finish_hand_queue (o s : Station) (dst : Nat) (body : FrameBody) : (finish o (s.hand dst body)).queue = s.queue :=
  (finish_same o _ .queue).trans (hand_kept s dst body .queue (by decide))

theorem finish_hand_spirals (o s : Station) (dst : Nat) (body : FrameBody) :
    (finish o (s.hand dst body)).spirals = s.spirals :=
  (finish_same o _ .spirals).trans (hand_kept s dst body .spirals (by decide))

end Offer

/-- Settles O25: hearing the peer leaves the checks of R18 as they stand in `u`; the clauses are the answers of
`takeOffer`. -/
theorem offerIsAdmittedOrRefused : Obligations.OfferIsAdmittedOrRefused := by
  unfold Obligations.OfferIsAdmittedOrRefused
  rintro s u src tag tray column rfl hear hok hsrc
  refine gives_of_handoff (Station.takeOffer src tag tray column) hear hok hsrc rfl ?_
  have kept := heardFrom_kept s.station src
  have refusal_eq := offerRefusal_of_kept kept tray column
  have line_eq := heardFrom_line s.station src
  generalize heardFrom s.station src = w at *
  generalize s.station.heardPeer = u at *
  have active_eq := active_of_line line_eq
  have queue_eq : w.queue = u.queue := kept .queue (by decide)
  have spirals_eq : w.spirals = u.spirals := kept .spirals (by decide)
  refine ⟨fun idle => ?notActive, fun e found => ?repeated, fun r unknown refused => ?refused,
    fun unknown active door chute named status cold stock room => ?admitted, ?kept⟩
  case notActive =>
    rw [takeOffer_of_not_active (active_eq.trans idle), finish_hand_queue, finish_hand_spirals]
    exact ⟨queue_eq, spirals_eq, queued_of_hand _ line_eq hear (.inr rfl) rfl⟩
  case repeated =>
    rw [takeOffer_of_repeated (queue_eq ▸ found), finish_hand_queue]
    refine ⟨queue_eq, fun active => ?_⟩
    rw [active_eq, if_pos active]
    exact queued_of_hand _ line_eq hear (.inl active) rfl
  case refused =>
    rw [takeOffer_of_refusal (queue_eq ▸ unknown) (refusal_eq.trans refused), finish_hand_queue, finish_hand_spirals]
    exact ⟨queue_eq, spirals_eq, queued_of_hand _ line_eq hear (.inr rfl) rfl⟩
  case admitted =>
    have passes := refusal_eq.trans (offerRefusal_eq_none active door chute named status cold stock room)
    rw [takeOffer_of_admission (queue_eq ▸ unknown) passes, finish_hand_queue, admitted_queue, queue_eq]
    refine ⟨_, rfl, rfl, rfl, rfl, ?_, rfl, rfl, rfl, ?_⟩
    · exact congrArg Spiral.price (spiral_congr spirals_eq _)
    · exact queued_of_hand _ ((admitted_line ..).trans line_eq) hear (.inl active) rfl
  case kept =>
    exact same_of_kept _ ((kept.mono (by decide)).trans
      ((takeOffer_kept src tag tray column w).mono (m := [.peers, .power, .latch, .queue, .spirals, .lineQueue]) (by decide)))
      (by decide)

/-- Settles O24. -/
theorem commitTimerRemovesTheEntry : Obligations.CommitTimerRemovesTheEntry := by
  unfold Obligations.CommitTimerRemovesTheEntry
  rintro s u payer tag e waiting rfl
  have expired : exec (.commitTimerExpiry payer tag) s =
      .next (event s fun o => match o.awaiting payer tag with
        | some e => (o.advanceTo Config.commitTime e.commitTimer).expireEntry payer tag
        | none => o) := rfl
  refine gives_of_event _ expired ?_
  rw [waiting]
  exact ⟨finish_same _ _ .queue, keepsBut_of_kept _ (expireEntry_kept _ payer tag) (by decide)⟩

section Withdraw

/-! ### WITHDRAW (R23) -/

/-- Settles O27: the handoff touches the vend queue alone, and the end of the event adds CLAIMs alone. -/
theorem withdrawRemovesTheEntry : Obligations.WithdrawRemovesTheEntry := by
  unfold Obligations.WithdrawRemovesTheEntry
  rintro s u src tag rfl hear hok hsrc
  refine gives_of_handoff (fun t => t.queueWithdraw (.peer src) tag) hear hok hsrc rfl ?_
  have kept := heardFrom_kept s.station src
  have line_eq := heardFrom_line s.station src
  generalize heardFrom s.station src = w at *
  generalize s.station.heardPeer = u at *
  have queue_eq : w.queue = u.queue := kept .queue (by decide)
  have withdrawn := queueWithdraw_kept w (.peer src) tag
  have withdrawn_line : (w.queueWithdraw (.peer src) tag).line = u.line := line_eq
  refine ⟨?removed, ?unanswered, ?kept⟩
  case removed =>
    rw [← queue_eq]
    exact finish_same _ _ .queue
  case unanswered =>
    obtain ⟨⟨frames, line_queue, claims⟩, -⟩ := finish_claims s.station (s := w.queueWithdraw (.peer src) tag)
      (by rw [withdrawn_line]; exact not_isolated_of_hears hear)
    rw [line_queue, withdrawn_line]
    exact fun f hf => (List.mem_append.mp hf).imp_right (claims f)
  case kept =>
    exact same_of_kept _ ((kept.mono (by decide)).trans
      (withdrawn.mono (m := [.peers, .power, .latch, .queue]) (by decide))) (by decide)

end Withdraw

section Commit

/-! ### COMMIT (R22) -/

theorem updateFirst_map {α β : Type} (p : α → Bool) {f : α → α} {g : α → β} (h : ∀ a, g (f a) = g a) (l : List α) :
    (updateFirst p f l).map g = l.map g := by
  induction l with
  | nil => rfl
  | cons a rest ih =>
    unfold updateFirst
    split
    · simp [h]
    · simp [ih]

theorem find?_updateFirst_self {α : Type} {p : α → Bool} {f : α → α} (h : ∀ a, p (f a) = p a) (l : List α) :
    (updateFirst p f l).find? p = (l.find? p).map f := by
  induction l with
  | nil => rfl
  | cons a rest ih =>
    unfold updateFirst
    cases ha : p a with
    | true => simp [ha, h]
    | false => simp [ha, ih]

/-- A change that `q` does not see leaves the first match of `q` in its place, changed or not. -/
theorem find?_updateFirst {α : Type} (p : α → Bool) {q : α → Bool} {f : α → α} (h : ∀ a, q (f a) = q a) {l : List α} {a : α}
    (ha : l.find? q = some a) :
    (updateFirst p f l).find? q = some a ∨ (updateFirst p f l).find? q = some (f a) := by
  induction l with
  | nil => cases ha
  | cons b rest ih =>
    unfold updateFirst
    cases hq : q b with
    | true =>
      rw [List.find?_cons_of_pos hq] at ha
      cases ha
      cases p a <;> simp [hq, h]
    | false =>
      rw [List.find?_cons_of_neg (by simp [hq])] at ha
      cases p b with
      | true => simp [hq, h, ha]
      | false => simpa [hq] using ih ha

/-- R22: an entry bound by its COMMIT. -/
def boundEntry (e : Entry) : Entry := { e with state := .committed, commitTimer := 0 }

/-- R22: the station with the entry of a payer and tag bound, before the pick. -/
def boundAt (s : Station) (payer : Payer) (tag : Nat) : Station :=
  { s with queue := updateFirst (entryIs payer tag) boundEntry s.queue }

theorem takeCommit_of_unknown {s : Station} {src tag : Nat} (h : s.queue.find? (entryIs (.peer src) tag) = none)
    (price : Nat) :
    Station.takeCommit src tag price s =
      s.hand src (.refuse tag (if s.faults.doorOpen then .service else .expired)) := by
  simp [Station.takeCommit, Station.queueCommit, h]

variable {s : Station} {src tag : Nat} {e : Entry}

theorem takeCommit_of_price (h : s.queue.find? (entryIs (.peer src) tag) = some e) (he : e.state = .awaitCommit) :
    Station.takeCommit src tag e.price s = (boundAt s (.peer src) tag).pick := by
  simp [Station.takeCommit, Station.queueCommit, h, he]
  rfl

theorem takeCommit_of_other_price (h : s.queue.find? (entryIs (.peer src) tag) = some e) (he : e.state = .awaitCommit)
    {price : Nat} (hp : e.price ≠ price) :
    Station.takeCommit src tag price s =
      ({ s with queue := removeFirst (entryIs (.peer src) tag) s.queue }).hand src (.refuse tag .price) := by
  simp [Station.takeCommit, Station.queueCommit, h, he, hp.symm]

theorem takeCommit_of_bound (h : s.queue.find? (entryIs (.peer src) tag) = some e) (he : e.state ≠ .awaitCommit)
    (price : Nat) : Station.takeCommit src tag price s = s := by
  simp [Station.takeCommit, Station.queueCommit, h, he]

theorem takeCommit_kept (src tag price : Nat) (s : Station) :
    Kept [.queue, .vend, .power, .lineQueue] s (Station.takeCommit src tag price s) := by
  have queued := queueCommit_kept s (.peer src) tag price
  unfold Station.takeCommit
  split <;> rename_i answered <;> rw [answered] at queued
  · exact queued.trans ((hand_kept _ _ _).mono (by decide))
  · exact queued

theorem measured_coldHold (c : Cooling) : c.measured.coldHold = c.coldHold := rfl

/-- R24: the end of an event leaves what makes an entry pickable. -/
theorem mayBePicked_finish_pick (o s : Station) : mayBePicked (finish o s.pick) = s.pickable := by
  have measured_eq : (finish o s.pick).cooling.measured = s.cooling.measured :=
    (finish_same o s.pick .meters).trans (pick_kept s .meters (by decide))
  have hold_eq : (finish o s.pick).cooling.coldHold = s.cooling.coldHold := by
    rw [← measured_coldHold, measured_eq, measured_coldHold]
  funext e
  have spiral_eq : (finish o s.pick).spiral e.position = s.spiral e.position :=
    (spiral_finish o s.pick e.position).trans (spiral_congr (pick_kept s .spirals (by decide)) _)
  simp [mayBePicked, Station.pickable, Station.withheld, spiral_eq, hold_eq]

/-- R24: the pick of a station that is not isolated, as the end of the event leaves it. -/
theorem picked_of_pick (o : Station) {s : Station} (hi : s.line.state.isIsolated = false) (hv : s.vend = none) :
    Picked s.queue (finish o s.pick) := by
  have state_eq : s.pick.line.state = s.line.state := state_of_kept (pick_kept s) (by decide)
  obtain ⟨-, vend_eq⟩ := finish_claims o (s := s.pick) (by rw [state_eq]; exact hi)
  have queue_eq := finish_same o s.pick .queue
  unfold Picked
  rw [mayBePicked_finish_pick, vend_eq, show (finish o s.pick).queue = s.pick.queue from queue_eq]
  refine ⟨fun e found => pick_of_some hv found, fun none_found => ?_⟩
  rw [pick_of_none hv none_found]
  exact ⟨rfl, hv⟩

/-- The pick changes states of entries alone. -/
theorem pick_queue_map {β : Type} (s : Station) {g : Entry → β} (hg : ∀ e, g { e with state := .vending } = g e) :
    s.pick.queue.map g = s.queue.map g := by
  rcases pick_queue s with h | h <;> rw [h]
  exact updateFirst_map _ hg _

/-- The entry bound stands in the queue after the pick, COMMITTED or picked itself. -/
theorem find?_boundAt_pick (h : s.queue.find? (entryIs (.peer src) tag) = some e) :
    ∃ f, (boundAt s (.peer src) tag).pick.queue.find? (entryIs (.peer src) tag) = some f ∧
      (f.state = .committed ∨ f.state = .vending) := by
  have bound : (boundAt s (.peer src) tag).queue.find? (entryIs (.peer src) tag) = some (boundEntry e) :=
    (find?_updateFirst_self (f := boundEntry) (fun _ => rfl) s.queue).trans (by rw [h]; rfl)
  rcases pick_queue (boundAt s (.peer src) tag) with hq | hq <;> rw [hq]
  · exact ⟨_, bound, .inl rfl⟩
  · rcases find?_updateFirst (boundAt s (.peer src) tag).pickable (f := fun e => { e with state := .vending })
      (fun _ => rfl) bound with hf | hf
    · exact ⟨_, hf, .inl rfl⟩
    · exact ⟨_, hf, .inr rfl⟩

end Commit

/-- Settles O26: the clauses are the rows of R22's table, the second with the pick of R24. -/
theorem commitBindsTheEntry : Obligations.CommitBindsTheEntry := by
  unfold Obligations.CommitBindsTheEntry
  rintro s u src tag price rfl hear hok hsrc
  refine gives_of_handoff (Station.takeCommit src tag price) hear hok hsrc rfl ?_
  have kept := heardFrom_kept s.station src
  have line_eq := heardFrom_line s.station src
  generalize heardFrom s.station src = w at *
  generalize s.station.heardPeer = u at *
  have queue_eq : w.queue = u.queue := kept .queue (by decide)
  have vend_eq : w.vend = u.vend := kept .vend (by decide)
  have door_eq := doorOpen_of_kept (kept .door (by decide))
  have bound_queue : (boundAt w (.peer src) tag).queue = updateFirst (entryIs (.peer src) tag) boundEntry u.queue := by
    rw [← queue_eq]; rfl
  have line_not_isolated : (boundAt w (.peer src) tag).line.state.isIsolated = false := by
    rw [show (boundAt w (.peer src) tag).line = u.line from line_eq]
    exact not_isolated_of_hears hear
  refine ⟨fun unknown => ?unknown, fun e found waits agreed => ?binds, fun e found waits other => ?removed,
    fun e found bound => ?bound, ?kept⟩
  case unknown =>
    rw [takeCommit_of_unknown (queue_eq ▸ unknown), finish_hand_queue, door_eq]
    refine ⟨queue_eq, queued_of_hand _ line_eq hear (.inr rfl) rfl⟩
  case binds =>
    subst agreed
    rw [takeCommit_of_price (queue_eq ▸ found) waits]
    have picked_queue := finish_same s.station (boundAt w (.peer src) tag).pick .queue
    rw [show (finish s.station (boundAt w (.peer src) tag).pick).queue = _ from picked_queue]
    refine ⟨?_, find?_boundAt_pick (queue_eq ▸ found), fun idle => ?_, fun busy => ?_⟩
    · rw [pick_queue_map _ fun _ => rfl, bound_queue]
      exact updateFirst_map (f := boundEntry) _ (fun _ => rfl) _
    · have picked := picked_of_pick s.station line_not_isolated (vend_eq.trans idle)
      rwa [bound_queue] at picked
    · obtain ⟨v, in_flight⟩ := Option.ne_none_iff_exists'.mp busy
      rw [pick_of_vend (s := boundAt w (.peer src) tag) (vend_eq.trans in_flight), bound_queue]
      rfl
  case removed =>
    rw [takeCommit_of_other_price (queue_eq ▸ found) waits other, finish_hand_queue, ← queue_eq]
    exact ⟨rfl, queued_of_hand _ line_eq hear (.inr rfl) rfl⟩
  case bound =>
    rw [takeCommit_of_bound (queue_eq ▸ found) bound]
    exact (finish_same _ _ .queue).trans queue_eq
  case kept =>
    exact same_of_kept _ ((kept.mono (by decide)).trans
      ((takeCommit_kept src tag price w).mono (m := [.peers, .power, .latch, .queue, .vend, .lineQueue]) (by decide)))
      (by decide)

end Sys2Proof.Proofs

/-! SUPPORT. The refutation of O7. Its second half asks `QueueLaw` to be kept from every station that meets it, and the part
`AtRest` of that law asks a station in OFFLINE to hold an IDLE payout, but not to have no coin in progress. The window timer
of a coin runs whatever the payout's state, and a miss with a stop pending holds the payout (R102). -/

namespace Sys2Proof.Proofs

open Sys2Proof.Machine Sys2Proof.Laws

section RestingCoin

/-- A station right after a reset whose IDLE payout record has a coin in progress from tube 1 and a stop pending. -/
def restingCoin : Station :=
  { Station.reset with payout := { Payout.blank with currentTube := some 1, phase := .pulse, stop := .door } }

/-- The machine that holds it, with the miss of the coin waiting (R99). -/
def restingCoinMachine : State := { State.reset with station := restingCoin, pending := [.miss] }

theorem namingCount_of_queue_nil {s : Station} (h : s.queue = []) (position : Nat) : s.namingCount position = 0 := by
  simp [Station.namingCount, h]

theorem restingCoin_queueLaw : QueueLaw restingCoin := by
  refine ⟨by decide, rfl, fun position n _ => ?_, by unfold AtRest; decide⟩
  rw [namingCount_of_queue_nil rfl]
  exact Nat.zero_le n

/-- The miss holds the payout, in OFFLINE. -/
theorem step_restingCoin : ∃ t, step restingCoinMachine = .next t ∧ t.station.running = false ∧
    t.station.payout.state = .stopped := by
  have stepped : step restingCoinMachine =
      .next (event (restingCoinMachine.withPending []) fun o =>
        expire (o.payout.phase = .pulse) Config.confirmTime o.payout.windowTimer Station.missCoin o) := rfl
  refine ⟨_, stepped, ?_, ?_⟩ <;> decide +kernel

end RestingCoin

/-- Refutes O7: from `restingCoin`, which meets the queue's law, a miss leaves a STOPPED payout in OFFLINE. -/
theorem not_stepKeepsBuffersBounded : ¬ Obligations.StepKeepsBuffersBounded := by
  unfold Obligations.StepKeepsBuffersBounded
  rintro ⟨-, keepsQueueLaw⟩
  obtain ⟨t, stepped, not_running, stopped⟩ := step_restingCoin
  obtain ⟨-, -, -, -, resting⟩ := keepsQueueLaw restingCoinMachine t restingCoin_queueLaw stepped
  obtain ⟨-, -, -, idle, -⟩ := resting not_running
  rw [stopped] at idle
  cases idle

end Sys2Proof.Proofs

/-! SUPPORT. The exact-change indicator over an event (R91, R92), for O6: no operation of a block but a start or a halt
touches the indicator or what its evaluation rests on beside what R91 watches of the tubes (`Steady`), so that the
evaluation at the end of the event is enough. -/

namespace Sys2Proof.Proofs

open Sys2Proof.Machine Sys2Proof.Laws

/-- The indicator and what it rests on beside what R91 watches of a tube: the settings, the tubes' denominations, whether
the station runs, and whether it is OFFLINE. -/
def indicatorBasis (s : Station) : Bool × Settings × List Nat × Bool × Bool :=
  (s.exactLit, s.cfg, s.coin.tubes.map Tube.denomination, s.line.state.running, decide (s.line.state = .offline))

/-- The indicator and what it rests on are kept. -/
def Steady (s t : Station) : Prop := indicatorBasis t = indicatorBasis s

section Combinators

/-! ### Combining operations -/

variable {s t u : Station}

theorem Steady.refl (s : Station) : Steady s s := rfl

theorem Steady.trans (h : Steady s t) (k : Steady t u) : Steady s u := Eq.trans k h

/-- An operation that does one of two things. -/
theorem Steady.ite {c : Prop} [Decidable c] (h : Steady s t) (k : Steady s u) : Steady s (if c then t else u) := by
  split <;> assumption

theorem Steady.foldl {α : Type} {f : Station → α → Station} (h : ∀ s a, Steady s (f s a)) (l : List α) (s : Station) :
    Steady s (l.foldl f s) := by
  induction l generalizing s with
  | nil => exact .refl s
  | cons a rest ih => exact (h s a).trans (ih _)

theorem Steady.hands (h : Hands s t) : Steady s t := by
  obtain ⟨_, _, rfl⟩ := h
  rfl

theorem Steady.loads (h : Loads s t) : Steady s t := by
  obtain ⟨_, _, _, rfl⟩ := h
  rfl

theorem Steady.grants (h : Grants s t) : Steady s t := by
  obtain ⟨_, _, _, _, _, rfl, _⟩ := h
  rfl

theorem Steady.masks (h : Masks s t) : Steady s t := by
  obtain ⟨_, _, _, _, _, rfl⟩ := h
  rfl

end Combinators

section Blocks

variable (s : Station)

/-! ### Records of which the indicator reads nothing -/

theorem audit_steady (a : Audit) : Steady s { s with audit := a } := rfl
theorem payout_steady (p : Payout) : Steady s { s with payout := p } := rfl
theorem txn_steady (t : Txn) : Steady s { s with txn := t } := rfl
theorem queue_steady (q : List Entry) : Steady s { s with queue := q } := rfl
theorem vend_steady (v : Option Vend) : Steady s { s with vend := v } := rfl
theorem setCooling_steady (f : Cooling → Cooling) : Steady s (s.setCooling f) := rfl
theorem power_steady (p : Power) : Steady s { s with power := p } := rfl
theorem panel_steady (p : Panel) : Steady s { s with panel := p } := rfl
theorem chute_steady (c : Chute) : Steady s { s with chute := c } := rfl
theorem peers_steady (p : List Peer) : Steady s { s with peers := p } := rfl
theorem statusTimer_steady (n : Nat) : Steady s { s with coin := { s.coin with statusTimer := n } } := rfl

/-! ### Shared operations -/

theorem hand_steady (dst : Nat) (body : FrameBody) : Steady s (s.hand dst body) := .hands (hand_hands s dst body)

theorem request_steady (cls : LoadClass) (power : Fig) : Steady s (s.request cls power) := .loads (request_loads s cls power)

theorem releaseSlot_steady (cls : LoadClass) : Steady s (s.releaseSlot cls) := .loads (releaseSlot_loads s cls)

theorem withdrawRequest_steady (cls : LoadClass) : Steady s (s.withdrawRequest cls) := .loads (withdrawRequest_loads s cls)

theorem raise_steady (n : Notice) : Steady s (s.raise n) := by
  obtain ⟨_, _, _, h⟩ := raise_shape s n
  rw [h]
  rfl

theorem updateAt_map {α β : Type} {f : α → α} {g : α → β} (h : ∀ a, g (f a) = g a) (l : List α) (n : Nat) :
    (updateAt l n f).map g = l.map g := by
  induction l generalizing n with
  | nil => rfl
  | cons a rest ih => cases n <;> simp [updateAt, h, ih]

/-- A change of a tube that leaves its denomination. -/
theorem setTube_steady (tube : Nat) {f : Tube → Tube} (h : ∀ r, (f r).denomination = r.denomination) :
    Steady s (s.setTube tube f) := by
  unfold Station.setTube
  split
  · simp [Steady, indicatorBasis, updateAt_map h]
  · rfl

theorem setSpiral_steady (position : Nat) (f : Spiral → Spiral) : Steady s (s.setSpiral position f) := by
  unfold Station.setSpiral
  exact .ite rfl rfl

theorem applyNaming_steady (position : Nat) : Steady s (s.applyNaming position) := setSpiral_steady s position _

theorem showCustomer_steady (m : Message) (length : Nat) : Steady s (s.showCustomer m length) := by
  unfold Station.showCustomer
  exact .ite rfl rfl

theorem showService_steady (m : Message) : Steady s (s.showService m) := by
  unfold Station.showService
  exact .ite rfl rfl

theorem writeJournal_steady (e : JournalEntry) : Steady s (s.writeJournal e) := by
  unfold Station.writeJournal
  exact .ite rfl rfl

theorem refill_steady : Steady s s.refill := .foldl applyNaming_steady allPositions { s with spirals := s.spirals.map refillRecord }

/-! ### The payout unit (06) -/

theorem payoutDone_steady (remainder : Nat) : Steady s (s.payoutDone remainder) := by
  unfold Station.payoutDone
  exact .ite rfl (.trans rfl (raise_steady _ _))

theorem endPayout_steady : Steady s s.endPayout := (payout_steady s _).trans (payoutDone_steady _ _)

theorem beginRun_steady : Steady s s.beginRun := by
  unfold Station.beginRun
  split <;> rfl

theorem beginCoin_steady : Steady s s.beginCoin := by
  unfold Station.beginCoin
  split <;> rfl

theorem nextCoin_steady : Steady s s.nextCoin := by
  unfold Station.nextCoin
  split
  · exact beginCoin_steady s
  · rfl

theorem takePlan_steady : Steady s s.takePlan := (payout_steady s _).trans (beginRun_steady _)

theorem stopPayout_steady : Steady s s.stopPayout := rfl

theorem startPayout_steady (amount : Nat) : Steady s (s.startPayout amount) := by
  unfold Station.startPayout
  dsimp only
  refine .ite (.trans ?_ (.ite (endPayout_steady _) (.ite (stopPayout_steady _) (nextCoin_steady _)))) (.refl s)
  exact (payout_steady s _).trans (takePlan_steady _)

theorem returnAll_steady : Steady s s.returnAll := by
  unfold Station.returnAll
  exact .ite rfl ((txn_steady s _).trans (startPayout_steady _ _))

theorem takeCoinFrom_steady (tube : Nat) : Steady s (s.takeCoinFrom tube) := by
  unfold Station.takeCoinFrom
  exact .ite rfl (setTube_steady s tube fun _ => rfl)

theorem confirmCoin_steady (tube denomination : Nat) : Steady s (s.confirmCoin tube denomination) := by
  unfold Station.confirmCoin
  dsimp only
  refine .trans ?_ (audit_steady _ _)
  refine .trans ?_ (writeJournal_steady _ _)
  refine .trans ?_ (payout_steady _ _)
  exact (payout_steady s _).trans (takeCoinFrom_steady _ _)

theorem afterConfirm_steady (runEnded : Bool) : Steady s (s.afterConfirm runEnded) := by
  unfold Station.afterConfirm
  split
  · exact endPayout_steady s
  · dsimp only
    generalize hb : (if runEnded = true then s.beginRun else s) = t
    have h : Steady s t := hb ▸ .ite (beginRun_steady s) (.refl s)
    exact h.trans (.ite (stopPayout_steady _) (nextCoin_steady _))

theorem coutEdge_steady : Steady s s.coutEdge := by
  unfold Station.coutEdge
  split
  · exact (confirmCoin_steady s _ _).trans (afterConfirm_steady _ _)
  · rfl

theorem tubeFault_steady (tube : Nat) : Steady s (s.tubeFault tube) := by
  unfold Station.tubeFault
  dsimp only
  refine .trans ?_ (.ite (endPayout_steady _) (.ite (stopPayout_steady _) (payout_steady _ _)))
  exact ((setTube_steady s tube fun _ => by rfl).trans (raise_steady _ _)).trans (takePlan_steady _)

theorem missCoin_steady : Steady s s.missCoin := by
  unfold Station.missCoin
  split
  · rfl
  · refine .trans (payout_steady s { s.payout with pulseOn := none }) ?_
    exact .ite (tubeFault_steady _ _) (.ite (stopPayout_steady _) (payout_steady _ _))

theorem pulseEnds_steady : Steady s s.pulseEnds := by
  unfold Station.pulseEnds
  dsimp only
  exact (payout_steady s _).trans (.ite (beginCoin_steady _) (.refl _))

theorem payoutDoorOpens_steady : Steady s s.payoutDoorOpens := by
  unfold Station.payoutDoorOpens
  exact .ite ((payout_steady s _).trans (.ite (.refl _) (stopPayout_steady _))) (.refl s)

theorem payoutDoorCloses_steady : Steady s s.payoutDoorCloses := by
  unfold Station.payoutDoorCloses
  dsimp only
  refine .ite (.ite (.trans ?_ (.ite (endPayout_steady _) (nextCoin_steady _))) ?_) (payout_steady s _)
  · exact (payout_steady s _).trans (takePlan_steady _)
  · exact (payout_steady s _).trans (nextCoin_steady _)

theorem noteTubesChanged_steady : Steady s s.noteTubesChanged := by
  unfold Station.noteTubesChanged
  exact .ite rfl rfl

/-! ### Sales (07) -/

theorem escrowBack_steady : Steady s s.escrowBack := rfl

theorem afterFailedSale_steady : Steady s s.afterFailedSale := by
  unfold Station.afterFailedSale
  exact .ite (returnAll_steady s) rfl

theorem failSale_steady (m : Option Message) : Steady s (s.failSale m) := by
  unfold Station.failSale
  cases m with
  | none => exact (escrowBack_steady s).trans (afterFailedSale_steady _)
  | some m => exact ((escrowBack_steady s).trans (showCustomer_steady _ m _)).trans (afterFailedSale_steady _)

theorem bookSale_steady (fromPeer : Bool) (drops : Nat) : Steady s (s.bookSale fromPeer drops) := rfl

theorem takeSale_steady (fromPeer : Bool) (drops : Nat) : Steady s (s.takeSale fromPeer drops) := by
  unfold Station.takeSale
  exact (bookSale_steady s _ _).trans (.ite (returnAll_steady _) rfl)

theorem takeResult_steady (sender : Payer) (tag : Nat) (o : Outcome) (drops : Nat) :
    Steady s (s.takeResult sender tag o drops) := by
  unfold Station.takeResult
  exact .ite (.ite (takeSale_steady s _ _) (failSale_steady s _)) rfl

theorem toResting_steady : Steady s s.toResting := rfl

theorem takeRefuse_steady (sender : Payer) (tag : Nat) (r : Reason) : Steady s (s.takeRefuse sender tag r) := by
  unfold Station.takeRefuse
  refine .ite (.ite ?_ (.ite (failSale_steady s _) (.refl s))) (.refl s)
  exact (showCustomer_steady s _ _).trans (toResting_steady _)

theorem giveUpSale_steady : Steady s s.giveUpSale := by
  unfold Station.giveUpSale
  refine .trans ?_ (afterFailedSale_steady _)
  exact ((escrowBack_steady s).trans (audit_steady _ _)).trans (showCustomer_steady _ _ _)

/-! ### The vend queue (02) -/

theorem queueOffer_steady (payer : Payer) (tag tray column : Nat) : Steady s (s.queueOffer payer tag tray column).1 := by
  unfold Station.queueOffer
  split
  · exact .refl s
  · split
    · exact .refl s
    · exact (queue_steady s _).trans (applyNaming_steady _ _)

theorem energise_steady : Steady s s.energise := by
  unfold Station.energise
  split <;> rfl

theorem beginVend_steady (e : Entry) : Steady s (s.beginVend e) := by
  unfold Station.beginVend
  split
  · exact (vend_steady s _).trans (energise_steady _)
  · exact (vend_steady s _).trans (request_steady _ _ _)

theorem pick_steady : Steady s s.pick := by
  unfold Station.pick
  split
  · exact .refl s
  · split
    · exact .refl s
    · exact (queue_steady s _).trans (beginVend_steady _ _)

theorem queueCommit_steady (payer : Payer) (tag price : Nat) : Steady s (s.queueCommit payer tag price).1 := by
  unfold Station.queueCommit
  split
  · exact .refl s
  · split
    · split
      · exact (queue_steady s _).trans (pick_steady _)
      · exact queue_steady s _
    · exact .refl s

theorem answerResult_steady (e : Entry) (o : Outcome) (drops : Nat) : Steady s (s.answerResult e o drops) := by
  unfold Station.answerResult
  split
  · exact takeResult_steady s _ _ _ _
  · exact hand_steady s _ _
  · exact .refl s

theorem answerRefuse_steady (e : Entry) (r : Reason) : Steady s (s.answerRefuse e r) := by
  unfold Station.answerRefuse
  split
  · exact takeRefuse_steady s _ _ _
  · exact hand_steady s _ _
  · exact .refl s

theorem answerRemoved_steady (r : Reason) (o : Outcome) (e : Entry) : Steady s (Station.answerRemoved r o s e) := by
  unfold Station.answerRemoved
  cases e.state with
  | awaitCommit => exact answerRefuse_steady s e r
  | committed => exact answerResult_steady s e o 0
  | vending => exact .refl s

theorem removeEntries_steady (p : Entry → Bool) (r : Reason) (o : Outcome) : Steady s (s.removeEntries p r o) :=
  (queue_steady s _).trans (.foldl (fun t e => answerRemoved_steady t r o e) _ _)

theorem removeForSpiral_steady (position : Nat) : Steady s (s.removeForSpiral position) := by
  unfold Station.removeForSpiral
  exact .ite (removeEntries_steady s _ _ _) (removeEntries_steady s _ _ _)

theorem addTestEntry_steady (position : Nat) : Steady s (s.addTestEntry position) := by
  unfold Station.addTestEntry
  exact ((queue_steady s _).trans (applyNaming_steady _ _)).trans (pick_steady _)

/-! ### The drive sequencer (03) -/

theorem noticeOutcome_steady (o : Outcome) (position : Nat) : Steady s (s.noticeOutcome o position) := by
  unfold Station.noticeOutcome
  split
  · exact raise_steady s _
  · exact raise_steady s _
  · exact .refl s

theorem recordOutcome_steady (o : Outcome) (drops position : Nat) (test : Bool) :
    Steady s (s.recordOutcome o drops position test) := by
  unfold Station.recordOutcome
  refine .trans ?_ (.ite (raise_steady _ _) (.refl _))
  exact (setSpiral_steady s _ _).trans (audit_steady _ _)

theorem recordVendEnd_steady (v : Vend) (o : Outcome) : Steady s (s.recordVendEnd v o) := by
  unfold Station.recordVendEnd Station.countOutcome
  exact ((audit_steady s _).trans (noticeOutcome_steady _ _ _)).trans (recordOutcome_steady _ _ _ _ _)

theorem dropVending_steady : Steady s s.dropVending := rfl

theorem answerVend_steady (v : Vend) (o : Outcome) : Steady s (s.answerVend v o) := by
  unfold Station.answerVend
  exact .ite (showService_steady s _) (answerResult_steady s _ _ _)

theorem finishVend_steady (v : Vend) (o : Outcome) : Steady s (s.finishVend v o) := by
  unfold Station.finishVend
  dsimp only
  refine .trans (.trans ?_ (.ite (removeForSpiral_steady _ _) (.refl _))) (applyNaming_steady _ _)
  exact ((recordVendEnd_steady s v o).trans (dropVending_steady _)).trans (answerVend_steady _ _ _)

theorem settleClaim_steady : Steady s s.settleClaim := by
  unfold Station.settleClaim
  split
  · exact .refl s
  · exact (releaseSlot_steady s _).trans (withdrawRequest_steady _ _)

theorem endVend_steady (o : Outcome) : Steady s (s.endVend o) := by
  unfold Station.endVend
  split
  · exact .refl s
  · exact ((finishVend_steady s _ _).trans (pick_steady _)).trans (settleClaim_steady _)

theorem chuteActivity_steady : Steady s s.chuteActivity := by
  have counted : ∀ (c : Chute) (a : Audit), Steady s { s with chute := c, audit := a } := fun _ _ => rfl
  exact counted _ _

theorem countDrop_steady (v : Vend) : Steady s (s.countDrop v) := by
  unfold Station.countDrop
  dsimp only
  refine .trans ?_ (applyNaming_steady _ _)
  exact (vend_steady s _).trans (setSpiral_steady _ _ _)

theorem dropTaken_steady : Steady s s.dropTaken := by
  have counted : ∀ v : Vend, Steady s (if v.drops < 3 then s.countDrop v else s) := fun v =>
    .ite (countDrop_steady s v) (.refl s)
  unfold Station.dropTaken
  split
  · exact chuteActivity_steady s
  · split
    · exact chuteActivity_steady s
    · exact .ite ((countDrop_steady s _).trans (endVend_steady _ _)) (.refl s)
    all_goals exact counted _

theorem revolutionEnds_steady (v : Vend) : Steady s (s.revolutionEnds v) := by
  unfold Station.revolutionEnds
  exact .ite ((vend_steady s _).trans (endVend_steady _ _)) (vend_steady s _)

theorem jamTaken_steady (v : Vend) : Steady s (s.jamTaken v) := by
  unfold Station.jamTaken
  exact .ite (vend_steady s _) ((vend_steady s _).trans (endVend_steady _ _))

theorem windowEnds_steady (v : Vend) : Steady s (s.windowEnds v) := by
  unfold Station.windowEnds
  exact .ite (energise_steady s) (endVend_steady s _)

theorem setHome_steady (v : Vend) (isOpen : Bool) : Steady s (s.setHome v isOpen) := rfl

theorem homeOpens_steady (v : Vend) : Steady s (s.homeOpens v) := by
  unfold Station.homeOpens
  exact .ite ((setHome_steady s v true).trans (vend_steady _ _)) (setHome_steady s v true)

theorem homeCloses_steady (v : Vend) : Steady s (s.homeCloses v) := by
  unfold Station.homeCloses
  exact .ite ((setHome_steady s v false).trans (revolutionEnds_steady _ _)) (setHome_steady s v false)

theorem setBeam_steady (blocked : Bool) : Steady s (s.setBeam blocked) := rfl

theorem beamBlocks_steady : Steady s s.beamBlocks := by
  unfold Station.beamBlocks
  exact (setBeam_steady s true).trans (.ite (dropTaken_steady _) (.refl _))

theorem chuteFaultBegins_steady : Steady s s.chuteFaultBegins := by
  unfold Station.chuteFaultBegins
  refine .trans ?_ (.ite (removeEntries_steady _ _ _ _) (.refl _))
  exact (chute_steady s _).trans (raise_steady _ _)

/-! ### The transaction (07) -/

theorem withdrawFrom_steady (owner : Payer) (tag : Nat) : Steady s (s.withdrawFrom owner tag) := by
  unfold Station.withdrawFrom
  split
  · exact queue_steady s _
  · exact hand_steady s _ _

theorem commitTo_steady (owner : Payer) (tag price : Nat) : Steady s (s.commitTo owner tag price) := by
  unfold Station.commitTo
  split
  · have committed := queueCommit_steady s .loc tag price
    split <;> rename_i answered <;> rw [answered] at committed
    · exact committed.trans (takeRefuse_steady _ _ _ _)
    · exact committed
  · exact hand_steady s _ _

theorem declineAccept_steady (o : Offer) (m : Message) (length : Nat) : Steady s (s.declineAccept o m length) := by
  unfold Station.declineAccept
  exact ((showCustomer_steady s _ _).trans (withdrawFrom_steady _ _ _)).trans (toResting_steady _)

theorem acceptCurrent_steady (o : Offer) (price queuePos : Nat) : Steady s (s.acceptCurrent o price queuePos) := by
  have declined := declineAccept_steady s o
  unfold Station.acceptCurrent
  exact .ite (declined _ _) (.ite (declined _ _) (.ite (declined _ _) ((txn_steady s _).trans (commitTo_steady _ _ _ _))))

theorem takeAccept_steady (sender : Payer) (tag price queuePos : Nat) : Steady s (s.takeAccept sender tag price queuePos) := by
  unfold Station.takeAccept
  split
  · exact .ite (.ite (acceptCurrent_steady s _ _ _) (.refl s)) (withdrawFrom_steady s _ _)
  · exact withdrawFrom_steady s _ _

theorem recordOffer_steady (owner : Payer) (tray column : Nat) : Steady s (s.recordOffer owner tray column) := rfl

theorem offerLocal_steady (tray column : Nat) : Steady s (s.offerLocal tray column) := by
  have offered := (recordOffer_steady s .loc tray column).trans
    (queueOffer_steady (s.recordOffer .loc tray column) .loc (s.recordOffer .loc tray column).txn.lastTag tray column)
  unfold Station.offerLocal
  dsimp only
  split <;> rename_i answered <;> rw [answered] at offered
  · exact offered.trans (takeAccept_steady _ _ _ _ _)
  · exact offered.trans (takeRefuse_steady _ _ _ _)

theorem makeOffer_steady (letter tray column : Nat) : Steady s (s.makeOffer letter tray column) := by
  unfold Station.makeOffer
  split
  · exact showCustomer_steady s _ _
  · exact offerLocal_steady s _ _
  · exact .ite ((recordOffer_steady s _ _ _).trans (hand_steady _ _ _)) (showCustomer_steady s _ _)

theorem returnKey_steady : Steady s s.returnKey := by
  unfold Station.returnKey
  split
  · exact returnAll_steady s
  · exact (withdrawFrom_steady s _ _).trans (returnAll_steady _)
  · exact txn_steady s _
  · exact .refl s

theorem clearBuffer_steady : Steady s s.clearBuffer := rfl

theorem selection_steady (letter tray column : Nat) : Steady s (s.selection letter tray column) := by
  unfold Station.selection
  exact .ite (makeOffer_steady s _ _ _) (showCustomer_steady s _ _)

theorem bufferDigit_steady (digit : Nat) : Steady s (s.bufferDigit digit) := by
  unfold Station.bufferDigit
  split
  · exact (clearBuffer_steady s).trans (selection_steady _ _ _ _)
  · exact .ite (panel_steady s _) ((clearBuffer_steady s).trans (showCustomer_steady _ _ _))

/-! ### Cooling (08) -/

theorem beginDefrost_steady : Steady s s.beginDefrost := by
  unfold Station.beginDefrost
  exact .ite ((setCooling_steady s _).trans (request_steady _ _ _)) (setCooling_steady s _)

theorem enterWaitPower_steady : Steady s s.enterWaitPower := (setCooling_steady s _).trans (request_steady _ _ _)

theorem leaveRest_steady : Steady s s.leaveRest := by
  unfold Station.leaveRest
  exact .ite (beginDefrost_steady s) (.ite (enterWaitPower_steady s) (setCooling_steady s _))

theorem enterRest_steady : Steady s s.enterRest := by
  unfold Station.enterRest
  exact (setCooling_steady s _).trans (.ite (leaveRest_steady _) (.refl _))

theorem normalStop_steady : Steady s s.normalStop := by
  unfold Station.normalStop
  refine .trans ?_ (.ite (beginDefrost_steady _) (enterRest_steady _))
  exact (setCooling_steady s _).trans (releaseSlot_steady _ _)

theorem trip_steady : Steady s s.trip := by
  unfold Station.trip
  refine .trans ?_ (.ite (raise_steady _ _) (.refl _))
  exact ((setCooling_steady s _).trans (audit_steady _ _)).trans (releaseSlot_steady _ _)

theorem compressorShed_steady : Steady s s.compressorShed := by
  unfold Station.compressorShed
  exact .ite ((setCooling_steady s _).trans (enterRest_steady _)) (.refl s)

theorem terminateDefrost_steady : Steady s s.terminateDefrost := by
  unfold Station.terminateDefrost
  dsimp only
  refine .trans (.trans ?_ (setCooling_steady _ _)) (audit_steady _ _)
  exact .ite (releaseSlot_steady s _) (withdrawRequest_steady s _)

theorem demandChanged_steady (before : Bool) : Steady s (s.demandChanged before) := by
  unfold Station.demandChanged
  refine .ite (.refl s) ?_
  split
  · exact .ite (enterWaitPower_steady s) (.refl s)
  · exact .ite (.refl s) ((setCooling_steady s _).trans (withdrawRequest_steady _ _))
  · exact .ite (.refl s) (.ite (normalStop_steady s) (.refl s))
  · exact .refl s

theorem requestDefrost_steady : Steady s s.requestDefrost := by
  unfold Station.requestDefrost
  refine .trans (setCooling_steady s fun c => { c with defrostRequest := true }) ?_
  dsimp only
  split
  · exact beginDefrost_steady _
  · exact beginDefrost_steady _
  · exact (withdrawRequest_steady _ _).trans (beginDefrost_steady _)
  · exact .ite (normalStop_steady _) (setCooling_steady _ _)
  all_goals exact .refl _

theorem causeMet_steady (inSet : Bool) : Steady s (s.causeMet inSet) := by
  unfold Station.causeMet
  exact .ite (requestDefrost_steady s) (.refl s)

theorem countDoor_steady : Steady s s.countDoor := by
  unfold Station.countDoor Station.doorCountMet
  exact .ite ((setCooling_steady s _).trans (.ite (causeMet_steady _ _) (.refl _))) (.refl s)

theorem airSampled_steady (before : Sensor) (code : Nat) : Steady s (s.airSampled before code) := by
  unfold Station.airSampled
  dsimp only
  refine .trans ?_ (demandChanged_steady _ _)
  split
  · exact .ite (setCooling_steady s _) (.ite (setCooling_steady s _) (.refl s))
  · exact .trans (.ite (setCooling_steady s _) (.ite (setCooling_steady s _) (.refl s))) (setCooling_steady _ _)

theorem coilSampled_steady (code : Nat) : Steady s (s.coilSampled code) := by
  unfold Station.coilSampled
  split
  · exact .refl s
  · exact .ite (terminateDefrost_steady s) (.refl s)

theorem condSampled_steady (code : Nat) : Steady s (s.condSampled code) := by
  unfold Station.condSampled
  split
  · exact .refl s
  · exact .ite (trip_steady s) (.refl s)

theorem takeSample_steady (name : SensorName) (code : Nat) : Steady s (s.takeSample name code) := by
  unfold Station.takeSample
  dsimp only
  have recorded : ∀ (r : Sensor) (c : Prop) [Decidable c], Steady s (if c then
      (s.setCooling fun k => k.setSensor name r).raise (.sensor name) else s.setCooling fun k => k.setSensor name r) :=
    fun _ _ _ => .ite ((setCooling_steady s _).trans (raise_steady _ _)) (setCooling_steady s _)
  cases name
  · exact (recorded _ _).trans (airSampled_steady _ _ _)
  · exact (recorded _ _).trans (coilSampled_steady _ _)
  · exact (recorded _ _).trans (condSampled_steady _ _)

theorem changeDuty_steady : Steady s s.changeDuty := by
  unfold Station.changeDuty
  split
  · exact (setCooling_steady s _).trans (demandChanged_steady _ _)
  · exact (setCooling_steady s _).trans (demandChanged_steady _ _)
  · exact .refl s

theorem beginColdHold_steady : Steady s s.beginColdHold := by
  unfold Station.beginColdHold
  exact ((setCooling_steady s _).trans (raise_steady _ _)).trans (removeEntries_steady _ _ _ _)

/-! ### The power budget and the line (09, 10) -/

theorem decideWindow_steady (r : Request) : Steady s (s.decideWindow r) := by
  unfold Station.decideWindow
  refine .ite (.grants (grant_grants s r)) ?_
  exact (hand_steady s _ _).trans (.ite (power_steady _ _) (power_steady _ _))

theorem shed_steady : Steady s s.shed := by
  have heater : Steady s s.shedHeater := by
    unfold Station.shedHeater Station.heaterShed
    exact .ite ((power_steady s _).trans (.ite (terminateDefrost_steady _) (.refl _))) (.refl s)
  refine heater.trans ?_
  unfold Station.shed Station.shedCompressor
  exact .ite ((power_steady _ _).trans (compressorShed_steady _)) (.refl _)

variable {s}

/-- The line of a station that runs goes on running. -/
theorem line_steady {l : Line} (h : s.running = true) (hl : l.state.running = true) : Steady s { s with line := l } := by
  have running : s.line.state.running = true := h
  have online : ∀ state : LineState, state.running = true → state ≠ .offline := by
    rintro _ h rfl
    cases h
  simp [Steady, indicatorBasis, hl, running, online _ hl, online _ running]

theorem enterListen_steady (h : s.running = true) : Steady s s.enterListen := by
  unfold Station.enterListen
  refine .trans ?_ (.trans (hand_steady _ _ _) (.masks (sendMasks_masks _)))
  exact (statusTimer_steady s 0).trans (line_steady h rfl)

theorem enterActive_steady (h : s.running = true) : Steady s s.enterActive :=
  .trans (.loads (readyAll_loads s)) (line_steady h rfl)

theorem enterIsolated_steady (h : s.running = true) (cause : Cause) : Steady s (s.enterIsolated cause) := by
  unfold Station.enterIsolated
  dsimp only
  refine .trans (.trans ?_ (shed_steady _)) (power_steady _ _)
  exact .trans rfl (line_steady (s := s.leaveActive) h rfl)

theorem lineFault_steady : Steady s s.lineFault := by
  unfold Station.lineFault
  split
  · rename_i beats
    refine enterIsolated_steady ?_ _
    unfold Station.running
    cases hs : s.line.state <;> simp_all [LineState.beats, LineState.running]
  · rfl

theorem addressClash_steady (h : s.running = true) : Steady s s.addressClash := by
  unfold Station.addressClash
  exact .ite (.refl s) ((enterIsolated_steady h _).trans (raise_steady _ _))

theorem endListen_steady (h : s.running = true) : Steady s s.endListen := by
  unfold Station.endListen
  exact .ite (enterActive_steady h) (enterIsolated_steady h _)

variable (s)

theorem frameSent_steady : Steady s s.frameSent := by
  unfold Station.frameSent
  split
  · rfl
  · exact .ite rfl rfl

theorem transmitError_steady : Steady s s.transmitError := by
  unfold Station.transmitError
  exact .trans rfl (.ite lineFault_steady (.refl _))

theorem changePeer_steady (before after : Peer) : Steady s (s.changePeer before after) := by
  unfold Station.changePeer
  exact (peers_steady s _).trans (.ite (.loads (bankRoomMade_loads _)) (.refl _))

theorem refreshPeer_steady (address : Nat) (apply : Peer → Peer) : Steady s (s.refreshPeer address apply) := by
  unfold Station.refreshPeer
  split
  · exact changePeer_steady s _ _
  · rfl

theorem forgetPeers_steady : Steady s s.forgetPeers := by
  unfold Station.forgetPeers
  exact (peers_steady s _).trans (.ite (.loads (bankRoomMade_loads _)) (.refl _))

theorem noticeLetter_steady : Steady s s.noticeLetter := by
  unfold Station.noticeLetter
  refine .ite (.refl s) ?_
  split
  · exact raise_steady s _
  · exact .refl s

theorem heardPeer_steady : Steady s s.heardPeer := by
  unfold Station.heardPeer
  have heard : ∀ t : Station, Steady t { t with line := { t.line with silenceTimer := 0, heard := true } } := fun _ => rfl
  dsimp only
  split
  · rename_i isolated
    exact (enterListen_steady (by simp [Station.running, isolated, LineState.running])).trans (heard _)
  · rename_i isolated
    exact (enterListen_steady (by simp [Station.running, isolated, LineState.running])).trans (heard _)
  · exact heard s

theorem recordClaim_steady (address cls rank : Nat) : Steady s (s.recordClaim address cls rank) := by
  unfold Station.recordClaim
  split <;> rfl

theorem scheduleDeclare_steady : Steady s s.scheduleDeclare := by
  unfold Station.scheduleDeclare
  exact .ite rfl rfl

end Blocks

section Bodies

variable (s : Station)

/-! ### The frames of the meanings -/

theorem advance_steady (d : Nat) : Steady s (s.advance d) := by
  unfold Station.advance
  exact .ite rfl rfl

theorem assess_steady (currents : List Nat) : Steady s (s.assess currents) := by
  unfold Station.assess
  exact .ite (.foldl (fun t _ => .trans (vend_steady t _) (advance_steady _ 1)) currents s) (.refl s)

/-- An expiry whose effect is steady where its timer runs. -/
theorem expire_steady {runs : Bool} {length elapsed : Nat} {effect : Station → Station}
    (h : runs = true → Steady (s.advanceTo length elapsed) (effect (s.advanceTo length elapsed))) :
    Steady s (expire runs length elapsed effect s) := by
  unfold expire
  split
  · exact (advance_steady s _).trans (h ‹_›)
  · exact .refl s

theorem ifHeld_steady {time held : Nat} {change : Station → Station} (h : Steady s (change s)) :
    Steady s (ifHeld time held change s) := .ite h (.refl s)

theorem onVend_steady {f : Vend → Station → Station} (h : ∀ v, Steady s (f v s)) : Steady s (s.onVend f) := by
  unfold Station.onVend
  split
  · exact h _
  · exact .refl s

theorem ifFound_steady (currents : List Nat) {found : Station → Bool} {effect : Station → Station}
    (h : ∀ t, Steady t (effect t)) : Steady s (s.ifFound currents found effect) :=
  (assess_steady s currents).trans (.ite (h _) (.refl _))

theorem key_steady {customer technician : Station → Station} (hc : ∀ t, Steady t (customer t))
    (ht : ∀ t, Steady t (technician t)) : Steady s (s.key customer technician) := by
  have taken : Steady s s.keyTaken := rfl
  have service : Steady s s.serviceKey := rfl
  exact .ite (taken.trans (hc _)) (.ite (service.trans (ht _)) (.refl s))

theorem ifBufferOpen_steady {effect : Station → Station} (h : Steady s (effect s)) : Steady s (s.ifBufferOpen effect) :=
  .ite h (.refl s)

theorem takeFrame_steady (ok : Bool) (src dst : Nat) (apply : Peer → Peer) {windowed handoff : Station → Station}
    (hw : ∀ t, Steady t (windowed t)) (hh : ∀ t, Steady t (handoff t)) :
    Steady s (s.takeFrame ok src dst apply windowed handoff) := by
  unfold Station.takeFrame
  split
  · exact .refl s
  · rename_i running
    have clash : Steady s s.addressClash := addressClash_steady (by simpa using running)
    refine .ite (audit_steady s _) (.ite (.ite (.refl s) clash) ?_)
    refine .trans ?_ (.ite (hh _) (.refl _))
    exact (((hw s).trans (refreshPeer_steady _ _ _)).trans (noticeLetter_steady _)).trans (heardPeer_steady _)

theorem takeQuery_steady (src dst block : Nat) : Steady s (s.takeQuery src dst block) := by
  unfold Station.takeQuery
  split
  · exact .refl s
  · rename_i running
    have clash : Steady s s.addressClash := addressClash_steady (by simpa using running)
    have answered : ∀ (t : Station) (b : Bool) (a : Nat), Steady t (if b then t.answerQuery a block else t) :=
      fun t _ _ => .ite (hand_steady t _ _) (.refl t)
    refine .ite (audit_steady s _) (.ite (answered s _ _) (.ite (.ite (.refl s) clash) ?_))
    refine .trans ?_ (answered _ _ _)
    exact ((refreshPeer_steady s _ _).trans (noticeLetter_steady _)).trans (heardPeer_steady _)

theorem agePeer_steady (address : Nat) (before after : Presence) : Steady s (s.agePeer address before after) := by
  unfold Station.agePeer
  split
  · exact changePeer_steady s _ _
  · exact .refl s

theorem takeCoin_steady (coinType : Nat) (path : CoinPath) : Steady s (s.takeCoin coinType path) := by
  have credited : Steady s (s.creditCoin coinType) := rfl
  unfold Station.takeCoin
  refine credited.trans (.ite ?_ ?_)
  · refine .trans (.trans (.ite (.refl _) (audit_steady _ _)) (setTube_steady _ _ fun r => ?_)) (writeJournal_steady _ _)
    rfl
  · exact (audit_steady _ _).trans (writeJournal_steady _ _)

theorem takeStatus_steady (condition : Nat) : Steady s (s.takeStatus condition) := by
  unfold Station.takeStatus Station.coinReady
  have ready : ∀ t : Station, Steady t { t with coin := { t.coin with faultStands := false, faultCode := none } } :=
    fun _ => rfl
  exact (statusTimer_steady s 0).trans (.ite (.ite ((ready _).trans (.masks (sendMasks_masks _))) (.refl _)) rfl)

theorem running_of_advance {d : Nat} (h : s.running = true) : (s.advance d).running = true := by
  obtain ⟨-, -, -, -, -, -, -, -, -, -, -, state_eq, -⟩ := advance_keeps d s
  unfold Station.running
  rw [state_eq]
  exact h

end Bodies

section Door

variable (s : Station)

theorem openDoor_steady : Steady s s.openDoor := by
  have ended : ∀ t : Station, Steady t t.doorEndsVend := by
    intro t
    unfold Station.doorEndsVend
    split
    · exact .ite (.refl t) (finishVend_steady t _ _)
    · exact .refl t
  have opened : Steady s { s with faults := { s.faults with doorOpen := true, doorTimer := 0 } } := rfl
  unfold Station.openDoor
  dsimp only
  refine .trans (.trans ?_ (panel_steady _ _)) (countDoor_steady _)
  refine .trans (.trans ?_ (payoutDoorOpens_steady _)) (clearBuffer_steady _)
  refine .trans (.trans ?_ (pick_steady _)) (settleClaim_steady _)
  exact .trans (opened.trans (ended _)) (removeEntries_steady _ _ _ _)

theorem closeDoor_steady : Steady s s.closeDoor := by
  unfold Station.closeDoor
  refine .trans (.trans ?_ (payoutDoorCloses_steady _)) (pick_steady _)
  rfl

end Door

section Followed

/-! ### The indicator after an event -/

/-- R91, R92, R198: the indicator describes the tubes while the station runs, and is not lit in OFFLINE. -/
def IndicatorRight (s : Station) : Prop :=
  (s.running = true → s.exactLit = (isPayment s.cfg && indicatorLit s.cfg.coinTypes s.coin.tubes)) ∧
    (s.line.state = .offline → s.exactLit = false)

/-- What a body does to the indicator: it leaves it with what it rests on, or makes it right itself. -/
def Followed (s t : Station) : Prop := Steady s t ∨ IndicatorRight t

theorem warmReset_right (s : Station) : IndicatorRight s.warmReset := ⟨fun h => (by cases h), fun _ => rfl⟩

theorem coldReset_right (s : Station) : IndicatorRight s.coldReset := ⟨fun h => (by cases h), fun _ => rfl⟩

theorem halt_right (s : Station) : IndicatorRight s.halt := ⟨fun h => (by cases h), fun h => (by cases h)⟩

theorem goLive_right (s : Station) (limitBefore : Nat) : IndicatorRight (s.goLive limitBefore) := by
  have state_eq : (s.goLive limitBefore).line.state = .listen := by
    have entered : s.enterListen.line.state = .listen := by
      unfold Station.enterListen
      rw [(sendMasks_line_audit _).1]
      exact state_of_kept (queueDeclare_kept _) (by decide)
    exact (state_of_kept (startCooling_kept s.enterListen limitBefore) (by decide)).trans entered
  exact ⟨fun _ => rfl, fun h => by rw [state_eq] at h; cases h⟩

theorem load_followed (s : Station) (mem : Memory) (inp : LoadInputs) : Followed s (s.load mem inp) := by
  unfold Station.load
  dsimp only
  split
  · exact .inr (goLive_right _ _)
  · exact .inl rfl

theorem runService_followed (s : Station) (c : ServiceCommand) : Followed s (s.runService c) := by
  have done : ∀ t, Steady s t → Followed s t.doneShown := fun t h => .inl (h.trans (showService_steady t _))
  have refused : Followed s s.refusedShown := .inl (showService_steady s _)
  have takenIf : ∀ (b : Bool) (effect : Station → Station), Steady s (effect s) → Followed s (s.takenIf b effect) := by
    intro b effect h
    cases b
    · exact refused
    · exact done _ h
  cases c with
  | ackAttention => exact done _ rfl
  | ackHold =>
    refine .inl (.ite (showService_steady s _) (.ite ?_ (showService_steady s _)))
    exact (setCooling_steady s _).trans (showService_steady _ _)
  | fillTube tube count =>
    refine takenIf _ _ (.trans (.trans (setTube_steady s tube fun _ => ?_) (writeJournal_steady _ _)) (noteTubesChanged_steady _))
    rfl
  | emptyTube tube =>
    refine takenIf _ _ (.trans (.trans (writeJournal_steady s _) (setTube_steady _ tube fun _ => ?_)) (noteTubesChanged_steady _))
    rfl
  | clearTube tube =>
    refine takenIf _ _ (.trans (setTube_steady s tube fun _ => ?_) (noteTubesChanged_steady _))
    rfl
  | refill => exact done _ (refill_steady s)
  | clearSpiral position => exact takenIf _ _ (setSpiral_steady s _ _)
  | testVend position =>
    refine .inl ?_
    change Steady s (s.testVend position)
    unfold Station.testVend
    split
    · exact showService_steady s _
    · exact (addTestEntry_steady s _).trans (showService_steady _ _)
  | manualDefrost => exact takenIf _ _ (requestDefrost_steady s)
  | clearCompressor => exact takenIf _ _ ((setCooling_steady s _).trans (enterRest_steady _))
  | forgetPeers => exact done _ (forgetPeers_steady s)
  | restart => exact .inr (warmReset_right s)
  | showAudit item => exact .inl (.ite rfl (showService_steady s _))

theorem Steady.followed {s t u : Station} (h : Steady s t) (k : Followed t u) : Followed s u := k.imp_left h.trans

theorem submit_followed (s : Station) (c : ServiceCommand) : Followed s (s.submit c) := by
  have submitted : Steady s s.serviceKey.submitted := rfl
  unfold Station.submit
  split
  · exact submitted.followed (runService_followed _ c)
  · exact .inl (.refl s)

theorem restart_followed (s : Station) : Followed s s.restart := by
  unfold Station.restart
  split
  · exact .inr (warmReset_right s)
  · exact submit_followed s _

theorem submitEntry_followed (s : Station) : Followed s s.submitEntry := by
  have submitted : Steady s s.submitted := rfl
  unfold Station.submitEntry
  split
  · exact submitted.followed (runService_followed _ _)
  · exact .inl (submitted.trans (showService_steady _ _))

theorem keyEnt_followed (s : Station) : Followed s (s.key id Station.submitEntry) := by
  have taken : Steady s s.keyTaken := rfl
  have service : Steady s s.serviceKey := rfl
  unfold Station.key
  split
  · exact .inl taken
  · split
    · exact service.followed (submitEntry_followed _)
    · exact .inl (.refl s)

/-- No command but the starts and the halt leaves the indicator behind: by the commands' own rules. -/
theorem exec_followed (c : Instr) (h : special c = false) (s : State) :
    ∃ b, exec c s = .next { s with station := finish s.station b } ∧ Followed s.station b := by
  have frame : ∀ {o : Station} {ok src dst apply handoff}, (∀ t, Steady t (handoff t)) →
      Steady o (o.takeFrame ok src dst apply id handoff) := fun hh => takeFrame_steady _ _ _ _ _ (fun t => .refl t) hh
  cases c with
  | powerOn => cases h
  | resetInput => cases h
  | loadEvent inp => cases h
  | powerFailWarning => cases h
  | savedBlockWritten complete => cases h
  | doorOpens held => exact ⟨_, rfl, .inl (ifHeld_steady _ (.ite (openDoor_steady _) (.refl _)))⟩
  | doorCloses held => exact ⟨_, rfl, .inl (ifHeld_steady _ (.ite (closeDoor_steady _) (.refl _)))⟩
  | doorLeftOpen => exact ⟨_, rfl, .inl (expire_steady _ fun _ => rfl)⟩
  | claimTimerExpiry => exact ⟨_, rfl, .inl (expire_steady _ fun _ => endVend_steady _ _)⟩
  | homeOpens held => exact ⟨_, rfl, .inl (ifHeld_steady _ (.ite (onVend_steady _ (homeOpens_steady _)) (.refl _)))⟩
  | homeCloses held => exact ⟨_, rfl, .inl (ifHeld_steady _ (.ite (onVend_steady _ (homeCloses_steady _)) (.refl _)))⟩
  | leaveHomeTimerExpiry => exact ⟨_, rfl, .inl (expire_steady _ fun _ => endVend_steady _ _)⟩
  | revolutionTimerExpiry => exact ⟨_, rfl, .inl (expire_steady _ fun _ => endVend_steady _ _)⟩
  | dropWindowExpiry => exact ⟨_, rfl, .inl (expire_steady _ fun _ => onVend_steady _ (windowEnds_steady _))⟩
  | jam currents => exact ⟨_, rfl, .inl (ifFound_steady _ currents fun t => onVend_steady t (jamTaken_steady t))⟩
  | shortCheck currents => exact ⟨_, rfl, .inl (ifFound_steady _ currents fun t => endVend_steady t _)⟩
  | openCheck currents => exact ⟨_, rfl, .inl (ifFound_steady _ currents fun t => endVend_steady t _)⟩
  | reversePauseEnd => exact ⟨_, rfl, .inl (expire_steady _ fun _ => onVend_steady _ fun _ => vend_steady _ _)⟩
  | reversingTimerExpiry => exact ⟨_, rfl, .inl (expire_steady _ fun _ => onVend_steady _ fun _ => vend_steady _ _)⟩
  | forwardPauseEnd => exact ⟨_, rfl, .inl (expire_steady _ fun _ => energise_steady _)⟩
  | dropEdge => exact ⟨_, rfl, .inl (.ite (beamBlocks_steady _) (.refl _))⟩
  | chuteActivityRateEnd => exact ⟨_, rfl, .inl (expire_steady _ fun _ => chute_steady _ _)⟩
  | chuteFault => exact ⟨_, rfl, .inl (expire_steady _ fun _ => chuteFaultBegins_steady _)⟩
  | chuteFaultClear => exact ⟨_, rfl, .inl (expire_steady _ fun _ => chute_steady _ _)⟩
  | commitTimerExpiry payer tag =>
    refine ⟨_, rfl, .inl ?_⟩
    dsimp only
    split
    · exact (advance_steady _ _).trans (queue_steady _ _)
    · exact .refl _
  | offer src dst tag tray column =>
    refine ⟨_, rfl, .inl (frame fun t => ?_)⟩
    have offered := queueOffer_steady t (.peer src) tag tray column
    unfold Station.takeOffer
    split <;> rename_i answered <;> rw [answered] at offered <;> exact offered.trans (hand_steady _ _ _)
  | commit src dst tag price =>
    refine ⟨_, rfl, .inl (frame fun t => ?_)⟩
    have committed := queueCommit_steady t (.peer src) tag price
    unfold Station.takeCommit
    split <;> rename_i answered <;> rw [answered] at committed
    · exact committed.trans (hand_steady _ _ _)
    · exact committed
  | withdraw src dst tag => exact ⟨_, rfl, .inl (frame fun t => queue_steady t _)⟩
  | accept src dst tag price queuePos => exact ⟨_, rfl, .inl (frame fun t => takeAccept_steady t _ _ _ _)⟩
  | refuse src dst tag reason => exact ⟨_, rfl, .inl (frame fun t => takeRefuse_steady t _ _ _)⟩
  | result src dst tag outcome drops => exact ⟨_, rfl, .inl (frame fun t => takeResult_steady t _ _ _ _)⟩
  | claim src dst cls rank value scale =>
    exact ⟨_, rfl, .inl (takeFrame_steady _ _ _ _ _ (fun t => recordClaim_steady t _ _ _) fun t => .refl t)⟩
  | release src dst cls => exact ⟨_, rfl, .inl (frame fun t => .refl t)⟩
  | declare src dst fields =>
    exact ⟨_, rfl, .inl (.ite (.trans (frame fun t => .refl t) (scheduleDeclare_steady _)) (frame fun t => .refl t))⟩
  | heartbeat src dst fields => exact ⟨_, rfl, .inl (frame fun t => .refl t)⟩
  | audit src dst block content => exact ⟨_, rfl, .inl (frame fun t => .refl t)⟩
  | auditQuery src dst block => exact ⟨_, rfl, .inl (takeQuery_steady _ _ _ _)⟩
  | auditQueryJournal src dst block => exact ⟨_, rfl, .inl (takeQuery_steady _ _ _ _)⟩
  | badFrame bits => exact ⟨_, rfl, .inl (.ite (audit_steady _ _) (.refl _))⟩
  | transmitStart recessive => exact ⟨_, rfl, .inl (.ite rfl (.refl _))⟩
  | lostContention head => exact ⟨_, rfl, .inl (.ite rfl (.refl _))⟩
  | transmitError => exact ⟨_, rfl, .inl (.ite (transmitError_steady _) (.refl _))⟩
  | brxDominant held => exact ⟨_, rfl, .inl (ifHeld_steady _ lineFault_steady)⟩
  | frameSent => exact ⟨_, rfl, .inl (.ite (frameSent_steady _) (.refl _))⟩
  | listenTimerExpiry =>
    exact ⟨_, rfl, .inl (expire_steady _ fun listens =>
      endListen_steady (running_of_advance _ (by simp_all [Station.running, LineState.running])))⟩
  | silenceTimerExpiry =>
    exact ⟨_, rfl, .inl (expire_steady _ fun active =>
      enterIsolated_steady (running_of_advance _ (by simp_all [Station.active, Station.running, LineState.running])) _)⟩
  | heartbeatTimerExpiry => exact ⟨_, rfl, .inl (expire_steady _ fun _ => .trans rfl (hand_steady _ _ _))⟩
  | probeTimerExpiry => exact ⟨_, rfl, .inl (expire_steady _ fun _ => .trans rfl (hand_steady _ _ _))⟩
  | declareTimerExpiry => exact ⟨_, rfl, .inl (expire_steady _ fun _ => .trans rfl (hand_steady _ _ _))⟩
  | declareDelayExpiry => exact ⟨_, rfl, .inl (expire_steady _ fun _ => .trans rfl (hand_steady _ _ _))⟩
  | peerSilent address =>
    refine ⟨_, rfl, .inl ?_⟩
    dsimp only
    split
    · exact expire_steady _ fun _ => agePeer_steady _ _ _ _
    · exact .refl _
  | peerGone address =>
    refine ⟨_, rfl, .inl ?_⟩
    dsimp only
    split
    · exact expire_steady _ fun _ => (agePeer_steady _ _ _ _).trans (raise_steady _ _)
    · exact .refl _
  | windowTimerExpiry =>
    refine ⟨_, rfl, .inl ?_⟩
    dsimp only
    split
    · refine expire_steady _ fun _ => ?_
      unfold Station.windowEndsNow
      split
      · exact decideWindow_steady _ _
      · exact .refl _
    · exact .refl _
  | backoffTimerExpiry cls =>
    refine ⟨_, rfl, .inl ?_⟩
    dsimp only
    split
    · exact expire_steady _ fun _ => power_steady _ _
    · exact .refl _
  | starved cls =>
    refine ⟨_, rfl, .inl ?_⟩
    dsimp only
    split
    · exact expire_steady _ fun _ => power_steady _ _
    · exact .refl _
  | coin coinType path => exact ⟨_, rfl, .inl (.ite (takeCoin_steady _ _ _) (.refl _))⟩
  | reject => exact ⟨_, rfl, .inl (.ite ((writeJournal_steady _ _).trans (txn_steady _ _)) (.refl _))⟩
  | fault code => exact ⟨_, rfl, .inl (.ite rfl (.refl _))⟩
  | status condition => exact ⟨_, rfl, .inl (.ite (takeStatus_steady _ _) (.refl _))⟩
  | statusTimerExpiry => exact ⟨_, rfl, .inl (expire_steady _ fun _ => .ite (.refl _) rfl)⟩
  | transmitterFree =>
    refine ⟨_, rfl, .inl ?_⟩
    have tubes_eq : s.station.coin.transmitterFree.tubes = s.station.coin.tubes := by
      unfold CoinUnit.transmitterFree
      split <;> rfl
    simp [Steady, indicatorBasis, tubes_eq]
  | tubeSensorChange tube sensor asserted held =>
    refine ⟨_, rfl, .inl (ifHeld_steady _ (.ite (setTube_steady _ tube fun r => ?_) (.refl _)))⟩
    cases sensor <;> simp only [Tube.sensed] <;> split <;> rfl
  | coutEdge held => exact ⟨_, rfl, .inl (ifHeld_steady _ (.ite (coutEdge_steady _) (.refl _)))⟩
  | pulseTimerExpiry => exact ⟨_, rfl, .inl (expire_steady _ fun _ => pulseEnds_steady _)⟩
  | miss => exact ⟨_, rfl, .inl (expire_steady _ fun _ => missCoin_steady _)⟩
  | pauseTimerExpiry => exact ⟨_, rfl, .inl (expire_steady _ fun _ => nextCoin_steady _)⟩
  | keyDigit digit =>
    exact ⟨_, rfl, .inl (.ite (key_steady _ (fun t => ifBufferOpen_steady t (bufferDigit_steady t _)) fun _ => rfl) (.refl _))⟩
  | keyCab =>
    exact ⟨_, rfl, .inl (key_steady _ (fun t => .ite (ifBufferOpen_steady t (panel_steady t _)) (.refl t)) fun t => .refl t)⟩
  | keyClr => exact ⟨_, rfl, .inl (key_steady _ (fun t => ifBufferOpen_steady t (clearBuffer_steady t)) fun _ => rfl)⟩
  | keyRet =>
    exact ⟨_, rfl, .inl (key_steady _
      (fun t => .ite ((ifBufferOpen_steady t (clearBuffer_steady t)).trans (returnKey_steady _)) (.refl t)) fun t => .refl t)⟩
  | keyNext => exact ⟨_, rfl, .inl (key_steady _ (fun t => .refl t) fun _ => rfl)⟩
  | keyPrev => exact ⟨_, rfl, .inl (key_steady _ (fun t => .refl t) fun _ => rfl)⟩
  | bufferTimeout => exact ⟨_, rfl, .inl (expire_steady _ fun _ => clearBuffer_steady _)⟩
  | entryTimeout => exact ⟨_, rfl, .inl (expire_steady _ fun _ => rfl)⟩
  | answerTimerExpiry =>
    exact ⟨_, rfl, .inl (expire_steady _ fun _ => (showCustomer_steady _ _ _).trans (toResting_steady _))⟩
  | resultTimerExpiry =>
    refine ⟨_, rfl, .inl (expire_steady _ fun _ => .trans ?_ (giveUpSale_steady _))⟩
    unfold Station.withdrawSale
    split
    · exact withdrawFrom_steady _ _ _
    · exact .refl _
  | inactivityTimeout => exact ⟨_, rfl, .inl (expire_steady _ fun _ => rfl)⟩
  | messageTimeEnd => exact ⟨_, rfl, .inl (expire_steady _ fun _ => panel_steady _ _)⟩
  | displayAlternation => exact ⟨_, rfl, .inl (expire_steady _ fun _ => panel_steady _ _)⟩
  | lampFlash => exact ⟨_, rfl, .inl (expire_steady _ fun _ => rfl)⟩
  | sensorSample sensor code => exact ⟨_, rfl, .inl (expire_steady _ fun _ => takeSample_steady _ _ _)⟩
  | minimumOffTimeEnd => exact ⟨_, rfl, .inl (expire_steady _ fun _ => leaveRest_steady _)⟩
  | inrushEnd => exact ⟨_, rfl, .inl (expire_steady _ fun _ => (setCooling_steady _ _).trans (request_steady _ _ _))⟩
  | minimumOnTimeEnd => exact ⟨_, rfl, .inl (expire_steady _ fun _ => .ite (normalStop_steady _) (.refl _))⟩
  | runHour => exact ⟨_, rfl, .inl (expire_steady _ fun _ => (setCooling_steady _ _).trans (audit_steady _ _))⟩
  | lockoutTimerExpiry => exact ⟨_, rfl, .inl (expire_steady _ fun _ => enterRest_steady _)⟩
  | dutyTimerExpiry => exact ⟨_, rfl, .inl (expire_steady _ fun _ => changeDuty_steady _)⟩
  | runTime => exact ⟨_, rfl, .inl (expire_steady _ fun _ => (setCooling_steady _ _).trans (causeMet_steady _ _))⟩
  | coilIce => exact ⟨_, rfl, .inl (expire_steady _ fun _ => (setCooling_steady _ _).trans (causeMet_steady _ _))⟩
  | heaterWaitTimerExpiry =>
    exact ⟨_, rfl, .inl (expire_steady _ fun _ => (setCooling_steady _ _).trans (withdrawRequest_steady _ _))⟩
  | defrostTimerExpiry => exact ⟨_, rfl, .inl (expire_steady _ fun _ => terminateDefrost_steady _)⟩
  | dripTimerExpiry => exact ⟨_, rfl, .inl (expire_steady _ fun _ => (setCooling_steady _ _).trans (enterRest_steady _))⟩
  | coldHold => exact ⟨_, rfl, .inl (expire_steady _ fun _ => beginColdHold_steady _)⟩
  | ackAttention => exact ⟨_, rfl, submit_followed _ _⟩
  | ackHold => exact ⟨_, rfl, submit_followed _ _⟩
  | fillTube tube count => exact ⟨_, rfl, submit_followed _ _⟩
  | emptyTube tube => exact ⟨_, rfl, submit_followed _ _⟩
  | clearTube tube => exact ⟨_, rfl, submit_followed _ _⟩
  | refill => exact ⟨_, rfl, submit_followed _ _⟩
  | clearSpiral position => exact ⟨_, rfl, submit_followed _ _⟩
  | testVend position => exact ⟨_, rfl, submit_followed _ _⟩
  | manualDefrost => exact ⟨_, rfl, submit_followed _ _⟩
  | clearCompressor => exact ⟨_, rfl, submit_followed _ _⟩
  | forgetPeers => exact ⟨_, rfl, submit_followed _ _⟩
  | restart => exact ⟨_, rfl, restart_followed _⟩
  | showAudit item => exact ⟨_, rfl, submit_followed _ _⟩
  | keyEnt => exact ⟨_, rfl, keyEnt_followed _⟩
  | beamClears => exact ⟨_, rfl, .inl (.ite (setBeam_steady _ _) (.refl _))⟩
end Followed

section Indicator

/-! ### The evaluation at the end of an event (R91) -/

/-- The levels of a search read of a tube what R91 watches, and its denomination. -/
theorem levelsFrom_congr {ts us : List Tube} (hw : ts.map tubeWatch = us.map tubeWatch)
    (hd : ts.map Tube.denomination = us.map Tube.denomination) (number : Nat) (levels : List Level) :
    levelsFrom number levels ts = levelsFrom number levels us := by
  induction ts generalizing us number levels with
  | nil =>
    cases us with
    | nil => rfl
    | cons u us => simp at hw
  | cons t ts ih =>
    cases us with
    | nil => simp at hw
    | cons u us =>
      simp only [List.map_cons, List.cons.injEq] at hw hd
      obtain ⟨watch_eq, hw⟩ := hw
      obtain ⟨denomination_eq, hd⟩ := hd
      simp only [tubeWatch, Prod.mk.injEq] at watch_eq
      obtain ⟨fitted_eq, estimate_eq, status_eq⟩ := watch_eq
      simp only [levelsFrom, tubeUsable, fitted_eq, estimate_eq, status_eq, denomination_eq]
      exact ih hw hd _ _

theorem indicatorLit_congr {ts us : List Tube} (hw : ts.map tubeWatch = us.map tubeWatch)
    (hd : ts.map Tube.denomination = us.map Tube.denomination) (types : List CoinType) :
    indicatorLit types ts = indicatorLit types us := by
  simp [indicatorLit, payableExactly, levelsOf, levelsFrom_congr hw hd]

variable {o s t : Station}

theorem Steady.fields (h : Steady s t) :
    t.exactLit = s.exactLit ∧ t.cfg = s.cfg ∧ t.coin.tubes.map Tube.denomination = s.coin.tubes.map Tube.denomination ∧
      t.running = s.running ∧ (t.line.state = .offline ↔ s.line.state = .offline) := by
  simpa [Steady, indicatorBasis, Station.running] using h

/-- Where what R91 watches is kept as well, the indicator stays right. -/
theorem IndicatorRight.steady (h : IndicatorRight s) (k : Steady s t)
    (hw : t.coin.tubes.map tubeWatch = s.coin.tubes.map tubeWatch) : IndicatorRight t := by
  obtain ⟨lit_eq, cfg_eq, denominations_eq, running_eq, offline_iff⟩ := k.fields
  obtain ⟨running_lit, offline_dark⟩ := h
  refine ⟨fun running => ?_, fun offline => lit_eq.trans (offline_dark (offline_iff.mp offline))⟩
  rw [lit_eq, cfg_eq, indicatorLit_congr hw denominations_eq]
  exact running_lit (running_eq ▸ running)

theorem not_offline_of_running (h : s.running = true) : s.line.state ≠ .offline := by
  intro offline
  simp [Station.running, offline, LineState.running] at h

theorem evaluateIndicator_right (h : s.running = true) : IndicatorRight s.evaluateIndicator :=
  ⟨fun _ => rfl, fun offline => absurd offline (not_offline_of_running h)⟩

/-- R91: a payment station evaluates when a tube has changed since the event began, and else nothing it reads has. -/
theorem evaluateIfChanged_right (h : IndicatorRight o) (k : Followed o s) : IndicatorRight (s.evaluateIfChanged o) := by
  unfold Station.evaluateIfChanged
  split
  · rename_i changed
    simp only [Bool.and_eq_true] at changed
    exact evaluateIndicator_right changed.1.2
  · rename_i unchanged
    rcases k with steady | right
    · by_cases watch_eq : s.coin.tubes.map tubeWatch = o.coin.tubes.map tubeWatch
      · exact h.steady steady watch_eq
      · obtain ⟨lit_eq, cfg_eq, -, running_eq, offline_iff⟩ := steady.fields
        obtain ⟨running_lit, offline_dark⟩ := h
        refine ⟨fun running => ?_, fun offline => lit_eq.trans (offline_dark (offline_iff.mp offline))⟩
        have not_payment : isPayment s.cfg = false := by simpa [running, watch_eq] using unchanged
        rw [lit_eq, running_lit (running_eq ▸ running), ← cfg_eq, not_payment, Bool.false_and, Bool.false_and]
    · exact right

end Indicator

section Settling

/-! ### The end of an event settles the station -/

/-- What follows the masks in the end of an event writes flags, lamp, alternation and pins alone. -/
theorem drive_shape (s : Station) : ∃ standing noticed lamp on flash alternation second timer pins,
    s.updateConditions.driveOutputs = { s with
      faults := { s.faults with
        standing := standing, noticed := noticed, lamp := lamp, flashOn := on, flashTimer := flash }
      panel := { s.panel with alternation := alternation, secondShown := second, alternationTimer := timer }
      pins := pins } := by
  unfold Station.driveOutputs
  obtain ⟨_, _, flags⟩ := updateConditions_shape s
  rw [flags]
  obtain ⟨_, _, _, lamp⟩ := driveLamp_shape { s with faults := _ }
  rw [lamp]
  obtain ⟨_, _, _, alternation⟩ := driveAlternation_shape { s with faults := _ }
  rw [alternation]
  exact ⟨_, _, _, _, _, _, _, _, _, rfl⟩

theorem resetIce_steady (s : Station) : Steady s s.resetIce := by
  obtain ⟨_, ice, _⟩ := resetIce_shape s
  rw [ice]
  rfl

theorem drive_steady (s : Station) : Steady s s.updateConditions.driveOutputs := by
  obtain ⟨_, _, _, _, _, _, _, _, _, driven⟩ := drive_shape s
  rw [driven]
  rfl

theorem finish_steady (o s : Station) : Steady (s.evaluateIfChanged o) (finish o s) := by
  unfold finish
  refine .trans ?_ (drive_steady _)
  refine .trans ?_ (.masks (sendChangedMasks_masks _))
  exact .trans (.grants (admit_grants _)) (resetIce_steady _)

theorem finish_right {o s : Station} (h : IndicatorRight (s.evaluateIfChanged o)) : IndicatorRight (finish o s) := by
  refine h.steady (finish_steady o s) ?_
  obtain ⟨_, evaluated⟩ := evaluateIfChanged_shape s o
  rw [show (finish o s).coin.tubes = s.coin.tubes from finish_same o s .tubes, evaluated]

/-- R59: the sets handed to the transmitter are those of R61 and R62. -/
def MasksSent (s : Station) : Prop :=
  s.coinUnitWorks = true → s.coin.lastInhibit = s.inhibitSet ∧ s.coin.lastRoute = s.routeSet

theorem sendInhibit_sets (s : Station) (types : List Nat) :
    (s.sendInhibit types).coin.lastInhibit = types ∧ (s.sendInhibit types).coin.lastRoute = s.coin.lastRoute := by
  unfold Station.sendInhibit
  split <;> exact ⟨rfl, rfl⟩

theorem sendRoute_sets (s : Station) (types : List Nat) :
    (s.sendRoute types).coin.lastRoute = types ∧ (s.sendRoute types).coin.lastInhibit = s.coin.lastInhibit := by
  unfold Station.sendRoute
  split <;> exact ⟨rfl, rfl⟩

theorem Masks.sets {s t : Station} (h : Masks s t) : t.inhibitSet = s.inhibitSet ∧ t.routeSet = s.routeSet := by
  obtain ⟨_, _, _, _, _, rfl⟩ := h
  exact ⟨rfl, rfl⟩

theorem sendChangedMasks_sent (s : Station) : MasksSent s.sendChangedMasks := by
  intro works
  have sets := Masks.sets (sendChangedMasks_masks s)
  rw [sets.1, sets.2]
  have sends : (isPayment s.cfg && s.running) = true := by
    obtain ⟨_, _, _, _, _, shape⟩ := sendChangedMasks_masks s
    rw [shape] at works
    rw [Bool.and_comm]
    exact works
  unfold Station.sendChangedMasks
  rw [if_pos sends]
  dsimp only
  have inhibit : ∃ t, (if s.inhibitSet = s.coin.lastInhibit then s else s.sendInhibit s.inhibitSet) = t ∧ Masks s t ∧
      t.coin.lastInhibit = s.inhibitSet := by
    split
    · exact ⟨s, rfl, Masks.refl s, Eq.symm ‹_›⟩
    · exact ⟨_, rfl, sendInhibit_masks s _, (sendInhibit_sets s _).1⟩
  obtain ⟨t, sent, masks, inhibit_eq⟩ := inhibit
  rw [sent, (Masks.sets masks).2]
  split
  · exact ⟨inhibit_eq, Eq.symm ‹_›⟩
  · exact ⟨(sendRoute_sets t _).2.trans inhibit_eq, (sendRoute_sets t _).1⟩

theorem driveOutputs_pins (s : Station) : s.driveOutputs.pins = s.driveOutputs.outputs := rfl

theorem driveOutputs_lamp (s : Station) : s.driveOutputs.faults.lamp = s.driveOutputs.lampMode := by
  have driven : s.driveLamp.faults.lamp = s.driveLamp.lampMode := by
    unfold Station.driveLamp
    split
    · exact Eq.symm ‹_›
    · rfl
  obtain ⟨_, _, _, alternation⟩ := driveAlternation_shape s.driveLamp
  unfold Station.driveOutputs
  rw [alternation]
  exact driven

theorem driveOutputs_alternation (s : Station) : s.driveOutputs.panel.alternation = s.driveOutputs.alternates := by
  have driven : s.driveLamp.driveAlternation.panel.alternation = s.driveLamp.driveAlternation.alternates := by
    generalize s.driveLamp = t
    unfold Station.driveAlternation
    split
    · exact Eq.symm ‹_›
    · rfl
  exact driven

/-- The conditions stand as their sources hold them. -/
def ConditionsTaken (s : Station) : Prop :=
  s.keepsConditions = true → s.faults.standing = allConditions.filter s.holds

theorem holds_congr {s t : Station} (h : ∀ c, t.holds c = s.holds c) : allConditions.filter t.holds = allConditions.filter s.holds :=
  List.filter_congr fun c _ => h c

theorem updateConditions_taken (s : Station) : ConditionsTaken s.updateConditions := by
  unfold Station.updateConditions
  split
  · intro _
    refine (holds_congr fun c => ?_).symm
    cases c <;> rfl
  · intro keeps
    contradiction

theorem driveOutputs_taken {s : Station} (h : ConditionsTaken s) : ConditionsTaken s.driveOutputs := by
  unfold Station.driveOutputs
  obtain ⟨_, _, _, lamp⟩ := driveLamp_shape s
  rw [lamp]
  obtain ⟨_, _, _, alternation⟩ := driveAlternation_shape { s with faults := _ }
  rw [alternation]
  intro keeps
  refine (h keeps).trans (holds_congr fun c => ?_)
  cases c <;> rfl

/-- The stages of the end of an event that settle it. -/
theorem finish_stages (o s : Station) : ∃ t : Station, finish o s = t.sendChangedMasks.updateConditions.driveOutputs := by
  unfold finish
  exact ⟨_, rfl⟩

/-- The end of an event settles everything but the indicator, which the body has to follow. -/
theorem finish_settled {o s : Station} (h : IndicatorRight o) (k : Followed o s) : Settled (finish o s) := by
  obtain ⟨running_lit, offline_dark⟩ := finish_right (evaluateIfChanged_right h k)
  obtain ⟨t, stages⟩ := finish_stages o s
  rw [stages] at running_lit offline_dark ⊢
  have sent : MasksSent t.sendChangedMasks.updateConditions.driveOutputs := by
    obtain ⟨_, _, _, _, _, _, _, _, _, driven⟩ := drive_shape t.sendChangedMasks
    rw [driven]
    exact sendChangedMasks_sent t
  exact ⟨driveOutputs_pins _, driveOutputs_lamp _, driveOutputs_alternation _, sent, running_lit, offline_dark,
    driveOutputs_taken (updateConditions_taken _)⟩

theorem Settled.right {s : Station} (h : Settled s) : IndicatorRight s := by
  obtain ⟨-, -, -, -, running_lit, offline_dark, -⟩ := h
  exact ⟨running_lit, offline_dark⟩

end Settling

theorem countWrite_right {s : Station} (h : IndicatorRight s) : IndicatorRight s.countWrite := h

/-- What a command does to the station: nothing, or an event whose body follows the indicator. -/
theorem exec_settles (c : Instr) (s t : State) (h : exec c s = .next t) :
    t.station = s.station ∨ ∃ b, t.station = finish s.station b ∧ Followed s.station b := by
  have cold : (coldStart s).station = finish s.station s.station.coldReset := by
    unfold coldStart
    rfl
  cases hs : special c with
  | false =>
    obtain ⟨b, executed, followed⟩ := exec_followed c hs s
    rw [executed] at h
    cases h
    exact .inr ⟨b, rfl, followed⟩
  | true =>
    cases c with
    | powerOn =>
      cases h
      exact .inr ⟨_, cold, .inr (coldReset_right _)⟩
    | resetInput =>
      rcases resetInput_cases s with executed | executed <;> rw [executed] at h <;>
        obtain rfl := Host.Outcome.next.inj h
      · exact .inr ⟨_, cold, .inr (coldReset_right _)⟩
      · exact .inr ⟨_, event_station s _, .inr (warmReset_right _)⟩
    | loadEvent inp =>
      rcases loadEvent_cases inp s with executed | executed <;> rw [executed] at h <;>
        obtain rfl := Host.Outcome.next.inj h
      · exact .inl rfl
      · exact .inr ⟨_, rfl, load_followed _ _ _⟩
    | powerFailWarning =>
      rcases powerFailWarning_cases s with executed | executed | executed <;> rw [executed] at h <;>
        obtain rfl := Host.Outcome.next.inj h
      · exact .inl rfl
      · exact .inr ⟨s.station.halt.countWrite, rfl, .inr (countWrite_right (halt_right s.station))⟩
      · exact .inr ⟨s.station.halt, event_station s _, .inr (halt_right s.station)⟩
    | savedBlockWritten complete =>
      rcases savedBlockWritten_cases complete s with executed | ⟨_, _, executed⟩ <;> rw [executed] at h <;>
        obtain rfl := Host.Outcome.next.inj h <;> exact .inl rfl
    | _ => cases hs

/-- Settles O6: the end of an event settles the station, and no command leaves the indicator behind. -/
theorem stepKeepsStationSettled : Obligations.StepKeepsStationSettled := by
  unfold Obligations.StepKeepsStationSettled
  intro s t settled stepped
  cases waiting : s.pending with
  | nil =>
    rw [step_idle s waiting] at stepped
    cases stepped
    rw [event_station]
    exact finish_settled (Settled.right settled) (.inl (advance_steady _ _))
  | cons c rest =>
    have executed : exec c (s.withPending rest) = .next t := by
      rw [← stepped, step, waiting]
    rcases exec_settles c _ t executed with same | ⟨b, ended, followed⟩
    · rw [same]
      exact settled
    · rw [ended]
      exact finish_settled (Settled.right settled) followed

end Sys2Proof.Proofs

/-! SUPPORT. How a sale ends (R94, R117, R118, R122), for the ends of vends and the chute fault (O19 to O23): the plan of a
return payout, the payout begun, and a sale taken or failed, with what of a station each rests on. -/

namespace Sys2Proof.Proofs

open Sys2Proof.Machine Sys2Proof.Laws

section Plans

/-! ### Plans (R81, R88, R95) -/

/-- Every level has a tube. -/
def LevelsFilled (levels : List Level) : Prop := ∀ l ∈ levels, l.tubes ≠ []

theorem insertLevel_filled (number denomination estimate : Nat) {levels : List Level} (h : LevelsFilled levels) :
    LevelsFilled (insertLevel number denomination estimate levels) := by
  induction levels with
  | nil => simp [LevelsFilled, insertLevel]
  | cons l rest ih =>
    simp only [LevelsFilled, List.forall_mem_cons] at h ih ⊢
    unfold insertLevel
    split
    · simpa using h.2
    · split
      · simpa using h
      · simpa using ⟨h.1, ih h.2⟩

theorem levelsFrom_filled (tubes : List Tube) (number : Nat) {levels : List Level} (h : LevelsFilled levels) :
    LevelsFilled (levelsFrom number levels tubes) := by
  induction tubes generalizing number levels with
  | nil => exact h
  | cons t rest ih =>
    unfold levelsFrom
    refine ih _ ?_
    split
    · exact insertLevel_filled _ _ _ h
    · exact h

theorem insertTube_ne_nil (t : Nat × Nat) (tubes : List (Nat × Nat)) : insertTube t tubes ≠ [] := by
  cases tubes with
  | nil => simp [insertTube]
  | cons u rest =>
    unfold insertTube
    split <;> simp

theorem orderTubes_ne_nil {tubes : List (Nat × Nat)} (h : tubes ≠ []) : orderTubes tubes ≠ [] := by
  obtain ⟨init, last, rfl⟩ := (List.eq_nil_or_concat tubes).resolve_left h
  unfold orderTubes
  rw [List.concat_eq_append, List.foldl_concat]
  exact insertTube_ne_nil _ _

theorem allot_ne_nil (count : Nat) {tubes : List (Nat × Nat)} (h : tubes ≠ []) : allot count tubes ≠ [] := by
  cases tubes with
  | nil => exact absurd rfl h
  | cons t rest => simp [allot]

/-- Every entry of a plan has coins to pay and a tube to pay them from. -/
theorem mapPlan_entry {levels : List Level} (h : LevelsFilled levels) (counts : List Nat) :
    ∀ e ∈ mapPlan levels counts, e.count ≠ 0 ∧ e.tubes ≠ [] := by
  induction levels generalizing counts with
  | nil => simp [mapPlan]
  | cons l rest ih =>
    simp only [LevelsFilled, List.forall_mem_cons] at h ih
    cases counts with
    | nil => simp [mapPlan]
    | cons k counts =>
      unfold mapPlan
      split
      · exact ih h.2 counts
      · rename_i some_coins
        simpa using ⟨⟨some_coins, allot_ne_nil k (orderTubes_ne_nil h.1)⟩, ih h.2 counts⟩

/-- A plan that is not empty begins with a run that has a tube. -/
theorem currentRun_payoutPlan {tubes : List Tube} {amount : Nat} (h : payoutPlan tubes amount ≠ []) :
    ∃ run, currentRun (payoutPlan tubes amount) = some run ∧ run.tubes ≠ [] := by
  have entries := mapPlan_entry (levelsFrom_filled tubes 1 (levels := []) (by simp [LevelsFilled]))
    (searchLevels (levelsOf tubes) amount).counts
  change ∀ e ∈ payoutPlan tubes amount, _ at entries
  cases planned : payoutPlan tubes amount with
  | nil => exact absurd planned h
  | cons e rest =>
    rw [planned, List.forall_mem_cons] at entries
    exact ⟨e, by simp [currentRun, entries.1.1], entries.1.2⟩

theorem runStartTube_isSome (s : Station) {run : PlanEntry} (h : run.tubes ≠ []) : ∃ tube, runStartTube s run = some tube := by
  unfold runStartTube
  split
  · exact ⟨_, rfl⟩
  · cases tubes : run.tubes with
    | nil => exact absurd tubes h
    | cons t rest => exact ⟨_, rfl⟩

end Plans

section Payouts

/-! ### A payout begun (R94, R122) -/

/-- R94, R95: the payout record of an amount with its plan over the station's tubes taken and its first run begun. -/
def plannedPayout (s : Station) (amount : Nat) : Payout :=
  { Payout.blank with
    state := .running, amount := amount, plan := payoutPlan s.coin.tubes amount
    currentTube := (currentRun (payoutPlan s.coin.tubes amount)).bind (runStartTube s)
    pulseOn := s.payout.pulseOn, pulseTimer := s.payout.pulseTimer }

/-- R94: a payout begun with none held. -/
theorem startPayout_of_idle {s : Station} (idle : s.payout.state = .idle) (amount : Nat) :
    s.startPayout amount =
      if payoutPlan s.coin.tubes amount = [] then ({ s with payout := plannedPayout s amount }).endPayout
      else if s.faults.doorOpen then ({ s with payout := plannedPayout s amount }).stopPayout
      else ({ s with payout := plannedPayout s amount }).nextCoin := by
  have planned : ({ s with payout := { Payout.blank with
      state := .running, amount := amount, pulseOn := s.payout.pulseOn, pulseTimer := s.payout.pulseTimer } }).takePlan =
      { s with payout := plannedPayout s amount } := by
    unfold Station.takePlan Station.beginRun plannedPayout
    dsimp only
    simp only [Nat.sub_zero, Payout.blank]
    cases currentRun (payoutPlan s.coin.tubes amount) <;> rfl
  unfold Station.startPayout
  rw [if_pos idle]
  dsimp only
  rw [planned]
  rfl

/-- R96: the first coin of a plan begins. -/
theorem beginCoin_plannedPayout {s : Station} {amount : Nat} (h : payoutPlan s.coin.tubes amount ≠ []) :
    ∃ tube, ({ s with payout := plannedPayout s amount }).beginCoin = { s with payout := { plannedPayout s amount with
      currentTube := some tube, phase := .pulse, pulseOn := some tube, pulseTimer := 0, windowTimer := 0 } } := by
  obtain ⟨run, current, tubes⟩ := currentRun_payoutPlan h
  obtain ⟨tube, start⟩ := runStartTube_isSome s tubes
  have planned_tube : (plannedPayout s amount).currentTube = some tube := by simp [plannedPayout, current, start]
  unfold Station.beginCoin
  dsimp only
  rw [show currentRun (plannedPayout s amount).plan = some run from current, planned_tube]
  exact ⟨_, rfl⟩

/-- What a return payout in `t` that begins in `w` rests on, as it stood in `u`. -/
structure ReturnFrom (u w : Station) : Prop where
  payout : w.payout = u.payout
  tubes : w.coin.tubes = u.coin.tubes
  door : w.faults.doorOpen = u.faults.doorOpen
  shortPays : w.audit.shortPayValue = u.audit.shortPayValue
  free : u.faults.active = none → u.faults.pendingNotice = none → w.faults.active = none ∨ w.faults.pendingNotice = none

theorem ReturnFrom.refl (u : Station) : ReturnFrom u u := ⟨rfl, rfl, rfl, rfl, fun free _ => .inl free⟩

theorem ReturnFrom.of_kept {l : List Region} {u w t : Station} (h : ReturnFrom u w) (k : Kept l w t)
    (hl : ∀ r ∈ [Region.payout, .tubes, .door, .counters, .latch], r ∉ l) : ReturnFrom u t := by
  have owned_eq : t.audit.owned = w.audit.owned := k _ (hl .counters (by decide))
  have latch_eq := Prod.mk.inj (show (t.faults.active, t.faults.pendingNotice, t.audit.dropped) = _ from
    k _ (hl .latch (by decide)))
  have pending_eq := (Prod.mk.inj latch_eq.2).1
  refine ⟨(show t.payout = w.payout from k _ (hl .payout (by decide))).trans h.payout,
    (show t.coin.tubes = w.coin.tubes from k _ (hl .tubes (by decide))).trans h.tubes,
    (doorOpen_of_kept (k _ (hl .door (by decide)))).trans h.door,
    (show t.audit.owned.shortPayValue = _ by rw [owned_eq]; exact h.shortPays), ?_⟩
  rw [latch_eq.1, pending_eq]
  exact h.free

/-- R188: a notice that finds a free place has it. -/
theorem raise_placed {s : Station} (n : Notice) (h : s.faults.active = none ∨ s.faults.pendingNotice = none) :
    (s.raise n).faults.active = some n ∨ (s.raise n).faults.pendingNotice = some n := by
  unfold Station.raise
  cases ha : s.faults.active <;> cases hp : s.faults.pendingNotice <;> simp_all

@[simp] theorem raise_payout (s : Station) (n : Notice) : (s.raise n).payout = s.payout := raise_kept s n .payout (by decide)
@[simp] theorem raise_txn (s : Station) (n : Notice) : (s.raise n).txn = s.txn := raise_kept s n .txn (by decide)

@[simp] theorem raise_shortPayValue (s : Station) (n : Notice) :
    (s.raise n).audit.shortPayValue = s.audit.shortPayValue := by
  obtain ⟨_, _, _, h⟩ := raise_shape s n
  rw [h]

/-- R101, R122: the end of a payout with a remainder. -/
theorem endPayout_ended {u w : Station} (h : ReturnFrom u w) (p : Payout) (hc : w.txn.credit = u.txn.credit) :
    PayoutEnded u ({ w with payout := p }).endPayout (p.amount - p.paid) := by
  unfold Station.endPayout Station.payoutDone PayoutEnded
  dsimp only
  split
  · rename_i paid
    rw [paid]
    exact ⟨rfl, by rw [← hc]; rfl, rfl, rfl, fun _ => h.shortPays, fun left => absurd rfl left⟩
  · rename_i left
    refine ⟨?_, ?_, ?_, ?_, fun paid => absurd paid left, fun _ => ⟨?_, fun active pending => ?_⟩⟩
    · simp only [raise_payout]
      rfl
    · simp only [raise_txn]
      rw [← hc]
      rfl
    · simp only [raise_txn]
      rfl
    · simp only [raise_txn]
      rfl
    · simp only [raise_shortPayValue]
      rw [← h.shortPays]
      rfl
    · exact raise_placed _ (h.free active pending)

theorem endPayout_returnRequested (s : Station) : s.endPayout.txn.returnRequested = false := by
  unfold Station.endPayout Station.payoutDone
  dsimp only
  split
  · rfl
  · rw [raise_txn]
    rfl

theorem nextCoin_txn (s : Station) : s.nextCoin.txn = s.txn := nextCoin_kept s .txn (by decide)

/-- R122: the station with its credit handed to a return payout. -/
def creditHanded (s : Station) : Station :=
  { s with txn := { s.txn with credit := 0, state := .paying, offer := none, returnRequested := false } }

theorem returnPayout_eq (s : Station) : s.returnPayout = (creditHanded s).startPayout s.txn.credit := rfl

/-- R94, R122: a return of all credit with no payout held. -/
theorem returnAll_returned {u w : Station} (h : ReturnFrom u w) (idle : u.payout.state = .idle) :
    Returned u w.returnAll w.txn.credit := by
  unfold Station.returnAll
  split
  · rename_i nothing
    refine ⟨rfl, fun _ => ⟨nothing, ?_, rfl, h.payout⟩, fun some_credit => absurd nothing some_credit,
      fun some_credit => absurd nothing some_credit⟩
    simp [Station.toResting, restingState, nothing]
  · rename_i some_credit
    have handed : ReturnFrom u (creditHanded w) := ⟨h.payout, h.tubes, h.door, h.shortPays, h.free⟩
    have planned_eq : payoutPlan (creditHanded w).coin.tubes w.txn.credit = payoutPlan u.coin.tubes w.txn.credit :=
      congrArg (payoutPlan · w.txn.credit) h.tubes
    have door_eq : (creditHanded w).faults.doorOpen = u.faults.doorOpen := h.door
    have held_none : (creditHanded w).payout.state = .idle := (congrArg Payout.state h.payout).trans idle
    rw [returnPayout_eq, startPayout_of_idle held_none, planned_eq, door_eq]
    by_cases unpayable : payoutPlan u.coin.tubes w.txn.credit = []
    · rw [if_pos unpayable]
      have ended := endPayout_ended (u := { u with txn := { u.txn with credit := 0 } }) (w := creditHanded w)
        ⟨h.payout, h.tubes, h.door, h.shortPays, h.free⟩ (plannedPayout (creditHanded w) w.txn.credit) rfl
      exact ⟨endPayout_returnRequested _, fun nothing => absurd nothing some_credit, fun _ _ => ended,
        fun _ payable => absurd unpayable payable⟩
    · rw [if_neg unpayable]
      cases door : u.faults.doorOpen with
      | true =>
        rw [if_pos rfl]
        exact ⟨rfl, fun nothing => absurd nothing some_credit, fun _ none_planned => absurd none_planned unpayable,
          fun _ _ => ⟨rfl, rfl, rfl, rfl, rfl, planned_eq, rfl, rfl, fun _ => ⟨rfl, rfl, rfl⟩,
            fun closed => absurd (door.symm.trans closed) (by decide)⟩⟩
      | false =>
        rw [if_neg Bool.false_ne_true]
        have shut : u.faults.doorOpen ≠ true := ne_true_of_eq_false door
        have pulse_eq : (plannedPayout (creditHanded w) w.txn.credit).pulseOn = u.payout.pulseOn :=
          (congrArg Payout.pulseOn h.payout : w.payout.pulseOn = u.payout.pulseOn)
        unfold Station.nextCoin
        dsimp only
        rw [pulse_eq]
        cases pulse : u.payout.pulseOn with
        | none =>
          obtain ⟨tube, begun⟩ := beginCoin_plannedPayout (s := creditHanded w) (amount := w.txn.credit)
            (by rw [planned_eq]; exact unpayable)
          dsimp only
          rw [begun]
          exact ⟨rfl, fun nothing => absurd nothing some_credit, fun _ none_planned => absurd none_planned unpayable,
            fun _ _ => ⟨rfl, rfl, rfl, rfl, rfl, planned_eq, rfl, rfl, fun opened => absurd opened shut,
              fun _ => ⟨rfl, rfl, fun _ => ⟨rfl, rfl⟩⟩⟩⟩
        | some tube =>
          exact ⟨rfl, fun nothing => absurd nothing some_credit, fun _ none_planned => absurd none_planned unpayable,
            fun _ _ => ⟨rfl, rfl, rfl, rfl, rfl, planned_eq, rfl, rfl, fun opened => absurd opened shut,
              fun _ => ⟨rfl, rfl, fun off => absurd (pulse.symm.trans off) (Option.some_ne_none tube)⟩⟩⟩

end Payouts

section Sales

/-! ### A sale settled (R117, R118) -/

/-- In `w` the sale of `u` is still to be settled: what its settlement rests on is as in `u`, and of two notices one finds a
free place (R188). -/
structure SaleOpen (u w : Station) : Prop extends ReturnFrom u w where
  txn : w.txn = u.txn
  cfg : w.cfg = u.cfg
  sales : w.audit.salesCount = u.audit.salesCount
  value : w.audit.salesValue = u.audit.salesValue

/-- What the settlement of a sale has left in `w` is still so in `t`. -/
structure SaleKept (w t : Station) : Prop where
  txn : t.txn = w.txn
  payout : t.payout = w.payout
  sales : t.audit.salesCount = w.audit.salesCount
  value : t.audit.salesValue = w.audit.salesValue
  shortPays : t.audit.shortPayValue = w.audit.shortPayValue
  active : t.faults.active = w.faults.active
  pending : t.faults.pendingNotice = w.faults.pendingNotice

theorem SaleKept.trans {s t u : Station} (h : SaleKept s t) (k : SaleKept t u) : SaleKept s u :=
  ⟨k.txn.trans h.txn, k.payout.trans h.payout, k.sales.trans h.sales, k.value.trans h.value,
    k.shortPays.trans h.shortPays, k.active.trans h.active, k.pending.trans h.pending⟩

theorem returned_of_saleKept {u w t : Station} {amount : Nat} (h : Returned u w amount) (k : SaleKept w t) :
    Returned u t amount := by
  unfold Returned PayoutEnded at h ⊢
  rw [k.txn, k.payout, k.shortPays, k.active, k.pending]
  exact h

theorem saleFailed_of_saleKept {u w t : Station} (h : SaleFailed u w) (k : SaleKept w t) : SaleFailed u t := by
  obtain ⟨escrow, sales, value, plain, asked⟩ := h
  unfold SaleFailed
  rw [k.txn, k.sales, k.value]
  exact ⟨escrow, sales, value, plain, fun requested idle => returned_of_saleKept (asked requested idle) k⟩

theorem saleTaken_of_saleKept {u w t : Station} (h : SaleTaken u w) (k : SaleKept w t) : SaleTaken u t := by
  obtain ⟨escrow, sales, value, plain, asked⟩ := h
  unfold SaleTaken
  rw [k.txn, k.sales, k.value]
  exact ⟨escrow, sales, value, plain, fun ends idle => returned_of_saleKept (asked ends idle) k⟩

/-- The escrow and the sales booked. -/
def booked (s : Station) : Nat × Nat × Nat := (s.txn.escrow, s.audit.salesCount, s.audit.salesValue)

theorem booked_of_kept {l : List Region} {s t : Station} (h : Kept l s t) (ht : Region.txn ∉ l) (hc : Region.counters ∉ l) :
    booked t = booked s := by
  have txn_eq : t.txn = s.txn := h .txn ht
  have owned_eq : t.audit.owned = s.audit.owned := h .counters hc
  calc booked t = (t.txn.escrow, t.audit.owned.salesCount, t.audit.owned.salesValue) := rfl
    _ = (s.txn.escrow, s.audit.owned.salesCount, s.audit.owned.salesValue) := by rw [txn_eq, owned_eq]
    _ = booked s := rfl

theorem endPayout_booked (s : Station) : booked s.endPayout = booked s := by
  unfold Station.endPayout Station.payoutDone
  dsimp only
  split
  · rfl
  · exact (booked_of_kept (raise_kept _ _) (by decide) (by decide)).trans rfl

theorem startPayout_booked (s : Station) (amount : Nat) : booked (s.startPayout amount) = booked s := by
  by_cases idle : s.payout.state = .idle
  · rw [startPayout_of_idle idle]
    split
    · exact endPayout_booked _
    · split
      · rfl
      · exact (booked_of_kept (nextCoin_kept { s with payout := plannedPayout s amount }) (by decide) (by decide)).trans rfl
  · unfold Station.startPayout
    rw [if_neg idle]

theorem returnAll_booked (s : Station) : booked s.returnAll = booked s := by
  unfold Station.returnAll
  split
  · rfl
  · exact startPayout_booked (creditHanded s) s.txn.credit

/-- R117, R118: the escrow given back and the message shown. -/
def escrowShown (s : Station) (m : Option Message) : Station :=
  match m with
  | some m => s.escrowBack.showCustomer m Config.messageTime
  | none => s.escrowBack

theorem failSale_eq (s : Station) (m : Option Message) : s.failSale m = (escrowShown s m).afterFailedSale := by
  cases m <;> rfl

theorem escrowShown_kept (s : Station) (m : Option Message) : Kept [.message] s.escrowBack (escrowShown s m) := by
  cases m with
  | none => exact Kept.refl _ _
  | some m => exact showCustomer_kept _ _ _

/-- R117, R118, R119: a committed sale that is not delivered. -/
theorem failSale_failed {u w : Station} (h : SaleOpen u w) (m : Option Message) : SaleFailed u (w.failSale m) := by
  have shown := escrowShown_kept w m
  have txn_eq : (escrowShown w m).txn = w.escrowBack.txn := shown .txn (by decide)
  have booked_eq : booked (escrowShown w m) = booked w.escrowBack := booked_of_kept shown (by decide) (by decide)
  have credit_eq : (escrowShown w m).txn.credit = min 65535 (u.txn.credit + u.txn.escrow) := by
    rw [txn_eq, ← h.txn]
    rfl
  have requested_eq : (escrowShown w m).txn.returnRequested = u.txn.returnRequested := by
    rw [txn_eq, ← h.txn]
    rfl
  have origin : ReturnFrom u (escrowShown w m) :=
    ReturnFrom.of_kept (w := w.escrowBack) ⟨h.payout, h.tubes, h.door, h.shortPays, h.free⟩ shown (by decide)
  rw [failSale_eq]
  unfold Station.afterFailedSale
  rw [requested_eq]
  cases requested : u.txn.returnRequested with
  | true =>
    rw [if_pos rfl]
    have settled := (returnAll_booked (escrowShown w m)).trans booked_eq
    refine ⟨congrArg Prod.fst settled, (congrArg (fun b => b.2.1) settled).trans h.sales,
      (congrArg (fun b => b.2.2) settled).trans h.value, fun kept => absurd (requested.symm.trans kept) (by decide), fun _ idle => ?_⟩
    rw [← credit_eq]
    exact returnAll_returned origin idle
  | false =>
    rw [if_neg Bool.false_ne_true]
    refine ⟨congrArg Prod.fst booked_eq, (congrArg (fun b => b.2.1) booked_eq).trans h.sales,
      (congrArg (fun b => b.2.2) booked_eq).trans h.value, fun _ => ⟨credit_eq, rfl, rfl, rfl⟩,
      fun asked => absurd (requested.symm.trans asked) (by decide)⟩

/-- R117: a committed sale that is delivered. -/
theorem takeSale_taken {u w : Station} (h : SaleOpen u w) (fromPeer : Bool) (drops : Nat) :
    SaleTaken u (w.takeSale fromPeer drops) := by
  have count_eq : (w.bookSale fromPeer drops).audit.salesCount = rise32 u.audit.salesCount 1 :=
    congrArg (rise32 · 1) h.sales
  have value_eq : (w.bookSale fromPeer drops).audit.salesValue = rise32 u.audit.salesValue u.txn.escrow := by
    rw [← h.value, ← h.txn]
    rfl
  have origin : ReturnFrom u (w.bookSale fromPeer drops) := ⟨h.payout, h.tubes, h.door, h.shortPays, h.free⟩
  have credit_eq : (w.bookSale fromPeer drops).txn.credit = u.txn.credit :=
    (congrArg Txn.credit h.txn : w.txn.credit = u.txn.credit)
  unfold Station.takeSale
  dsimp only
  rw [h.cfg, h.txn]
  split
  · rename_i ends
    have settled := returnAll_booked (w.bookSale fromPeer drops)
    refine ⟨congrArg Prod.fst settled, (congrArg (fun b => b.2.1) settled).trans count_eq,
      (congrArg (fun b => b.2.2) settled).trans value_eq, fun multi kept => by simp [multi, kept] at ends, fun _ idle => ?_⟩
    rw [← credit_eq]
    exact returnAll_returned origin idle
  · rename_i stays
    refine ⟨rfl, count_eq, value_eq, fun _ _ => ⟨credit_eq, congrArg restingState credit_eq, rfl⟩, fun ends => ?_⟩
    rcases ends with single | asked
    · simp [single] at stays
    · simp [asked] at stays

end Sales

end Sys2Proof.Proofs

/-! SUPPORT. What the answers to entries leave of a station (R5, R25 to R29): the counters and the notice of a vend's end
(`Aside`), and, where no sale hangs on the entry, all but frames and the counters of late results (`Apart`). -/

namespace Sys2Proof.Proofs

open Sys2Proof.Machine Sys2Proof.Laws

section Aside

/-! ### What stands aside of a sale's settlement -/

/-- The counters that the end of a vend records (R8, R47). -/
def vendCounts (s : Station) : List Nat × Nat × List Nat :=
  (s.audit.outcomes, s.audit.doubleDrops, s.audit.spiralSales)

/-- The counters of vends, the notice in the active slot, and the technician's message are kept (R47, R123, R188). -/
structure Aside (s t : Station) : Prop where
  counts : vendCounts t = vendCounts s
  active : ∀ n, s.faults.active = some n → t.faults.active = some n
  door : t.faults.doorOpen = s.faults.doorOpen
  message : s.faults.doorOpen = true → t.panel.message = s.panel.message

theorem Aside.refl (s : Station) : Aside s s := ⟨rfl, fun _ h => h, rfl, fun _ => rfl⟩

theorem Aside.trans {s t u : Station} (h : Aside s t) (k : Aside t u) : Aside s u :=
  ⟨k.counts.trans h.counts, fun n hn => k.active n (h.active n hn), k.door.trans h.door,
    fun open_door => (k.message (h.door.trans open_door)).trans (h.message open_door)⟩

theorem vendCounts_of_owned {s t : Station} (h : t.audit.owned = s.audit.owned) : vendCounts t = vendCounts s :=
  calc vendCounts t = (t.audit.owned.outcomes, t.audit.owned.doubleDrops, t.audit.owned.spiralSales) := rfl
    _ = vendCounts s := by rw [h]; rfl

theorem Aside.of_kept {l : List Region} {s t : Station} (h : Kept l s t)
    (hl : ∀ r ∈ [Region.counters, .latch, .door, .message], r ∉ l) : Aside s t := by
  have active_eq : t.faults.active = s.faults.active := congrArg Prod.fst (h _ (hl .latch (by decide)))
  exact ⟨vendCounts_of_owned (h _ (hl .counters (by decide))), fun n hn => active_eq.trans hn,
    doorOpen_of_kept (h _ (hl .door (by decide))), fun _ => congrArg Prod.fst (h _ (hl .message (by decide)))⟩

variable (s : Station)

theorem raise_aside (n : Notice) : Aside s (s.raise n) := by
  refine ⟨?_, fun m hm => ?_, doorOpen_of_kept (raise_kept s n .door (by decide)), fun _ =>
    congrArg Prod.fst (raise_kept s n .message (by decide))⟩
  · obtain ⟨_, _, _, shape⟩ := raise_shape s n
    rw [shape]
    rfl
  · exact ((raise_noticeTaken s n).2 (by simp [hm])).1.trans hm

theorem payoutDone_aside (remainder : Nat) : Aside s (s.payoutDone remainder) := by
  have added : Aside s (s.addCredit remainder).toResting := ⟨rfl, fun _ h => h, rfl, fun _ => rfl⟩
  unfold Station.payoutDone
  dsimp only
  split
  · exact added
  · exact Aside.trans (t := { (s.addCredit remainder).toResting with
      audit := { (s.addCredit remainder).toResting.audit with
        shortPayValue := rise32 (s.addCredit remainder).toResting.audit.shortPayValue remainder } })
      ⟨rfl, fun _ h => h, rfl, fun _ => rfl⟩ (raise_aside _ _)

theorem startPayout_aside (amount : Nat) : Aside s (s.startPayout amount) := by
  by_cases idle : s.payout.state = .idle
  · have planned : Aside s { s with payout := plannedPayout s amount } := .of_kept (payout_kept s _) (by decide)
    rw [startPayout_of_idle idle]
    split
    · exact Aside.trans (.of_kept (payout_kept s _) (by decide)) (payoutDone_aside _ _)
    · split
      · exact planned.trans (.of_kept (stopPayout_kept _) (by decide))
      · exact planned.trans (.of_kept (nextCoin_kept _) (by decide))
  · unfold Station.startPayout
    rw [if_neg idle]
    exact .refl s

theorem returnAll_aside : Aside s s.returnAll := by
  unfold Station.returnAll
  split
  · exact .of_kept (toResting_kept s) (by decide)
  · exact Aside.trans (t := creditHanded s) (.of_kept (txn_kept s _) (by decide)) (startPayout_aside _ _)

theorem showCustomer_aside (m : Message) (length : Nat) : Aside s (s.showCustomer m length) := by
  unfold Station.showCustomer
  split
  · exact .refl s
  · rename_i shut
    exact ⟨rfl, fun _ h => h, rfl, fun open_door => absurd open_door shut⟩

theorem failSale_aside (m : Option Message) : Aside s (s.failSale m) := by
  have shown : Aside s.escrowBack (escrowShown s m) := by
    cases m with
    | none => exact .refl _
    | some m => exact showCustomer_aside _ _ _
  rw [failSale_eq]
  have returned : Aside s s.escrowBack := ⟨rfl, fun _ h => h, rfl, fun _ => rfl⟩
  refine (returned.trans shown).trans ?_
  unfold Station.afterFailedSale
  split
  · exact returnAll_aside _
  · exact .of_kept (toResting_kept _) (by decide)

/-- The own customer's sale counts no double drop again: its vend's end has (R47, R117). -/
theorem takeSale_aside (drops : Nat) : Aside s (s.takeSale false drops) := by
  have taken : Aside s (s.bookSale false drops) := ⟨rfl, fun _ h => h, rfl, fun _ => rfl⟩
  unfold Station.takeSale
  dsimp only
  split
  · exact taken.trans (returnAll_aside _)
  · exact taken.trans (.of_kept (toResting_kept _) (by decide))

theorem takeResult_aside (tag : Nat) (o : Outcome) (drops : Nat) : Aside s (s.takeResult .loc tag o drops) := by
  unfold Station.takeResult
  split
  · split
    · exact takeSale_aside s drops
    · exact failSale_aside s _
  · exact ⟨rfl, fun _ h => h, rfl, fun _ => rfl⟩

theorem takeRefuse_aside (sender : Payer) (tag : Nat) (r : Reason) : Aside s (s.takeRefuse sender tag r) := by
  unfold Station.takeRefuse
  split
  · split
    · exact (showCustomer_aside s _ _).trans (.of_kept (toResting_kept _) (by decide))
    · split
      · exact failSale_aside s _
      · exact .refl s
  · exact .refl s

theorem hand_aside (dst : Nat) (body : FrameBody) : Aside s (s.hand dst body) := .of_kept (hand_kept s dst body) (by decide)

theorem answerResult_aside (e : Entry) (o : Outcome) (drops : Nat) : Aside s (s.answerResult e o drops) := by
  unfold Station.answerResult
  split
  · exact takeResult_aside s _ _ _
  · exact hand_aside s _ _
  · exact .refl s

theorem answerRefuse_aside (e : Entry) (r : Reason) : Aside s (s.answerRefuse e r) := by
  unfold Station.answerRefuse
  split
  · exact takeRefuse_aside s _ _ _
  · exact hand_aside s _ _
  · exact .refl s

theorem answerRemoved_aside (r : Reason) (o : Outcome) (e : Entry) : Aside s (Station.answerRemoved r o s e) := by
  unfold Station.answerRemoved
  split
  · exact answerRefuse_aside s e r
  · exact answerResult_aside s e o 0
  · exact .refl s

theorem foldl_answerRemoved_aside (r : Reason) (o : Outcome) (entries : List Entry) :
    Aside s (entries.foldl (Station.answerRemoved r o) s) := by
  induction entries generalizing s with
  | nil => exact .refl s
  | cons e rest ih => exact (answerRemoved_aside s r o e).trans (ih _)

theorem removeEntries_aside (p : Entry → Bool) (r : Reason) (o : Outcome) : Aside s (s.removeEntries p r o) :=
  Aside.trans (.of_kept (queue_kept s _) (by decide)) (foldl_answerRemoved_aside _ r o _)

theorem removeForSpiral_aside (position : Nat) : Aside s (s.removeForSpiral position) := by
  unfold Station.removeForSpiral
  split <;> exact removeEntries_aside s _ _ _

end Aside

section Apart

/-! ### Answers on which no sale hangs -/

/-- `t` is `s` but for frames in the transmit queue and the counters of overflows and of late results (R120, R173). -/
def Apart (s t : Station) : Prop :=
  ∃ q n a b, t = { s with
    line := { s.line with queue := q }
    audit := { s.audit with txOverflow := n, lateResult := a, lateDelivered := b } }

theorem Apart.refl (s : Station) : Apart s s := ⟨s.line.queue, s.audit.txOverflow, s.audit.lateResult, s.audit.lateDelivered, rfl⟩

theorem Apart.trans {s t u : Station} (h : Apart s t) (k : Apart t u) : Apart s u := by
  obtain ⟨_, _, _, _, rfl⟩ := h
  obtain ⟨q, n, a, b, rfl⟩ := k
  exact ⟨q, n, a, b, rfl⟩

theorem Apart.saleKept {s t : Station} (h : Apart s t) : SaleKept s t := by
  obtain ⟨_, _, _, _, rfl⟩ := h
  exact ⟨rfl, rfl, rfl, rfl, rfl, rfl, rfl⟩

theorem Apart.saleOpen {u s t : Station} (h : Apart s t) (k : SaleOpen u s) : SaleOpen u t := by
  obtain ⟨_, _, _, _, rfl⟩ := h
  exact ⟨⟨k.payout, k.tubes, k.door, k.shortPays, k.free⟩, k.txn, k.cfg, k.sales, k.value⟩

theorem Apart.txn {s t : Station} (h : Apart s t) : t.txn = s.txn := by
  obtain ⟨_, _, _, _, rfl⟩ := h
  rfl

theorem hand_apart (s : Station) (dst : Nat) (body : FrameBody) : Apart s (s.hand dst body) := by
  obtain ⟨q, n, handed⟩ := hand_hands s dst body
  exact ⟨q, n, s.audit.lateResult, s.audit.lateDelivered, handed⟩

theorem lateResult_apart (s : Station) (o : Outcome) : Apart s (s.lateResult o) := ⟨_, _, _, _, rfl⟩

/-- No answer to the entry would be that of the current offer (R114 to R118). -/
def answersNone (s : Station) (e : Entry) : Prop :=
  ∀ tag, e.payer = some .loc → e.tag = some tag → s.answersOffer .loc tag = false

theorem answersNone_of_no_offer {s : Station} (h : s.txn.offer = none) (e : Entry) : answersNone s e :=
  fun tag _ _ => by simp [Station.answersOffer, h]

theorem answersOffer_congr {s t : Station} (h : t.txn = s.txn) (sender : Payer) (tag : Nat) :
    t.answersOffer sender tag = s.answersOffer sender tag := by
  simp [Station.answersOffer, h]

theorem Apart.answersNone {s t : Station} (h : Apart s t) {e : Entry} (k : answersNone s e) : answersNone t e :=
  fun tag payer tagged => (answersOffer_congr h.txn .loc tag).trans (k tag payer tagged)

theorem answerResult_apart {s : Station} {e : Entry} (h : answersNone s e) (o : Outcome) (drops : Nat) :
    Apart s (s.answerResult e o drops) := by
  unfold Station.answerResult
  split
  · rename_i tag payer tagged
    unfold Station.takeResult
    rw [h tag payer tagged]
    exact lateResult_apart s o
  · exact hand_apart s _ _
  · exact .refl s

theorem answerRefuse_apart {s : Station} {e : Entry} (h : answersNone s e) (r : Reason) : Apart s (s.answerRefuse e r) := by
  unfold Station.answerRefuse
  split
  · rename_i tag payer tagged
    unfold Station.takeRefuse
    rw [h tag payer tagged]
    exact .refl s
  · exact hand_apart s _ _
  · exact .refl s

theorem answerRemoved_apart {s : Station} {e : Entry} (h : e.state = .vending ∨ answersNone s e) (r : Reason) (o : Outcome) :
    Apart s (Station.answerRemoved r o s e) := by
  unfold Station.answerRemoved
  cases state : e.state with
  | awaitCommit => exact answerRefuse_apart (h.resolve_left (by simp [state])) r
  | committed => exact answerResult_apart (h.resolve_left (by simp [state])) o 0
  | vending => exact .refl s

theorem foldl_answerRemoved_apart {s : Station} (entries : List Entry) (h : ∀ e ∈ entries, answersNone s e) (r : Reason)
    (o : Outcome) : Apart s (entries.foldl (Station.answerRemoved r o) s) := by
  induction entries generalizing s with
  | nil => exact .refl s
  | cons e rest ih =>
    rw [List.forall_mem_cons] at h
    have first := answerRemoved_apart (.inr h.1) r o
    exact first.trans (ih fun f hf => first.answersNone (h.2 f hf))

end Apart

section Settled

/-! ### The answer on which the sale hangs -/

theorem endPayout_offer (s : Station) : s.endPayout.txn.offer = none := by
  unfold Station.endPayout Station.payoutDone
  dsimp only
  split
  · rfl
  · rw [raise_txn]
    rfl

theorem startPayout_offer {s : Station} (h : s.txn.offer = none) (amount : Nat) : (s.startPayout amount).txn.offer = none := by
  by_cases idle : s.payout.state = .idle
  · rw [startPayout_of_idle idle]
    split
    · exact endPayout_offer _
    · split
      · exact h
      · rw [nextCoin_txn]
        exact h
  · unfold Station.startPayout
    rwa [if_neg idle]

theorem returnAll_offer (s : Station) : s.returnAll.txn.offer = none := by
  unfold Station.returnAll
  split
  · rfl
  · exact startPayout_offer (s := creditHanded s) rfl _

theorem failSale_offer (s : Station) (m : Option Message) : (s.failSale m).txn.offer = none := by
  rw [failSale_eq]
  unfold Station.afterFailedSale
  split
  · exact returnAll_offer _
  · rfl

theorem takeSale_offer (s : Station) (fromPeer : Bool) (drops : Nat) : (s.takeSale fromPeer drops).txn.offer = none := by
  unfold Station.takeSale
  dsimp only
  split
  · exact returnAll_offer _
  · rfl

/-- R118: the answer to a removed entry on which the committed sale hangs. -/
theorem answerRemoved_fails {s : Station} {e : Entry} {tag : Nat} (payer : e.payer = some .loc) (tagged : e.tag = some tag)
    (waits : e.state ≠ .vending) (current : s.answersOffer .loc tag = true) (committed : s.txn.state = .committed)
    (r : Reason) {o : Outcome} (ho : o ≠ .delivered) : ∃ m, Station.answerRemoved r o s e = s.failSale m := by
  unfold Station.answerRemoved
  cases state : e.state with
  | awaitCommit => exact ⟨some (reasonMessage r), by simp [Station.answerRefuse, Station.takeRefuse, payer, tagged, current, committed]⟩
  | committed => exact ⟨outcomeMessage o, by simp [Station.answerResult, Station.takeResult, payer, tagged, current, committed, ho]⟩
  | vending => exact absurd state waits

/-- R27 to R29, R117: of removed entries the one on which the committed sale hangs fails it. -/
theorem foldl_answerRemoved_fails {u s : Station} (h : SaleOpen u s) (committed : s.txn.state = .committed) (r : Reason)
    {o : Outcome} (ho : o ≠ .delivered) {entries : List Entry} {e : Entry} {tag : Nat} (he : e ∈ entries)
    (payer : e.payer = some .loc) (tagged : e.tag = some tag) (waits : e.state ≠ .vending)
    (current : s.answersOffer .loc tag = true) : SaleFailed u (entries.foldl (Station.answerRemoved r o) s) := by
  induction entries generalizing s with
  | nil => cases he
  | cons f rest ih =>
    rw [List.foldl_cons]
    by_cases hangs : f.state ≠ .vending ∧ ∃ n, f.payer = some .loc ∧ f.tag = some n ∧ s.answersOffer .loc n = true
    · obtain ⟨f_waits, n, f_payer, f_tagged, f_current⟩ := hangs
      obtain ⟨m, failed⟩ := answerRemoved_fails f_payer f_tagged f_waits f_current committed r ho
      rw [failed]
      refine saleFailed_of_saleKept (failSale_failed h m) (Apart.saleKept (foldl_answerRemoved_apart _ (fun g _ => ?_) r o))
      exact answersNone_of_no_offer (failSale_offer s m) g
    · have apart : Apart s (Station.answerRemoved r o s f) := by
        refine answerRemoved_apart ?_ r o
        by_cases vending : f.state = .vending
        · exact .inl vending
        · exact .inr fun n f_payer f_tagged => Bool.eq_false_iff.mpr fun f_current =>
            hangs ⟨vending, n, f_payer, f_tagged, f_current⟩
      have later : e ∈ rest := (List.mem_cons.mp he).resolve_left fun same =>
        hangs ⟨same ▸ waits, tag, same ▸ payer, same ▸ tagged, current⟩
      exact ih (apart.saleOpen h) (by rw [apart.txn]; exact committed) later
        ((answersOffer_congr apart.txn .loc tag).trans current)

end Settled

end Sys2Proof.Proofs

/-! SUPPORT. What the admission of loads at the end of an event (R157, R166) leaves of the vend in flight, of the transmit
queue and of the VEND-MOTOR load, in every line state. -/

namespace Sys2Proof.Proofs

open Sys2Proof.Machine Sys2Proof.Laws

section Admission

/-! ### The vend and the transmit queue -/

/-- What a grant leaves of the vend: its entry and what it has counted. -/
def vendCore (v : Vend) : Entry × Nat × Nat × Nat := (v.entry, v.drops, v.turnsUsed, v.jams)

/-- The vend in flight but for its phase, the line state, and the frames of the transmit queue with others behind them. -/
structure Admits (s t : Station) : Prop where
  core : t.vend.map vendCore = s.vend.map vendCore
  state : t.line.state = s.line.state
  queue : s.line.queue <+: t.line.queue
  unsent : s.active = false → t.line.queue = s.line.queue

theorem Admits.refl (s : Station) : Admits s s := ⟨rfl, rfl, List.prefix_rfl, fun _ => rfl⟩

theorem active_of_state {s t : Station} (h : t.line.state = s.line.state) : t.active = s.active := by
  simp [Station.active, h]

theorem Admits.trans {s t u : Station} (h : Admits s t) (k : Admits t u) : Admits s u :=
  ⟨k.core.trans h.core, k.state.trans h.state, h.queue.trans k.queue, fun idle =>
    (k.unsent ((active_of_state h.state).trans idle)).trans (h.unsent idle)⟩

/-- The vend and the line are as they were. -/
theorem Admits.of_line {s t : Station} (hv : t.vend = s.vend) (hl : t.line = s.line) : Admits s t :=
  ⟨by rw [hv], by rw [hl], by rw [hl], fun _ => by rw [hl]⟩

theorem Claims.admits {s t : Station} (h : Claims s t) (active : s.active = true) : Admits s t := by
  obtain ⟨frames, n, p, rfl, -⟩ := h
  exact ⟨rfl, rfl, List.prefix_append _ _, fun idle => absurd (active.symm.trans idle) (by decide)⟩

theorem isolated_not_active {s : Station} (h : s.line.state.isIsolated = true) : s.active = false := by
  unfold Station.active
  cases state : s.line.state with
  | active => rw [state] at h; cases h
  | _ => rfl

theorem roomMade_line (s : Station) : s.roomMade.line = s.line := by
  unfold Station.roomMade
  split <;> rfl

/-- R163: where no RELEASE may be sent the transmit queue stays. -/
theorem releaseSlot_line {s : Station} (h : s.line.state ≠ .listen) (idle : s.active = false) (cls : LoadClass) :
    (s.releaseSlot cls).line = s.line := by
  unfold Station.releaseSlot
  split
  · rfl
  · rw [if_neg (by simp [h, idle])]
    exact roomMade_line _

theorem energise_core (s : Station) : s.energise.vend.map vendCore = s.vend.map vendCore := by
  unfold Station.energise
  cases h : s.vend with
  | none => simp [h]
  | some v => rfl

theorem releaseSlot_admits {s : Station} (isolated : s.line.state.isIsolated = true) (cls : LoadClass) :
    Admits s (s.releaseSlot cls) :=
  .of_line (releaseSlot_kept s cls .vend (by decide))
    (releaseSlot_line (fun listens => by rw [listens] at isolated; cases isolated) (isolated_not_active isolated) cls)

/-- R37, R134, R144: a grant in ISOLATED. -/
theorem handGrant_admits {s : Station} (isolated : s.line.state.isIsolated = true) (cls : LoadClass) :
    Admits s (s.handGrant cls) := by
  cases cls with
  | vendMotor =>
    change Admits s s.vendMotorGranted
    unfold Station.vendMotorGranted
    split
    · split
      · have line_eq : s.energise.line = s.line :=
          line_of_kept (energise_kept s .line (by decide)) (energise_kept s .lineQueue (by decide))
        exact ⟨energise_core s, by rw [line_eq], by rw [line_eq], fun _ => by rw [line_eq]⟩
      · exact releaseSlot_admits isolated _
    · exact releaseSlot_admits isolated _
  | compressor =>
    change Admits s s.compressorGranted
    unfold Station.compressorGranted
    split
    · exact .of_line rfl rfl
    · exact releaseSlot_admits isolated _
  | defrostHeater =>
    change Admits s s.heaterGranted
    unfold Station.heaterGranted
    split
    · exact .of_line rfl rfl
    · exact releaseSlot_admits isolated _

theorem grant_admits {s : Station} (isolated : s.line.state.isIsolated = true) (r : Request) : Admits s (s.grant r) := by
  have handed := handGrant_admits
    (s := ({ s with power := s.power.setSlot r.cls (some r.power) }).dropRequest r.cls) isolated r.cls
  refine Admits.trans ?_ handed
  exact .of_line rfl rfl

theorem checkIsolated_admits {s : Station} (isolated : s.line.state.isIsolated = true) (r : Request) :
    Admits s (s.checkIsolated r) := by
  unfold Station.checkIsolated
  dsimp only
  split
  · exact Admits.trans (t := s.setRequest r.cls Request.check) (.of_line rfl rfl) (grant_admits (s := s.setRequest r.cls Request.check) isolated r)
  · exact .of_line rfl rfl

/-- R157: the request checked is one of the list, and READY. -/
theorem bestReady_ready {requests : List Request} {r : Request} (h : bestReady requests = some r) :
    r ∈ requests ∧ r.phase = .ready := by
  have best (l : List Request) (held : Option Request) (hb : l.foldl betterRequest held = some r) : r ∈ l ∨ held = some r := by
    induction l generalizing held with
    | nil => exact .inr hb
    | cons q rest ih =>
      rcases ih _ hb with inside | chosen
      · exact .inl (List.mem_cons_of_mem q inside)
      · unfold betterRequest at chosen
        split at chosen
        · exact .inl (by simp_all)
        · split at chosen
          · exact .inl (by simp_all)
          · exact .inr chosen
  have found := (best _ none h).resolve_right (by simp)
  simpa using found

/-- R157, R166: what one check of a waiting load is. -/
theorem checkOne_cases {s t : Station} (h : s.checkOne = some t) :
    ∃ r ∈ s.power.requests, r.phase = .ready ∧
      ((s.active = true ∧ t = s.checkActive r) ∨ (s.line.state.isIsolated = true ∧ t = s.checkIsolated r)) := by
  unfold Station.checkOne at h
  split at h
  · cases h
  · rename_i r best
    obtain ⟨inside, ready⟩ := bestReady_ready best
    refine ⟨r, inside, ready, ?_⟩
    split_ifs at h with active held isolated
    · exact .inl ⟨active, (Option.some.inj h).symm⟩
    · exact .inr ⟨isolated, (Option.some.inj h).symm⟩

theorem checkOne_admits {s t : Station} (h : s.checkOne = some t) : Admits s t := by
  obtain ⟨r, -, -, ⟨active, rfl⟩ | ⟨isolated, rfl⟩⟩ := checkOne_cases h
  · exact (checkActive_claims s r).admits active
  · exact checkIsolated_admits isolated r

/-- A relation that every check keeps holds of all the checks of an event. -/
theorem admitFor_induct {R : Station → Station → Prop} (refl : ∀ s, R s s) (trans : ∀ s t u, R s t → R t u → R s u)
    (step : ∀ s t, s.checkOne = some t → R s t) (n : Nat) (s : Station) : R s (admitFor n s) := by
  induction n generalizing s with
  | zero => exact refl s
  | succ n ih =>
    unfold admitFor
    split
    · exact refl s
    · exact trans _ _ _ (step _ _ ‹_›) (ih _)

theorem admitLoads_admits (s : Station) : Admits s s.admitLoads :=
  admitFor_induct Admits.refl (fun _ _ _ => Admits.trans) (fun _ _ => checkOne_admits) 12 s

/-- What the end of an event leaves of the vend and of the transmit queue. -/
theorem finish_admits (o s : Station) : Admits s (finish o s) := by
  obtain ⟨line_eq, vend_eq⟩ := finish_line_vend o s
  obtain ⟨lit, evaluated⟩ := evaluateIfChanged_shape s o
  rw [evaluated] at line_eq vend_eq
  exact Admits.trans (t := { s with exactLit := lit }) (.of_line rfl rfl)
    ((admitLoads_admits _).trans (.of_line vend_eq line_eq))

end Admission

section Motor

/-! ### The VEND-MOTOR load -/

/-- The vend motor's slot is `f`, and no check is to be made of a request for it: what is left of one has its attempt out and
is withdrawn (R154). -/
def MotorAt (f : Option Fig) (s : Station) : Prop :=
  s.power.vendMotor = f ∧
    ∀ r ∈ s.power.requests, r.cls = .vendMotor → r.withdrawn = true ∧ (r.phase = .sending ∨ r.phase = .window)

theorem MotorAt.of_power {f : Option Fig} {s t : Station} (h : MotorAt f s) (k : t.power = s.power) : MotorAt f t := by
  unfold MotorAt
  rwa [k]

theorem mem_updateFirst {α : Type} {p : α → Bool} {g : α → α} {l : List α} {a : α} (h : a ∈ updateFirst p g l) :
    a ∈ l ∨ ∃ b ∈ l, p b = true ∧ a = g b := by
  induction l with
  | nil => cases h
  | cons b rest ih =>
    unfold updateFirst at h
    split at h
    · rename_i hb
      rcases List.mem_cons.mp h with rfl | inside
      · exact .inr ⟨b, List.mem_cons_self, hb, rfl⟩
      · exact .inl (List.mem_cons_of_mem b inside)
    · rcases List.mem_cons.mp h with rfl | inside
      · exact .inl List.mem_cons_self
      · exact (ih inside).imp (List.mem_cons_of_mem b) fun ⟨c, hc, found⟩ => ⟨c, List.mem_cons_of_mem b hc, found⟩

variable {f : Option Fig} {s : Station} {cls : LoadClass}

/-- The request of another class changed. -/
theorem MotorAt.setRequest (h : MotorAt f s) (other : cls ≠ .vendMotor) {g : Request → Request} (hg : ∀ r, (g r).cls = r.cls) :
    MotorAt f (s.setRequest cls g) := by
  refine ⟨h.1, fun r hr motor => ?_⟩
  rcases mem_updateFirst hr with inside | ⟨q, -, hq, rfl⟩
  · exact h.2 r inside motor
  · exact absurd ((of_decide_eq_true hq).symm.trans ((hg q).symm.trans motor)) other

theorem MotorAt.dropRequest (h : MotorAt f s) (cls : LoadClass) : MotorAt f (s.dropRequest cls) :=
  ⟨h.1, fun r hr => h.2 r ((removeFirst_sublist _ _).subset hr)⟩

theorem MotorAt.setSlot (h : MotorAt f s) (other : cls ≠ .vendMotor) (g : Option Fig) :
    MotorAt f { s with power := s.power.setSlot cls g } := by
  refine ⟨(setSlot_slot_other s.power cls .vendMotor g other.symm).trans h.1, ?_⟩
  rw [setSlot_requests]
  exact h.2

theorem MotorAt.roomMade (h : MotorAt f s) : MotorAt f s.roomMade := by
  unfold Station.roomMade
  split
  · refine ⟨h.1, fun r hr motor => ?_⟩
    obtain ⟨q, hq, rfl⟩ := List.mem_map.mp hr
    have q_motor : q.cls = .vendMotor := by
      by_cases held : q.phase = .held <;> simpa [held] using motor
    have q_out := h.2 q hq q_motor
    have not_held : q.phase ≠ .held := by
      rcases q_out.2 with out | out <;> simp [out]
    rw [if_neg not_held]
    exact q_out
  · exact h

theorem MotorAt.of_kept {l : List Region} {t : Station} (h : MotorAt f s) (k : Kept l s t) (hp : Region.power ∉ l) :
    MotorAt f t := h.of_power (k .power hp)

theorem MotorAt.releaseSlot (h : MotorAt f s) (other : cls ≠ .vendMotor) : MotorAt f (s.releaseSlot cls) := by
  unfold Station.releaseSlot
  split
  · exact h
  · dsimp only
    split
    · exact (h.setSlot other none).roomMade.of_kept (hand_kept _ _ _) (by decide)
    · exact (h.setSlot other none).roomMade

theorem MotorAt.handGrant (h : MotorAt f s) (other : cls ≠ .vendMotor) : MotorAt f (s.handGrant cls) := by
  cases cls with
  | vendMotor => exact absurd rfl other
  | compressor =>
    change MotorAt f s.compressorGranted
    unfold Station.compressorGranted
    split
    · exact h
    · exact h.releaseSlot other
  | defrostHeater =>
    change MotorAt f s.heaterGranted
    unfold Station.heaterGranted
    split
    · exact h
    · exact h.releaseSlot other

theorem MotorAt.claim (h : MotorAt f s) {r : Request} (other : r.cls ≠ .vendMotor) : MotorAt f (s.claim r) := by
  have handed := (handFrame_hands s ⟨0, .claim r.cls r.rank r.power, true⟩)
  unfold Station.claim
  split <;> rename_i answered <;> rw [answered] at handed <;> obtain ⟨_, _, rfl⟩ := handed
  · exact MotorAt.setRequest (s := { s with line := _, audit := _ }) h other fun _ => rfl
  · exact MotorAt.setRequest (s := { s with line := _, audit := _ }) h other fun _ => rfl

theorem MotorAt.checkActive (h : MotorAt f s) {r : Request} (other : r.cls ≠ .vendMotor) : MotorAt f (s.checkActive r) := by
  unfold Station.checkActive
  dsimp only
  have checked := h.setRequest other (g := Request.check) fun _ => rfl
  split
  · exact checked.claim other
  · exact checked.setRequest other fun _ => rfl

theorem MotorAt.checkIsolated (h : MotorAt f s) {r : Request} (other : r.cls ≠ .vendMotor) : MotorAt f (s.checkIsolated r) := by
  unfold Station.checkIsolated
  dsimp only
  have checked := h.setRequest other (g := Request.check) fun _ => rfl
  split
  · exact ((checked.setSlot other _).dropRequest _).handGrant other
  · exact checked.setRequest other fun _ => rfl

theorem checkOne_motorAt {t : Station} (h : s.checkOne = some t) (k : MotorAt f s) : MotorAt f t := by
  obtain ⟨r, inside, ready, checked⟩ := checkOne_cases h
  have other : r.cls ≠ .vendMotor := fun motor => by
    rcases (k.2 r inside motor).2 with out | out <;> rw [ready] at out <;> cases out
  rcases checked with ⟨-, rfl⟩ | ⟨-, rfl⟩
  · exact k.checkActive other
  · exact k.checkIsolated other

theorem admitLoads_motorAt (h : MotorAt f s) : MotorAt f s.admitLoads :=
  admitFor_induct (R := fun s t => MotorAt f s → MotorAt f t) (fun _ => id) (fun _ _ _ first later h => later (first h))
    (fun _ _ => checkOne_motorAt) 12 s h

/-- What the end of an event derives after the admission of loads leaves the power budget unit alone. -/
theorem finish_power (o s : Station) : (finish o s).power = (s.evaluateIfChanged o).admitLoads.power := by
  have ice (a : Station) : a.resetIce.power = a.power := by
    obtain ⟨_, h, _⟩ := resetIce_shape a
    rw [h]
  have masks (a : Station) : a.sendChangedMasks.power = a.power := by
    obtain ⟨_, _, _, _, _, h⟩ := sendChangedMasks_masks a
    rw [h]
  have conditions (a : Station) : a.updateConditions.power = a.power := by
    obtain ⟨_, _, h⟩ := updateConditions_shape a
    rw [h]
  have lamp (a : Station) : a.driveLamp.power = a.power := by
    obtain ⟨_, _, _, h⟩ := driveLamp_shape a
    rw [h]
  have alternation (a : Station) : a.driveAlternation.power = a.power := by
    obtain ⟨_, _, _, h⟩ := driveAlternation_shape a
    rw [h]
  have pins (a : Station) : a.drivePins.power = a.power := rfl
  simp only [finish, Station.driveOutputs, ice, masks, conditions, lamp, alternation, pins]

theorem finish_motorAt (o : Station) (h : MotorAt f s) : MotorAt f (finish o s) := by
  obtain ⟨lit, evaluated⟩ := evaluateIfChanged_shape s o
  refine MotorAt.of_power (s := (s.evaluateIfChanged o).admitLoads) ?_ (finish_power o s)
  rw [evaluated]
  exact admitLoads_motorAt h

end Motor

end Sys2Proof.Proofs

/-! SUPPORT. The end of a vend (R25, R47, R48), stage by stage as `Station.endVend` makes it: the record, the answer, the
removals, the pick and the claim; together they are `VendEnded`. -/

namespace Sys2Proof.Proofs

open Sys2Proof.Machine Sys2Proof.Laws

section Record

/-! ### The record (R8, R9, R47) -/

variable (u : Station) (v : Vend) (o : Outcome)

/-- A notice raised, if there is one. -/
def noticed (s : Station) : Option Notice → Station
  | none => s
  | some n => s.raise n

/-- R8, R47: the station with counters and spiral record of a vend's end. -/
def countedVend : Station :=
  { u.setSpiral v.entry.position (outcomeRecord o v.drops) with
    audit := { u.audit with
      outcomes := countedOutcome u.audit.outcomes o
      doubleDrops := if 2 ≤ v.drops then rise32 u.audit.doubleDrops 1 else u.audit.doubleDrops
      spiralSales := salesAfter u.audit.spiralSales o v.entry.position v.entry.test } }

/-- R9, R47: the notice of a vend's end. -/
def vendNotice : Option Notice :=
  match o with
  | .jammed => some (.jam v.entry.position)
  | .motorFault => some (.motor v.entry.position)
  | .empty => if ((countedVend u v .empty).spiral v.entry.position).consecutiveEmpty = 3 then some (.empty v.entry.position)
    else none
  | _ => none

/-- R8, R47: beside a notice the order of the records makes no difference. -/
theorem recordOutcome_raise (s : Station) (n : Notice) {o : Outcome} (ho : o ≠ .empty) (drops position : Nat) (test : Bool) :
    (s.raise n).recordOutcome o drops position test = (s.recordOutcome o drops position test).raise n := by
  have unnoticed : (decide (o = .empty)) = false := decide_eq_false ho
  unfold Station.recordOutcome Station.setSpiral Station.raise
  simp only [unnoticed, Bool.false_and, Bool.false_eq_true, if_false]
  cases active : s.faults.active <;> cases pending : s.faults.pendingNotice <;> cases positionInRange position <;>
    simp [active, pending]

theorem recordOutcome_countOutcome :
    (u.countOutcome o v.drops).recordOutcome o v.drops v.entry.position v.entry.test =
      if o = .empty ∧ ((countedVend u v o).spiral v.entry.position).consecutiveEmpty = 3 then
        (countedVend u v o).raise (.empty v.entry.position)
      else countedVend u v o := by
  have counted : ({ (u.countOutcome o v.drops).setSpiral v.entry.position (outcomeRecord o v.drops) with
      audit := { ((u.countOutcome o v.drops).setSpiral v.entry.position (outcomeRecord o v.drops)).audit with
        spiralSales := salesAfter ((u.countOutcome o v.drops).setSpiral v.entry.position (outcomeRecord o v.drops)).audit.spiralSales
          o v.entry.position v.entry.test } } : Station) = countedVend u v o := by
    unfold countedVend Station.setSpiral
    split <;> rfl
  unfold Station.recordOutcome
  dsimp only
  rw [counted]
  simp only [Bool.and_eq_true, decide_eq_true_eq]

/-- The record of a vend's end is that of its counters and spiral, and then its notice. -/
theorem recordVendEnd_eq : u.recordVendEnd v o = noticed (countedVend u v o) (vendNotice u v o) := by
  unfold Station.recordVendEnd Station.noticeOutcome vendNotice
  cases o with
  | jammed => rw [recordOutcome_raise _ _ (by decide), recordOutcome_countOutcome]; rfl
  | motorFault => rw [recordOutcome_raise _ _ (by decide), recordOutcome_countOutcome]; rfl
  | empty =>
    rw [recordOutcome_countOutcome]
    simp only [true_and]
    split <;> rfl
  | _ => exact (recordOutcome_countOutcome u v _).trans (if_neg (by simp))

/-- A notice changes the latch alone, and has a free active slot. -/
theorem noticed_kept (s : Station) (n : Option Notice) : Kept [.latch] s (noticed s n) := by
  cases n with
  | none => exact Kept.refl _ s
  | some n => exact raise_kept s n

theorem noticed_counts (s : Station) (n : Option Notice) : vendCounts (noticed s n) = vendCounts s := by
  cases n with
  | none => rfl
  | some n => exact (raise_aside s n).counts

theorem recordVendEnd_counts :
    vendCounts (u.recordVendEnd v o) =
      (countedOutcome u.audit.outcomes o, if 2 ≤ v.drops then rise32 u.audit.doubleDrops 1 else u.audit.doubleDrops,
        salesAfter u.audit.spiralSales o v.entry.position v.entry.test) := by
  rw [recordVendEnd_eq, noticed_counts]
  rfl

theorem recordVendEnd_spirals :
    (u.recordVendEnd v o).spirals = (u.setSpiral v.entry.position (outcomeRecord o v.drops)).spirals := by
  rw [recordVendEnd_eq]
  exact noticed_kept _ _ .spirals (by decide)

theorem recordVendEnd_spiral (position : Nat) :
    (u.recordVendEnd v o).spiral position = (u.setSpiral v.entry.position (outcomeRecord o v.drops)).spiral position :=
  spiral_congr (recordVendEnd_spirals u v o) position

/-- R9, R47: the notice of a vend's end is in the active slot when that was free. -/
theorem recordVendEnd_active (free : u.faults.active = none) {n : Notice} (h : vendNotice u v o = some n) :
    (u.recordVendEnd v o).faults.active = some n := by
  rw [recordVendEnd_eq, h]
  refine ((raise_noticeTaken (countedVend u v o) n).1 ?_).1
  unfold countedVend
  simpa using free

variable {u} in
/-- One notice leaves the sale to be settled, with a place for another (R188). -/
theorem raise_saleOpen {s : Station} (h : SaleOpen u s) (active : s.faults.active = u.faults.active)
    (pending : s.faults.pendingNotice = u.faults.pendingNotice) (n : Notice) : SaleOpen u (s.raise n) := by
  have kept := raise_kept s n
  have booked_eq := booked_of_kept kept (by decide) (by decide)
  refine ⟨⟨(kept .payout (by decide)).trans h.payout, (kept .tubes (by decide)).trans h.tubes,
    (doorOpen_of_kept (kept .door (by decide))).trans h.door, (raise_shortPayValue _ n).trans h.shortPays,
    fun free empty => .inr ?_⟩, (raise_txn _ n).trans h.txn, (cfg_of_kept (kept .setup (by decide))).trans h.cfg,
    (congrArg (fun b => b.2.1) booked_eq).trans h.sales, (congrArg (fun b => b.2.2) booked_eq).trans h.value⟩
  exact ((raise_noticeTaken s n).1 (active.trans free)).2.1.trans (pending.trans empty)

/-- R25: the record of a vend's end leaves the sale to be settled. -/
theorem recordVendEnd_saleOpen : SaleOpen u (u.recordVendEnd v o) := by
  have counted : SaleOpen u (countedVend u v o) := by
    unfold countedVend Station.setSpiral
    split <;> exact ⟨⟨rfl, rfl, rfl, rfl, fun free _ => .inl free⟩, rfl, rfl, rfl, rfl⟩
  have latch_eq : (countedVend u v o).faults.active = u.faults.active ∧
      (countedVend u v o).faults.pendingNotice = u.faults.pendingNotice := by
    unfold countedVend Station.setSpiral
    split <;> exact ⟨rfl, rfl⟩
  rw [recordVendEnd_eq]
  cases vendNotice u v o with
  | none => exact counted
  | some n => exact raise_saleOpen counted latch_eq.1 latch_eq.2 n

variable {o} in
/-- R7, R8, R9: the record of the spiral after the outcome. -/
theorem outcomeRecord_eq (drops : Nat) (r : Spiral) :
    outcomeRecord o drops r = { r with
      stock := stockAfter o drops r.stock
      status := statusAfter o (stockAfter o drops r.stock) r.status
      consecutiveEmpty := emptiesAfter o r.consecutiveEmpty } := by
  cases o with
  | delivered =>
    by_cases none_dropped : drops = 0
    · cases stock : r.stock with
      | unknown => simp [outcomeRecord, deliveredRecord, stockAfter, statusAfter, emptiesAfter, stockAfterDrop, none_dropped, stock]
      | known n =>
        cases n <;>
          simp [outcomeRecord, deliveredRecord, stockAfter, statusAfter, emptiesAfter, stockAfterDrop, none_dropped, stock]
    · cases stock : r.stock <;>
        simp [outcomeRecord, deliveredRecord, stockAfter, statusAfter, emptiesAfter, none_dropped, stock]
  | _ => rfl

theorem recordVendEnd_spiral_same (hr : positionInRange v.entry.position = true)
    (hl : v.entry.position - 10 < u.spirals.length) :
    (u.recordVendEnd v o).spiral v.entry.position = outcomeRecord o v.drops (u.spiral v.entry.position) :=
  (recordVendEnd_spiral u v o _).trans (spiral_setSpiral_same u _ hr hl)

theorem recordVendEnd_spiral_other {position : Nat} (h : position ≠ v.entry.position) :
    (u.recordVendEnd v o).spiral position = u.spiral position :=
  (recordVendEnd_spiral u v o _).trans (spiral_setSpiral_other u _ h)

/-- R9: the third EMPTY in a row raises the notice. -/
theorem vendNotice_empty (hr : positionInRange v.entry.position = true) (hl : v.entry.position - 10 < u.spirals.length)
    (third : 2 ≤ (u.spiral v.entry.position).consecutiveEmpty) :
    vendNotice u v .empty = some (.empty v.entry.position) := by
  have record : (countedVend u v .empty).spiral v.entry.position = outcomeRecord .empty v.drops (u.spiral v.entry.position) :=
    spiral_setSpiral_same u _ hr hl
  refine if_pos ?_
  rw [record, outcomeRecord_eq]
  simp only [emptiesAfter]
  omega

end Record

section Stages

/-! ### The stages up to the pick -/

variable (u : Station) (v : Vend) (o : Outcome)

/-- R25: the vend recorded and gone. -/
def droppedVend : Station := (u.recordVendEnd v o).dropVending

/-- R25, R26: its entry answered. -/
def answeredVend : Station := (droppedVend u v o).answerVend v o

/-- R5: the other entries of its spiral removed, where its end removes them. -/
def clearedVend : Station :=
  if removesOthers (u.spiral v.entry.position).status ((droppedVend u v o).spiral v.entry.position).status o then
    (answeredVend u v o).removeForSpiral v.entry.position
  else answeredVend u v o

/-- R5: reason and outcome of the answers to entries removed with a spiral of a status. -/
def removalReason (status : SpiralStatus) : Reason := if status = .soldOut then .soldOut else .jammed
def removalOutcome (status : SpiralStatus) : Outcome := if status = .soldOut then .soldOut else .jammed

theorem removeForSpiral_eq (s : Station) (position : Nat) :
    s.removeForSpiral position = s.removeEntries (fun e => e.position = position)
      (removalReason (s.spiral position).status) (removalOutcome (s.spiral position).status) := by
  unfold Station.removeForSpiral removalReason removalOutcome
  split <;> rfl

theorem removalAnswer_eq (status : SpiralStatus) (e : Entry) :
    removalAnswer status e = removedFrame (removalReason status) (removalOutcome status) e := by
  unfold removalAnswer removalReason removalOutcome
  split <;> rfl

theorem answeredVend_kept :
    Kept [.payout, .txn, .counters, .latch, .message, .lineQueue] (droppedVend u v o) (answeredVend u v o) :=
  answerVend_kept _ v o

theorem clearedVend_kept :
    Kept [.payout, .txn, .counters, .latch, .message, .lineQueue, .queue] (droppedVend u v o) (clearedVend u v o) := by
  have answered := (answeredVend_kept u v o).mono (m := [.payout, .txn, .counters, .latch, .message, .lineQueue, .queue])
    (by decide)
  unfold clearedVend
  split
  · exact answered.trans (removeForSpiral_kept _ _)
  · exact answered

theorem droppedVend_kept : Kept [.counters, .latch, .spirals, .vend, .queue] u (droppedVend u v o) :=
  ((recordVendEnd_kept u v o).mono (by decide)).trans ((dropVending_kept _).mono (by decide))

theorem droppedVend_spiral (position : Nat) : (droppedVend u v o).spiral position = (u.recordVendEnd v o).spiral position :=
  spiral_congr (dropVending_kept _ .spirals (by decide)) position

theorem clearedVend_spirals : (clearedVend u v o).spirals = (u.recordVendEnd v o).spirals :=
  (clearedVend_kept u v o .spirals (by decide)).trans (dropVending_kept _ .spirals (by decide))

theorem clearedVend_spiral (position : Nat) : (clearedVend u v o).spiral position = (u.recordVendEnd v o).spiral position :=
  spiral_congr (clearedVend_spirals u v o) position

theorem clearedVend_spirals_length : (clearedVend u v o).spirals.length = u.spirals.length := by
  rw [clearedVend_spirals, recordVendEnd_spirals, setSpiral_spirals_length]

theorem droppedVend_queue : (droppedVend u v o).queue = removeFirst (fun e => e.state = .vending) u.queue :=
  congrArg (removeFirst _) (recordVendEnd_kept u v o .queue (by decide))

theorem clearedVend_vend : (clearedVend u v o).vend = none :=
  (clearedVend_kept u v o .vend (by decide)).trans rfl

/-- R5, R8: whether the end of the vend removes the other entries of its spiral. -/
def clears : Bool :=
  clearsQueue o (stockAfter o v.drops (u.spiral v.entry.position).stock) (u.spiral v.entry.position).status

variable {u v o}

section Fitted

/-! ### A spiral of the planogram -/

variable (hr : positionInRange v.entry.position = true) (hl : v.entry.position - 10 < u.spirals.length)
include hr hl

theorem droppedVend_status : ((droppedVend u v o).spiral v.entry.position).status =
    statusAfter o (stockAfter o v.drops (u.spiral v.entry.position).stock) (u.spiral v.entry.position).status := by
  rw [droppedVend_spiral, recordVendEnd_spiral_same u v o hr hl, outcomeRecord_eq]

theorem clearedVend_eq : clearedVend u v o =
    if clears u v o then (answeredVend u v o).removeForSpiral v.entry.position else answeredVend u v o := by
  unfold clearedVend removesOthers clears clearsQueue
  rw [droppedVend_status hr hl, Bool.or_comm]

/-- R25, R5: the entries that wait after the end of the vend. -/
theorem clearedVend_queue : (clearedVend u v o).queue = (removeFirst (fun e => e.state = .vending) u.queue).filter fun e =>
    !(clears u v o && e.position = v.entry.position) := by
  have answered_queue : (answeredVend u v o).queue = removeFirst (fun e => e.state = .vending) u.queue :=
    (answeredVend_kept u v o .queue (by decide)).trans (droppedVend_queue u v o)
  rw [clearedVend_eq hr hl]
  cases clears u v o with
  | false => simp [answered_queue]
  | true =>
    rw [if_pos rfl, removeForSpiral_eq, (removeEntries_queues ..).1, answered_queue]
    simp

end Fitted

end Stages

section Answers

/-! ### What answers do to the transmit queue -/

/-- From `s` to `t` frames have been handed, `n` at most; those that stood in the transmit queue stand before them. -/
structure HandsUpTo (n : Nat) (s t : Station) : Prop where
  state : t.line.state = s.line.state
  queue : s.line.queue <+: t.line.queue
  bound : t.line.queue.length ≤ s.line.queue.length + n

theorem HandsUpTo.of_line {s t : Station} (h : t.line = s.line) (n : Nat) : HandsUpTo n s t :=
  ⟨by rw [h], by rw [h], by rw [h]; omega⟩

theorem HandsUpTo.of_kept {l : List Region} {s t : Station} (h : Kept l s t) (hl : Region.line ∉ l)
    (hq : Region.lineQueue ∉ l) (n : Nat) : HandsUpTo n s t := .of_line (line_of_kept (h _ hl) (h _ hq)) n

theorem HandsUpTo.trans {m n : Nat} {s t u : Station} (h : HandsUpTo m s t) (k : HandsUpTo n t u) : HandsUpTo (m + n) s u :=
  ⟨k.state.trans h.state, h.queue.trans k.queue, by have := h.bound; have := k.bound; omega⟩

theorem HandsUpTo.mono {m n : Nat} {s t : Station} (h : HandsUpTo m s t) (hmn : m ≤ n) : HandsUpTo n s t :=
  ⟨h.state, h.queue, by have := h.bound; omega⟩

theorem hand_handsUpTo (s : Station) (dst : Nat) {body : FrameBody} (hb : body.isHeartbeat = false) :
    HandsUpTo 1 s (s.hand dst body) := by
  have behind : (s.hand dst body).line.queue = s.line.queue ∨
      (s.hand dst body).line.queue = s.line.queue ++ [⟨dst, body, false⟩] := by
    by_cases allowed : sendAllowed s.line.state body = true
    · by_cases room : s.line.queue.length < 8
      · exact .inr (hand_queue allowed hb room)
      · left
        simp [Station.hand, Station.handFrame, queueFrame, replacesBehindHead, allowed, hb, room]
    · rw [hand_unsent (Bool.eq_false_iff.mpr allowed)]
      exact .inl rfl
  refine ⟨state_of_kept (hand_kept s dst body) (by decide), ?_, ?_⟩ <;> rcases behind with same | longer
  · rw [same]
  · rw [longer]
    exact List.prefix_append _ _
  · rw [same]
    omega
  · rw [longer]
    simp

theorem answerResult_handsUpTo (s : Station) (e : Entry) (o : Outcome) (drops : Nat) :
    HandsUpTo 1 s (s.answerResult e o drops) := by
  unfold Station.answerResult
  split
  · exact .of_kept (takeResult_kept s _ _ _ _) (by decide) (by decide) 1
  · exact hand_handsUpTo s _ rfl
  · exact .of_line rfl 1

theorem answerRefuse_handsUpTo (s : Station) (e : Entry) (r : Reason) : HandsUpTo 1 s (s.answerRefuse e r) := by
  unfold Station.answerRefuse
  split
  · exact .of_kept (takeRefuse_kept s _ _ _) (by decide) (by decide) 1
  · exact hand_handsUpTo s _ rfl
  · exact .of_line rfl 1

theorem answerRemoved_handsUpTo (r : Reason) (o : Outcome) (s : Station) (e : Entry) :
    HandsUpTo 1 s (Station.answerRemoved r o s e) := by
  unfold Station.answerRemoved
  split
  · exact answerRefuse_handsUpTo s e r
  · exact answerResult_handsUpTo s e o 0
  · exact .of_line rfl 1

theorem foldl_answerRemoved_handsUpTo (r : Reason) (o : Outcome) (entries : List Entry) (s : Station) :
    HandsUpTo entries.length s (entries.foldl (Station.answerRemoved r o) s) := by
  induction entries generalizing s with
  | nil => exact .of_line rfl 0
  | cons e rest ih => exact ((answerRemoved_handsUpTo r o s e).trans (ih _)).mono (by simp [Nat.add_comm])

theorem removeEntries_handsUpTo (s : Station) (p : Entry → Bool) (r : Reason) (o : Outcome) :
    HandsUpTo s.queue.length s (s.removeEntries p r o) := by
  have removed := foldl_answerRemoved_handsUpTo r o (s.queue.filter p) { s with queue := s.queue.filter fun e => !p e }
  exact HandsUpTo.mono ⟨removed.state, removed.queue, removed.bound⟩ (List.length_filter_le _ _)

variable (u : Station) (v : Vend) (o : Outcome)

theorem answerVend_handsUpTo (s : Station) : HandsUpTo 1 s (s.answerVend v o) := by
  unfold Station.answerVend
  split
  · exact .of_kept (showService_kept s _) (by decide) (by decide) 1
  · exact answerResult_handsUpTo s _ _ _

theorem droppedVend_line : (droppedVend u v o).line = u.line :=
  line_of_kept (droppedVend_kept u v o .line (by decide)) (droppedVend_kept u v o .lineQueue (by decide))

theorem answeredVend_handsUpTo : HandsUpTo 1 u (answeredVend u v o) := by
  have answered := answerVend_handsUpTo v o (droppedVend u v o)
  exact ((HandsUpTo.of_line (droppedVend_line u v o) 0).trans answered).mono (by omega)

theorem answeredVend_queue_length : (answeredVend u v o).queue.length ≤ u.queue.length := by
  rw [show (answeredVend u v o).queue = _ from (answeredVend_kept u v o .queue (by decide)).trans (droppedVend_queue u v o)]
  exact (removeFirst_sublist _ _).length_le

theorem clearedVend_handsUpTo : HandsUpTo (1 + u.queue.length) u (clearedVend u v o) := by
  have answered := answeredVend_handsUpTo u v o
  unfold clearedVend
  split
  · rw [removeForSpiral_eq]
    exact (answered.trans (removeEntries_handsUpTo ..)).mono (by have := answeredVend_queue_length u v o; omega)
  · exact answered.mono (by omega)

/-- A request for a load whose slot does not stand hands no frame (R154). -/
theorem request_line {s : Station} {cls : LoadClass} (h : s.power.slot cls = none) (power : Fig) :
    (s.request cls power).line = s.line := by
  unfold Station.request
  rw [h]
  dsimp only
  split <;> rfl

theorem beginVend_line (s : Station) (e : Entry) : (s.beginVend e).line = s.line := by
  unfold Station.beginVend
  dsimp only
  split
  · exact line_of_kept (energise_kept _ .line (by decide)) (energise_kept _ .lineQueue (by decide))
  · rename_i slot
    exact request_line (s := { s with vend := some (Vend.fresh e) }) (cls := .vendMotor) slot _

theorem pick_line (s : Station) : s.pick.line = s.line := by
  unfold Station.pick
  split
  · rfl
  · split
    · rfl
    · exact beginVend_line _ _

/-- R48, R163: the RELEASE of a claim stands behind the answers. -/
theorem releaseSlot_handsUpTo (s : Station) (cls : LoadClass) : HandsUpTo 1 s (s.releaseSlot cls) := by
  unfold Station.releaseSlot
  split
  · exact .of_line rfl 1
  · have made : ({ s with power := s.power.setSlot cls none }).roomMade.line = s.line := roomMade_line _
    have cleared (n : Nat) := HandsUpTo.of_line (s := s) made n
    dsimp only
    split
    · exact (cleared 0).trans (hand_handsUpTo _ 0 (body := .release cls) rfl)
    · exact cleared 1

/-- R163: the end of a standing load is sent where the line state lets it and the queue has room. -/
theorem releaseSlot_release {s : Station} {cls : LoadClass} (standing : (s.power.slot cls).isSome = true)
    (hear : s.line.state = .listen ∨ s.active = true) (room : s.line.queue.length < 8) :
    ⟨0, .release cls, false⟩ ∈ (s.releaseSlot cls).line.queue := by
  obtain ⟨f, slot⟩ := Option.isSome_iff_exists.mp standing
  have made : ({ s with power := s.power.setSlot cls none }).roomMade.line = s.line := roomMade_line _
  have allowed : sendAllowed s.line.state (.release cls) = true := sendAllowed_of_hears hear (.inr rfl)
  unfold Station.releaseSlot
  rw [slot]
  dsimp only
  rw [if_pos (by simpa using hear), hand_queue (by rw [made]; exact allowed) rfl (by rw [made]; exact room)]
  simp

theorem settleClaim_handsUpTo (s : Station) : HandsUpTo 1 s s.settleClaim := by
  unfold Station.settleClaim
  split
  · exact .of_line rfl 1
  · have released := releaseSlot_handsUpTo s .vendMotor
    exact ⟨released.state, released.queue, released.bound⟩

end Answers

section Ended

/-! ### The vend ended -/

variable (u : Station) (v : Vend) (o : Outcome)

/-- R4: the naming rule applied to the vend's spiral. -/
def namedVend : Station := (clearedVend u v o).applyNaming v.entry.position

/-- R24, R48: the next entry picked, the claim kept or let go. -/
def settledVend : Station := (namedVend u v o).pick.settleClaim

variable {u v o}

theorem endVend_eq (h : u.vend = some v) (o : Outcome) : u.endVend o = settledVend u v o := by
  unfold Station.endVend
  rw [h]
  rfl

theorem settledVend_kept : Kept [.queue, .vend, .power, .lineQueue] (namedVend u v o) (settledVend u v o) :=
  (pick_kept _).trans ((settleClaim_kept _).mono (by decide))

theorem namedVend_kept : Kept [.spirals] (clearedVend u v o) (namedVend u v o) := applyNaming_kept _ _

theorem namedVend_vend : (namedVend u v o).vend = none :=
  (namedVend_kept .vend (by decide)).trans (clearedVend_vend u v o)

theorem namedVend_queue : (namedVend u v o).queue = (clearedVend u v o).queue := namedVend_kept .queue (by decide)

theorem settledVend_vend : (settledVend u v o).vend = (namedVend u v o).pick.vend := settleClaim_kept _ .vend (by decide)

theorem settledVend_queue : (settledVend u v o).queue = (namedVend u v o).pick.queue := settleClaim_kept _ .queue (by decide)

theorem finish_vendCore (w s : Station) : (finish w s).vend.map vendCore = s.vend.map vendCore := (finish_admits w s).core

/-- The vend in flight after the end of an event is, but for its phase, the one before it. -/
theorem vend_of_finish {w s : Station} {x : Vend} (h : (finish w s).vend = some x) :
    ∃ y, s.vend = some y ∧ vendCore x = vendCore y := by
  have core := finish_vendCore w s
  rw [h] at core
  cases vend : s.vend with
  | none => rw [vend] at core; cases core
  | some y => rw [vend] at core; exact ⟨y, rfl, Option.some.inj core⟩

theorem finish_vend_none_iff (w s : Station) : (finish w s).vend = none ↔ s.vend = none := by
  have core := finish_vendCore w s
  cases before : s.vend <;> cases after : (finish w s).vend <;> simp_all

/-! #### The record -/

theorem answerVend_counts (s : Station) : vendCounts (s.answerVend v o) = vendCounts s := by
  unfold Station.answerVend
  split
  · exact vendCounts_of_owned (showService_kept s _ .counters (by decide))
  · exact (answerResult_aside s _ _ _).counts

theorem answerVend_active (s : Station) {n : Notice} (h : s.faults.active = some n) :
    (s.answerVend v o).faults.active = some n := by
  unfold Station.answerVend
  split
  · exact (congrArg Prod.fst (showService_kept s _ .latch (by decide))).trans h
  · exact (answerResult_aside s _ _ _).active n h

/-- R5: the removals leave what the vend has recorded. -/
theorem clearedVend_aside : Aside (answeredVend u v o) (clearedVend u v o) := by
  unfold clearedVend
  split
  · exact removeForSpiral_aside _ _
  · exact .refl _

theorem settledVend_aside : Aside (answeredVend u v o) (settledVend u v o) :=
  (clearedVend_aside.trans (.of_kept namedVend_kept (by decide))).trans (.of_kept settledVend_kept (by decide))

theorem settledVend_counts : vendCounts (settledVend u v o) = vendCounts (u.recordVendEnd v o) :=
  settledVend_aside.counts.trans (answerVend_counts _)

theorem settledVend_active {n : Notice} (h : (u.recordVendEnd v o).faults.active = some n) :
    (settledVend u v o).faults.active = some n :=
  settledVend_aside.active n (answerVend_active _ h)

theorem settledVend_spiral (position : Nat) : (settledVend u v o).spiral position = (namedVend u v o).spiral position :=
  spiral_congr (settledVend_kept .spirals (by decide)) position

/-- With nothing dropped the entries that name a position are all that stand for it (R4). -/
theorem namingCount_of_no_drops {s : Station} (h : s.vendDrops = 0) (position : Nat) :
    s.namingCount position = ((s.queue.map Entry.position).filter (· = position)).length := by
  unfold Station.namingCount entryNames
  rw [h, List.filter_map, List.length_map]
  congr 2
  funext e
  simp

/-- R36: what is picked has seen no drop. -/
theorem pick_fresh {s : Station} (h : s.vend = none) {x : Vend} (picked : s.pick.vend = some x) :
    x.entry.state = .vending ∧ x.drops = 0 ∧ x.turnsUsed = 0 ∧ x.jams = 0 := by
  cases found : s.queue.find? s.pickable with
  | none => rw [pick_of_none h found, h] at picked; cases picked
  | some e =>
    obtain ⟨-, y, vend, entry, drops, turns, jams⟩ := pick_of_some h found
    rw [vend] at picked
    cases picked
    exact ⟨by rw [entry], drops, turns, jams⟩

theorem settledVend_fresh (w : Station) : FreshVend (finish w (settledVend u v o)) := by
  intro x hx
  obtain ⟨y, hy, core⟩ := vend_of_finish hx
  rw [settledVend_vend] at hy
  simp only [vendCore, Prod.mk.injEq] at core
  obtain ⟨entry, drops, turns, jams⟩ := core
  rw [entry, drops, turns, jams]
  exact pick_fresh namedVend_vend hy

theorem vendDrops_finish_settledVend (w : Station) : (finish w (settledVend u v o)).vendDrops = 0 := by
  unfold Station.vendDrops
  split
  · rfl
  · exact (settledVend_fresh w _ ‹_›).2.1

/-- R4: the pick leaves the entries that name the spiral. -/
theorem settledVend_naming (w : Station) (position : Nat) :
    (finish w (settledVend u v o)).namingCount position = (clearedVend u v o).namingCount position := by
  have cleared_drops : (clearedVend u v o).vendDrops = 0 := by
    unfold Station.vendDrops
    rw [clearedVend_vend]
  have queue_eq : (finish w (settledVend u v o)).queue = (settledVend u v o).queue := finish_same w _ .queue
  rw [namingCount_of_no_drops (vendDrops_finish_settledVend w), namingCount_of_no_drops cleared_drops, queue_eq,
    settledVend_queue, pick_queue_map _ fun _ => rfl, namedVend_queue]

theorem namedVend_spiral_same (hr : positionInRange v.entry.position = true) (hl : v.entry.position - 10 < u.spirals.length) :
    (namedVend u v o).spiral v.entry.position = namedRecord (clearedVend u v o) v.entry.position :=
  spiral_applyNaming_same _ hr (by rw [clearedVend_spirals_length]; exact hl)

theorem settledVend_recorded (w : Station) : VendRecorded u (finish w (settledVend u v o)) v o := by
  have counts := (vendCounts_of_owned (finish_same w (settledVend u v o) .counters)).trans settledVend_counts
  rw [recordVendEnd_counts] at counts
  simp only [vendCounts, Prod.mk.injEq] at counts
  obtain ⟨outcomes, doubleDrops, sales⟩ := counts
  have spiral (position : Nat) : (finish w (settledVend u v o)).spiral position = (namedVend u v o).spiral position :=
    (spiral_finish _ _ _).trans (settledVend_spiral position)
  refine ⟨outcomes, doubleDrops, sales.trans ?_, fun q other => ?_, fun hr hl => ⟨?_, fun free => ?_⟩⟩
  · unfold salesAfter
    simp only [Bool.and_eq_true, decide_eq_true_eq, Bool.not_eq_true']
    rfl
  · rw [spiral, show (namedVend u v o).spiral q = _ from spiral_applyNaming_other _ other, clearedVend_spiral,
      recordVendEnd_spiral_other u v o other]
  · rw [spiral, namedVend_spiral_same hr hl, namedRecord, settledVend_naming, clearedVend_spiral,
      recordVendEnd_spiral_same u v o hr hl, outcomeRecord_eq]
  · have raised {n : Notice} (h : vendNotice u v o = some n) : (finish w (settledVend u v o)).faults.active = some n :=
      ((finish_same w (settledVend u v o) .latch).1).trans (settledVend_active (recordVendEnd_active u v o free h))
    refine ⟨?_, ?_, ?_⟩
    · rintro rfl
      exact raised rfl
    · rintro rfl
      exact raised rfl
    · rintro rfl third
      exact raised (vendNotice_empty u v hr hl third)

/-! #### The pick -/

/-- R24: what makes an entry pickable is kept by what follows the pick. -/
theorem mayBePicked_of_kept (w : Station) {s t : Station} (h : Kept [.queue, .vend, .power, .lineQueue] s t) :
    mayBePicked (finish w t) = s.pickable := by
  have measured_eq : (finish w t).cooling.measured = s.cooling.measured :=
    (finish_same w t .meters).trans (h .meters (by decide))
  have hold_eq : (finish w t).cooling.coldHold = s.cooling.coldHold := by
    rw [← measured_coldHold, measured_eq, measured_coldHold]
  funext e
  have spiral_eq : (finish w t).spiral e.position = s.spiral e.position :=
    (spiral_finish w t e.position).trans (spiral_congr (h .spirals (by decide)) _)
  simp [mayBePicked, Station.pickable, Station.withheld, spiral_eq, hold_eq]

theorem settledVend_picked (w : Station) : Picked (clearedVend u v o).queue (finish w (settledVend u v o)) := by
  have queue_eq : (finish w (settledVend u v o)).queue = (namedVend u v o).pick.queue :=
    (finish_same w _ .queue).trans settledVend_queue
  have core := finish_vendCore w (settledVend u v o)
  rw [settledVend_vend] at core
  unfold Picked
  rw [mayBePicked_of_kept w settledVend_kept, queue_eq, ← namedVend_queue]
  refine ⟨fun e found => ?_, fun none_found => ?_⟩
  · obtain ⟨picked_queue, y, vend, entry, drops, turns, jams⟩ := pick_of_some namedVend_vend found
    refine ⟨picked_queue, ?_⟩
    rw [vend] at core
    obtain ⟨x, hx, core_eq⟩ := Option.map_eq_some_iff.mp core
    simp only [vendCore, Prod.mk.injEq] at core_eq
    obtain ⟨x_entry, x_drops, x_turns, x_jams⟩ := core_eq
    exact ⟨x, hx, x_entry.trans entry, x_drops.trans drops, x_turns.trans turns, x_jams.trans jams⟩
  · rw [pick_of_none namedVend_vend none_found] at core ⊢
    rw [namedVend_vend] at core
    exact ⟨rfl, Option.map_eq_none_iff.mp core⟩

/-! #### The answers on the line -/

theorem namedVend_line : (namedVend u v o).line = (clearedVend u v o).line :=
  line_of_kept (namedVend_kept .line (by decide)) (namedVend_kept .lineQueue (by decide))

theorem settledVend_handsUpTo : HandsUpTo 1 (clearedVend u v o) (settledVend u v o) := by
  have before : (namedVend u v o).pick.line = (clearedVend u v o).line := (pick_line _).trans namedVend_line
  obtain ⟨state, queue, bound⟩ := settleClaim_handsUpTo (namedVend u v o).pick
  rw [before] at state queue bound
  exact ⟨state, queue, bound⟩

/-- Frames handed before the pick stand in the transmit queue after the event. -/
theorem mem_of_cleared (w : Station) {f : Frame} (h : f ∈ (clearedVend u v o).line.queue) :
    f ∈ (finish w (settledVend u v o)).line.queue :=
  (settledVend_handsUpTo.queue.trans (finish_admits w _).queue).subset h

theorem sendsAnswers_of_hears (hear : u.line.state = .listen ∨ u.active = true) : u.sendsAnswers :=
  hear.imp_right .inl

/-- R26: the RESULT for the entry of a peer. -/
theorem settledVend_queued (w : Station) {a tag : Nat} (customer : v.entry.test = false)
    (payer : v.entry.payer = some (.peer a)) (tagged : v.entry.tag = some tag)
    (hear : u.line.state = .listen ∨ u.active = true) :
    Queued u (finish w (settledVend u v o)) a (.result tag o v.drops) := by
  intro room
  have line_eq := droppedVend_line u v o
  have answered : answeredVend u v o = (droppedVend u v o).hand a (.result tag o v.drops) := by
    simp [answeredVend, Station.answerVend, Station.answerResult, customer, payer, tagged]
  have cleared_prefix : (answeredVend u v o).line.queue <+: (clearedVend u v o).line.queue := by
    unfold clearedVend
    split
    · rw [removeForSpiral_eq]
      exact (removeEntries_handsUpTo ..).queue
    · exact List.prefix_rfl
  refine mem_of_cleared w (cleared_prefix.subset ?_)
  rw [answered, hand_queue (by rw [line_eq]; exact sendAllowed_of_hears hear (.inr rfl)) rfl (by rw [line_eq]; exact room)]
  simp

/-- R5: the answers to the entries removed with the spiral. -/
theorem settledVend_removals (w : Station) (hr : positionInRange v.entry.position = true)
    (hl : v.entry.position - 10 < u.spirals.length) {e : Entry}
    (he : e ∈ removeFirst (fun e => e.state = .vending) u.queue) {f : Frame}
    (hf : removalAnswer ((finish w (settledVend u v o)).spiral v.entry.position).status e = some f)
    (hp : e.position = v.entry.position) (removes : clears u v o = true)
    (hear : u.line.state = .listen ∨ u.active = true) (room : u.line.queue.length + u.queue.length ≤ 7) :
    f ∈ (finish w (settledVend u v o)).line.queue := by
  have answered_spiral : (answeredVend u v o).spiral v.entry.position = (clearedVend u v o).spiral v.entry.position := by
    rw [clearedVend_spiral, ← droppedVend_spiral]
    exact spiral_congr (answeredVend_kept u v o .spirals (by decide)) _
  have status_eq : ((finish w (settledVend u v o)).spiral v.entry.position).status =
      ((answeredVend u v o).spiral v.entry.position).status := by
    rw [spiral_finish, settledVend_spiral, namedVend_spiral_same hr hl, answered_spiral]
    rfl
  have answered := answeredVend_handsUpTo u v o
  have answered_queue : (answeredVend u v o).queue = removeFirst (fun e => e.state = .vending) u.queue :=
    (answeredVend_kept u v o .queue (by decide)).trans (droppedVend_queue u v o)
  have sends : (answeredVend u v o).sendsAnswers := (sendsAnswers_congr answered.state).mpr (sendsAnswers_of_hears hear)
  rw [status_eq, removalAnswer_eq] at hf
  refine mem_of_cleared w ?_
  rw [clearedVend_eq hr hl, if_pos removes, removeForSpiral_eq, (removeEntries_queues ..).2.1 sends]
  · exact List.mem_append_right _ (List.mem_filterMap.mpr ⟨e, by simp [answered_queue, he, hp], hf⟩)
  · have shorter := answeredVend_queue_length u v o
    have filtered := (List.length_filterMap_le (removedFrame
      (removalReason ((answeredVend u v o).spiral v.entry.position).status)
      (removalOutcome ((answeredVend u v o).spiral v.entry.position).status)) _).trans
      (List.length_filter_le (fun e => decide (e.position = v.entry.position)) (answeredVend u v o).queue)
    have := answered.bound
    omega

/-! #### The technician and the own customer -/

theorem settledVend_message (w : Station) (test : v.entry.test = true) (opened : u.faults.doorOpen = true) :
    (finish w (settledVend u v o)).panel.message = some (.testOutcome v.entry.position o v.drops) := by
  have dropped_open : (droppedVend u v o).faults.doorOpen = true :=
    (doorOpen_of_kept (droppedVend_kept u v o .door (by decide))).trans opened
  have answered : answeredVend u v o = (droppedVend u v o).showService (.testOutcome v.entry.position o v.drops) := by
    simp [answeredVend, Station.answerVend, test]
  have answered_open : (answeredVend u v o).faults.doorOpen = true :=
    (doorOpen_of_kept (answeredVend_kept u v o .door (by decide))).trans dropped_open
  calc (finish w (settledVend u v o)).panel.message = (settledVend u v o).panel.message := (finish_same w _ .message).1
    _ = (answeredVend u v o).panel.message := settledVend_aside.message answered_open
    _ = some (.testOutcome v.entry.position o v.drops) := by rw [answered, showService_message dropped_open]

theorem SaleKept.of_owned {s t : Station} (txn : t.txn = s.txn) (payout : t.payout = s.payout)
    (owned : t.audit.owned = s.audit.owned) (active : t.faults.active = s.faults.active)
    (pending : t.faults.pendingNotice = s.faults.pendingNotice) : SaleKept s t :=
  ⟨txn, payout, (congrArg Audit.salesCount owned :), (congrArg Audit.salesValue owned :),
    (congrArg Audit.shortPayValue owned :), active, pending⟩

theorem SaleKept.of_kept {l : List Region} {s t : Station} (h : Kept l s t)
    (hl : ∀ r ∈ [Region.txn, .payout, .counters, .latch], r ∉ l) : SaleKept s t := by
  obtain ⟨active, rest⟩ := Prod.mk.inj (show (t.faults.active, t.faults.pendingNotice, t.audit.dropped) = _ from
    h _ (hl .latch (by decide)))
  exact .of_owned (h _ (hl .txn (by decide))) (h _ (hl .payout (by decide))) (h _ (hl .counters (by decide))) active
    (Prod.mk.inj rest).1

theorem finish_saleKept (w s : Station) : SaleKept s (finish w s) := by
  obtain ⟨active, pending, -⟩ := finish_same w s .latch
  exact .of_owned (finish_same w s .txn) (finish_same w s .payout) (finish_same w s .counters) active pending

/-- Where no offer is current no removal touches a sale. -/
theorem removeEntries_saleKept {s : Station} (h : s.txn.offer = none) (p : Entry → Bool) (r : Reason) (o : Outcome) :
    SaleKept s (s.removeEntries p r o) :=
  SaleKept.trans (.of_kept (queue_kept s _) (by decide))
    (foldl_answerRemoved_apart (s := { s with queue := s.queue.filter fun e => !p e }) _
      (fun e _ => answersNone_of_no_offer h e) r o).saleKept

/-- R25: once the entry of the vend is answered the end of the vend leaves the sale as it is. -/
theorem settledVend_saleKept (w : Station) (h : (answeredVend u v o).txn.offer = none) :
    SaleKept (answeredVend u v o) (finish w (settledVend u v o)) := by
  have cleared : SaleKept (answeredVend u v o) (clearedVend u v o) := by
    unfold clearedVend
    split
    · rw [removeForSpiral_eq]
      exact removeEntries_saleKept h _ _ _
    · exact .of_kept (Kept.refl [] _) (by decide)
  exact ((cleared.trans (.of_kept namedVend_kept (by decide))).trans (.of_kept settledVend_kept (by decide))).trans
    (finish_saleKept w _)

/-- R117: the outcome handed to the own customer's sale. -/
theorem settledVend_sale (w : Station) {tag : Nat} (customer : v.entry.test = false) (payer : v.entry.payer = some .loc)
    (tagged : v.entry.tag = some tag) (current : u.answersOffer .loc tag = true) (committed : u.txn.state = .committed) :
    if o = .delivered then SaleTaken u (finish w (settledVend u v o)) else SaleFailed u (finish w (settledVend u v o)) := by
  have recorded := recordVendEnd_saleOpen u v o
  have opened : SaleOpen u (droppedVend u v o) :=
    ⟨⟨recorded.payout, recorded.tubes, recorded.door, recorded.shortPays, recorded.free⟩, recorded.txn, recorded.cfg,
      recorded.sales, recorded.value⟩
  have answered : answeredVend u v o = if o = .delivered then (droppedVend u v o).takeSale false v.drops
      else (droppedVend u v o).failSale (outcomeMessage o) := by
    have still_current := (answersOffer_congr opened.txn .loc tag).trans current
    have still_committed := (congrArg Txn.state opened.txn).trans committed
    simp [answeredVend, Station.answerVend, Station.answerResult, Station.takeResult, customer, payer, tagged,
      still_current, still_committed]
  have kept := settledVend_saleKept (u := u) (v := v) (o := o) w
  split at answered <;> rename_i delivered <;> rw [answered] at kept
  · rw [if_pos delivered]
    exact saleTaken_of_saleKept (takeSale_taken opened false v.drops) (kept (takeSale_offer _ _ _))
  · rw [if_neg delivered]
    exact saleFailed_of_saleKept (failSale_failed opened _) (kept (failSale_offer _ _))

/-! #### The claim -/

theorem namedVend_power : (namedVend u v o).power = u.power :=
  ((namedVend_kept .power (by decide)).trans (clearedVend_kept u v o .power (by decide))).trans
    (droppedVend_kept u v o .power (by decide))

theorem releaseSlot_slot (s : Station) (cls : LoadClass) : (s.releaseSlot cls).power.slot cls = none := by
  have made (p : Power) (h : p.slot cls = none) : ({ s with power := p }).roomMade.power.slot cls = none := by
    unfold Station.roomMade
    split
    · cases cls <;> exact h
    · exact h
  unfold Station.releaseSlot
  split
  · assumption
  · have cleared := made _ (setSlot_slot_self s.power cls none)
    dsimp only
    split
    · rw [hand_kept _ _ _ .power (by decide)]
      exact cleared
    · exact cleared

/-- R48, R154: the slot let go and the request withdrawn. -/
theorem withdrawn_motorAt (s : Station) : MotorAt none ((s.releaseSlot .vendMotor).withdrawRequest .vendMotor) := by
  refine ⟨releaseSlot_slot s .vendMotor, fun r hr motor => ?_⟩
  obtain ⟨q, hq, rfl⟩ := List.mem_map.mp hr
  have q_motor : q.cls = .vendMotor := by
    by_cases h : q.cls = .vendMotor
    · exact h
    · rw [if_neg h] at motor
      exact motor
  rw [if_pos q_motor]
  refine ⟨rfl, ?_⟩
  have kept := (List.mem_filter.mp hq).2
  cases phase : q.phase <;> simp_all

/-- R48: with nothing picked the claim is let go. -/
theorem settledVend_of_none (h : (settledVend u v o).vend = none) :
    settledVend u v o = ((namedVend u v o).releaseSlot .vendMotor).withdrawRequest .vendMotor := by
  have none_picked : (namedVend u v o).pick.vend = none := settledVend_vend.symm.trans h
  have unpicked : (namedVend u v o).pick = namedVend u v o := by
    cases found : (namedVend u v o).queue.find? (namedVend u v o).pickable with
    | none => exact pick_of_none namedVend_vend found
    | some e =>
      obtain ⟨-, y, vend, -⟩ := pick_of_some namedVend_vend found
      rw [vend] at none_picked
      cases none_picked
  unfold settledVend Station.settleClaim
  rw [none_picked, unpicked]

/-- R36, R48: a claim that stands is kept for the entry picked. -/
theorem pick_motorAt {s : Station} {f : Option Fig} (h : MotorAt f s) (standing : f.isSome = true) : MotorAt f s.pick := by
  obtain ⟨fig, rfl⟩ := Option.isSome_iff_exists.mp standing
  unfold Station.pick
  split
  · exact h
  · split
    · exact h
    · unfold Station.beginVend
      dsimp only
      rw [h.1]
      exact h.of_power (energise_kept _ .power (by decide))

theorem settledVend_claim (w : Station) (alone : hasRequest u.power.requests .vendMotor = false ∨ u.power.vendMotor = none) :
    ((finish w (settledVend u v o)).vend = none → (finish w (settledVend u v o)).power.vendMotor = none ∧
        (∀ r ∈ (finish w (settledVend u v o)).power.requests, r.cls = .vendMotor → r.withdrawn = true) ∧
        (u.power.vendMotor.isSome = true → u.line.state = .listen ∨ u.active = true →
          u.line.queue.length + u.queue.length ≤ 6 →
          ⟨0, .release .vendMotor, false⟩ ∈ (finish w (settledVend u v o)).line.queue)) ∧
      ((finish w (settledVend u v o)).vend ≠ none →
        ∀ f, u.power.vendMotor = some f → (finish w (settledVend u v o)).power.vendMotor = some f) := by
  rw [ne_eq, finish_vend_none_iff]
  refine ⟨fun none_left => ?_, fun picked f standing => ?_⟩
  · have settled := settledVend_of_none none_left
    have motor : MotorAt none (finish w (settledVend u v o)) := by
      refine finish_motorAt w ?_
      rw [settled]
      exact withdrawn_motorAt _
    refine ⟨motor.1, fun r hr cls => (motor.2 r hr cls).1, fun standing hear room => ?_⟩
    have cleared := clearedVend_handsUpTo u v o
    refine (finish_admits w _).queue.subset ?_
    rw [settled]
    refine releaseSlot_release (s := namedVend u v o) ?_ ?_ ?_
    · rw [namedVend_power]
      exact standing
    · unfold Station.active at hear ⊢
      rwa [namedVend_line, cleared.state]
    · rw [namedVend_line]
      have := cleared.bound
      omega
  · have unasked : hasRequest u.power.requests .vendMotor = false := alone.resolve_right (by simp [standing])
    have before : MotorAt (some f) (namedVend u v o) := by
      refine MotorAt.of_power (s := u) ⟨standing, fun r hr cls => ?_⟩ namedVend_power
      have other := List.any_eq_false.mp unasked r hr
      exact absurd cls (by simpa using other)
    have kept : settledVend u v o = (namedVend u v o).pick := by
      obtain ⟨x, hx⟩ := Option.ne_none_iff_exists'.mp picked
      unfold settledVend Station.settleClaim
      rw [settledVend_vend.symm.trans hx]
    refine (finish_motorAt w ?_).1
    rw [kept]
    exact pick_motorAt before rfl

theorem settledVend_same (w : Station) (h : u.vend = some v) : ∀ r ∈ [Region.clock, .setup, .home, .chute, .tubes, .journal,
    .coinLink, .buffer, .service, .meters, .line, .peers, .door], r.same u (finish w (settledVend u v o)) := by
  rw [← endVend_eq h]
  exact same_of_kept w (endVend_kept u o) (by decide)

/-- R25: the end of the vend in flight. -/
theorem endVend_ended (w : Station) (h : u.vend = some v) (o : Outcome) : VendEnded u (finish w (u.endVend o)) v o := by
  rw [endVend_eq h]
  refine ⟨settledVend_recorded w, settledVend_fresh w, fun hr hl => ⟨?_, fun e he f hf hp removes hear room =>
    settledVend_removals w hr hl he hf hp removes hear room⟩, fun test opened => settledVend_message w test opened,
    fun a tag customer payer tagged hear => settledVend_queued w customer payer tagged hear,
    fun tag customer payer tagged current committed => settledVend_sale w customer payer tagged current committed,
    settledVend_claim w, settledVend_same w h⟩
  have picked := settledVend_picked (u := u) (v := v) (o := o) w
  rwa [clearedVend_queue hr hl] at picked

end Ended

end Sys2Proof.Proofs

/-! SUPPORT. The vend in flight (O19 to O22): its timers and the assessments of its current, HOME, jams and reversals, and
the beam. -/

namespace Sys2Proof.Proofs

open Sys2Proof.Machine Sys2Proof.Laws

section Timers

/-! ### Timers and assessments of a vend (R34, R37 to R43) -/

variable {s u t : Station} {v x : Vend} {o : Outcome}

/-- What `VendEnded` says of a vend is said of its entry and its drops. -/
theorem vendEnded_congr (he : x.entry = v.entry) (hd : x.drops = v.drops) (h : VendEnded u t x o) : VendEnded u t v o := by
  unfold VendEnded VendRecorded at h ⊢
  rwa [he, hd] at h

theorem endVend_ended_of_core (w : Station) (h : u.vend = some x) (he : x.entry = v.entry) (hd : x.drops = v.drops)
    (o : Outcome) : VendEnded u (finish w (u.endVend o)) v o :=
  vendEnded_congr he hd (endVend_ended w h o)

/-- An expiry of a timer of the vend in flight. -/
theorem expire_vendIn {phase : VendPhase} (h : s.vend = some v) (hp : v.phase = phase) (length : Nat)
    (effect : Station → Station) :
    expire (s.vendIn phase) length s.vendTimer effect s = effect (s.advance (length - v.timer)) := by
  have runs : s.vendIn phase = true := by simp [Station.vendIn, h, hp]
  have elapsed : s.vendTimer = v.timer := by simp [Station.vendTimer, h]
  rw [expire, if_pos runs, elapsed]
  rfl

/-- Time leaves entry and drops of the vend in flight, HALTED or not. -/
theorem advance_vend_core (h : s.vend = some v) (d : Nat) :
    ∃ x, (s.advance d).vend = some x ∧ x.entry = v.entry ∧ x.drops = v.drops := by
  by_cases halted : s.line.state = .halted
  · rw [advance_halted d s halted]
    exact ⟨v, h, rfl, rfl⟩
  · rw [advance_vend d s halted, h]
    obtain ⟨entry, -, -, -, drops, -⟩ := vend_advance_keeps s.cfg d v
    exact ⟨_, rfl, entry, drops⟩

theorem motorForward_iff (h : s.vend = some v) : s.motorForward = true ↔ motorSense v = some .forward := by
  unfold Station.motorForward Station.vendIn motorSense
  rw [h]
  cases phase : v.phase with
  | reversing step => cases step <;> simp [phase]
  | _ => simp [phase]

theorem motorOn_iff (h : s.vend = some v) : s.motorOn = true ↔ (motorSense v).isSome = true := by
  unfold Station.motorOn Station.motorForward Station.vendIn motorSense
  rw [h]
  cases phase : v.phase with
  | reversing step => cases step <;> simp [phase]
  | _ => simp [phase]

/-- R34: the vend after the assessments, which are made while its motor is energised. -/
def assessed (c : Settings) (v : Vend) (currents : List Nat) : Vend :=
  if (motorSense v).isSome then assessAll c v currents else v

theorem assess_vend_some (h : s.vend = some v) (running : s.line.state ≠ .halted) (currents : List Nat) :
    (s.assess currents).vend = some (assessed s.cfg v currents) := by
  unfold assessed
  cases on : s.motorOn with
  | true => rw [assess_vend s currents on running, h, if_pos ((motorOn_iff h).mp on), Option.map_some]
  | false => rw [assess_off s currents on, h, if_neg fun sense => Bool.false_ne_true (on.symm.trans ((motorOn_iff h).mpr sense))]

variable (c : Settings) (currents : List Nat)

theorem assessed_keeps (v : Vend) :
    (assessed c v currents).entry = v.entry ∧ (assessed c v currents).phase = v.phase ∧
      (assessed c v currents).turnsUsed = v.turnsUsed ∧ (assessed c v currents).jams = v.jams ∧
      (assessed c v currents).drops = v.drops := by
  unfold assessed
  split
  · exact assessAll_keeps c currents v
  · exact ⟨rfl, rfl, rfl, rfl, rfl⟩

theorem assessed_sense (v : Vend) : motorSense (assessed c v currents) = motorSense v := by
  unfold assessed
  split
  · exact assessAll_sense c currents v
  · rfl

variable {c currents}

theorem assessed_of_sense {d : Direction} (h : motorSense v = some d) : assessed c v currents = assessAll c v currents :=
  if_pos (by rw [h]; rfl)

/-- R34: the time of the energising, counted to 150 ms. -/
theorem assessAll_onTime_bounds {d : Direction} (h : motorSense v = some d) :
    (assessAll c v currents).onTime ≤ v.onTime + currents.length ∧
      min 150 (v.onTime + currents.length) ≤ (assessAll c v currents).onTime := by
  by_cases none_read : currents = []
  · subst none_read
    exact ⟨Nat.le_refl _, Nat.min_le_right _ _⟩
  · rw [assessAll_onTime c d currents v h none_read]
    exact ⟨Nat.min_le_right _ _, Nat.le_refl _⟩

/-- R39: a short found in the station assessed. -/
theorem shortFound_iff (h : s.vend = some v) (running : s.line.state ≠ .halted) {d : Direction}
    (sense : motorSense v = some d) :
    (s.assess currents).shortFound = true ↔ v.shorted = true ∨ ReadsShort s.cfg v currents := by
  have vend_eq := assess_vend_some h running currents
  have on : (s.assess currents).motorOn = true := (motorOn_iff vend_eq).mpr (by rw [assessed_sense, sense]; rfl)
  unfold Station.shortFound
  rw [on, vend_eq, assessed_of_sense sense]
  simpa using assessAll_shorted s.cfg d currents v sense

/-- R39: an open circuit found in the station assessed. -/
theorem openFound_iff (h : s.vend = some v) (running : s.line.state ≠ .halted) :
    (s.assess currents).openFound = true ↔
      motorSense v = some .forward ∧ v.low = true ∧ ¬ReadsCurrent s.cfg v currents ∧ 100 ≤ v.onTime + currents.length := by
  have vend_eq := assess_vend_some h running currents
  have forward := motorForward_iff vend_eq
  rw [assessed_sense] at forward
  unfold Station.openFound
  rw [Bool.and_eq_true, forward, vend_eq]
  refine and_congr_right fun sense => ?_
  obtain ⟨onTime_le, le_onTime⟩ := assessAll_onTime_bounds (c := s.cfg) (currents := currents) sense
  have low := assessAll_low s.cfg .forward currents v sense
  have long : Config.openCheckTime ≤ (assessAll s.cfg v currents).onTime ↔ 100 ≤ v.onTime + currents.length := by
    simp only [Config.openCheckTime]
    omega
  rw [assessed_of_sense sense, Option.any_some, Bool.and_eq_true, low, decide_eq_true_iff, long, and_assoc]

theorem gives_of_ifFound {i : Instr} {s : State} {P : Station → Prop} {found : Station → Bool} {effect : Station → Station}
    (hi : exec i s = .next (event s fun o => o.ifFound currents found effect))
    (hit : found (s.station.assess currents) = true → P (finish s.station (effect (s.station.assess currents))))
    (miss : found (s.station.assess currents) = false → P (finish s.station (s.station.assess currents))) : Gives i s P := by
  refine gives_of_event _ hi ?_
  unfold Station.ifFound
  dsimp only
  split
  · exact hit ‹_›
  · exact miss (Bool.eq_false_iff.mpr ‹_›)

theorem keepsBut_finish (w s : Station) : KeepsBut [] s (finish w s) := keepsBut_of_kept w (Kept.refl [] s) (by decide)

end Timers

section VendEnds

variable {s : State} {v : Vend}

/-- R37, R40, R43: a timer ends the vend in flight. -/
theorem vendTimer_gives {c : Instr} {phase : VendPhase} {length : Nat} (o : Outcome) (h : s.station.vend = some v)
    (hp : v.phase = phase)
    (hc : exec c s = .next (event s fun w => expire (w.vendIn phase) length w.vendTimer (fun t => t.endVend o) w)) :
    Gives c s fun t => VendEnded (s.station.advance (length - v.timer)) t v o := by
  refine gives_of_event _ hc ?_
  rw [expire_vendIn h hp]
  obtain ⟨x, vend_eq, entry, drops⟩ := advance_vend_core h (length - v.timer)
  exact endVend_ended_of_core _ vend_eq entry drops o

theorem endsVend_gives {c : Instr} {o : Outcome} {d : Nat} (h : s.station.vend = some v) (ends : endsVend c v = some (o, d)) :
    Gives c s fun t => VendEnded (s.station.advance d) t v o := by
  unfold endsVend at ends
  split at ends
  · split at ends <;> cases ends
    exact vendTimer_gives _ h ‹_› rfl
  · split at ends <;> cases ends
    exact vendTimer_gives _ h ‹_› rfl
  · split at ends <;> cases ends
    exact vendTimer_gives _ h ‹_› rfl
  · cases ends

/-- Settles O19: each timer by `endsVend_gives`, each check by what the assessments have found. -/
theorem vendEndsByItsTimersAndChecks : Obligations.VendEndsByItsTimersAndChecks := by
  unfold Obligations.VendEndsByItsTimersAndChecks
  refine ⟨?timers, ?short, ?opened⟩
  case timers =>
    rintro c s v o d u h ends rfl
    exact endsVend_gives h ends
  case short =>
    rintro s v currents u h sense running rfl
    obtain ⟨d, sense⟩ := Option.isSome_iff_exists.mp sense
    have found := shortFound_iff (currents := currents) h running sense
    have vend_eq := assess_vend_some h running currents
    obtain ⟨entry, -, -, -, drops⟩ := assessed_keeps s.station.cfg currents v
    refine gives_of_ifFound (currents := currents) rfl (fun hit => ?_) fun miss => ?_
    · refine ⟨fun _ => endVend_ended_of_core _ vend_eq entry drops _, fun unshorted unread => ?_⟩
      rcases found.mp hit with shorted | read
      · exact absurd (shorted.symm.trans unshorted) (by decide)
      · exact absurd read unread
    · exact ⟨fun shorted => absurd (found.mpr shorted) (ne_true_of_eq_false miss), fun _ _ => keepsBut_finish _ _⟩
  case opened =>
    rintro s v currents u h running rfl
    have found := openFound_iff (currents := currents) h running
    have vend_eq := assess_vend_some h running currents
    obtain ⟨entry, -, -, -, drops⟩ := assessed_keeps s.station.cfg currents v
    refine gives_of_ifFound (currents := currents) rfl (fun hit => ?_) fun miss => ?_
    · obtain ⟨forward, low, unread, long⟩ := found.mp hit
      refine ⟨fun _ _ _ _ => endVend_ended_of_core _ vend_eq entry drops _, ?_⟩
      rintro (other | current | read | early)
      · exact absurd forward other
      · exact absurd (low.symm.trans current) (by decide)
      · exact absurd read unread
      · omega
    · exact ⟨fun forward low unread long => absurd (found.mpr ⟨forward, low, unread, long⟩) (ne_true_of_eq_false miss),
        fun _ => keepsBut_finish _ _⟩

end VendEnds

section Phases

/-! ### Phases of the vend in flight -/

variable {s u t : Station} {v x : Vend} {o : Outcome}

theorem onVend_some (h : s.vend = some v) (f : Vend → Station → Station) : s.onVend f = f v s := by
  unfold Station.onVend
  rw [h]

/-- The end of an event leaves a vend past CLAIMING as it is. -/
theorem vend_finish (w : Station) (h : s.vend = some v) (hp : v.phase ≠ .claiming) : (finish w s).vend = some v :=
  (finish_same w s .vend (.inr (by simp [Station.vendIn, h, hp]))).trans h

theorem phase_ne_claiming {d : Direction} (h : motorSense v = some d) : v.phase ≠ .claiming := by
  intro hp
  simp [motorSense, hp] at h

/-- The body of an event changes the vend alone. -/
theorem vendChanged (w : Station) (u : Station) {x : Vend} (hp : x.phase ≠ .claiming) :
    (finish w { u with vend := some x }).vend = some x ∧ KeepsBut [.vend] u (finish w { u with vend := some x }) :=
  ⟨vend_finish w rfl hp, keepsBut_of_kept w (vend_kept u _) (by decide)⟩

/-- R38: forward energising, by HOME. -/
theorem energise_some (h : u.vend = some v) : u.energise = { u with vend := some (v.energised
    (if u.homeOpen.getD (v.entry.position - 10) false then .turning else .starting) .forward) } := by
  unfold Station.energise
  rw [h]

theorem energised_phase_ne_claiming (v : Vend) (home : Bool) (d : Direction) :
    (v.energised (if home then .turning else .starting) d).phase ≠ .claiming := by
  cases home <;> simp [Vend.energised]

/-- `VendEnded` reads nothing of the vend in flight. -/
theorem vendEnded_of_vend {y : Option Vend} (h : VendEnded { u with vend := y } t v o) : VendEnded u t v o := by
  obtain ⟨recorded, fresh, queue, message, result, sale, claim, same⟩ := h
  refine ⟨recorded, fresh, queue, message, result, sale, claim, fun r hr => ?_⟩
  have kept := same r hr
  simp only [List.mem_cons, List.not_mem_nil, or_false] at hr
  rcases hr with rfl | rfl | rfl | rfl | rfl | rfl | rfl | rfl | rfl | rfl | rfl | rfl | rfl <;> exact kept

/-- The vend in flight, with counts of its own changed, ends. -/
theorem endVend_ended_of_counted (w : Station) (u : Station) (he : x.entry = v.entry) (hd : x.drops = v.drops) (o : Outcome) :
    VendEnded u (finish w (({ u with vend := some x }).endVend o)) v o :=
  vendEnded_of_vend (endVend_ended_of_core w (u := { u with vend := some x }) rfl he hd o)

end Phases

section Home

/-! ### HOME (R35, R40, R43, R46) -/

variable {s : State} {v : Vend}

theorem setHome_kept (s : Station) (v : Vend) (isOpen : Bool) : Kept [.home] s (s.setHome v isOpen) := by
  intro r unlisted
  cases r with
  | home => exact absurd List.mem_cons_self unlisted
  | _ => rfl

/-- A change of HOME held long enough at an energised motor. -/
theorem homeChange_gives {c : Instr} {held : Nat} {P : Station → Prop} {change : Vend → Station → Station}
    (hc : exec c s = .next (event s (ifHeld Config.homeHold held fun o => if o.motorOn then o.onVend change else o)))
    (h : s.station.vend = some v) (sense : (motorSense v).isSome = true) (long : Config.homeHold ≤ held)
    (hp : P (finish s.station (change v s.station))) : Gives c s P := by
  refine gives_of_event _ hc ?_
  rwa [ifHeld_of_le long, if_pos ((motorOn_iff h).mpr sense), onVend_some h]

/-- A change of HOME held for less is none. -/
theorem homeChange_unheld {c : Instr} {held : Nat} {change : Station → Station}
    (hc : exec c s = .next (event s (ifHeld Config.homeHold held change))) (short : held < Config.homeHold) :
    Gives c s fun t => KeepsBut [] s.station t := by
  refine gives_of_event _ hc ?_
  rw [ifHeld_of_lt short]
  exact keepsBut_finish _ _

/-- R40. -/
theorem homeOpens_eq (u : Station) (v : Vend) (h : u.vend = some v) :
    u.homeOpens v = { u.setHome v true with
      vend := some (if v.phase = .starting then { v with phase := .turning, timer := 0 } else v) } := by
  unfold Station.homeOpens
  dsimp only
  split
  · rfl
  · rw [← h]
    rfl

theorem homeSet_kept (u : Station) (v : Vend) (isOpen : Bool) (y : Option Vend) :
    Kept [.home, .vend] u { u.setHome v isOpen with vend := y } :=
  ((setHome_kept u v isOpen).mono (by decide)).trans ((vend_kept _ y).mono (by decide))

/-- The level of HOME and the vend changed, and nothing else. -/
theorem homeSet_finish (w u : Station) (v : Vend) (isOpen : Bool) {x : Vend} (hp : x.phase ≠ .claiming) :
    (finish w { u.setHome v isOpen with vend := some x }).homeOpen =
        updateAt u.homeOpen (v.entry.position - 10) (fun _ => isOpen) ∧
      (finish w { u.setHome v isOpen with vend := some x }).vend = some x ∧
      KeepsBut [.home, .vend] u (finish w { u.setHome v isOpen with vend := some x }) :=
  ⟨finish_same w _ .home, vend_finish w rfl hp, keepsBut_of_kept w (homeSet_kept u v isOpen _) (by decide)⟩

theorem homeCloses_of_other (h : v.phase ≠ .turning) (u : Station) : u.homeCloses v = u.setHome v false := if_neg h

theorem homeCloses_of_turning (h : v.phase = .turning) (u : Station) :
    u.homeCloses v = (u.setHome v false).revolutionEnds v := if_pos h

theorem homeCloses_home (w u : Station) (v : Vend) :
    (finish w (u.homeCloses v)).homeOpen = updateAt u.homeOpen (v.entry.position - 10) fun _ => false := by
  refine (finish_same w _ .home).trans ?_
  by_cases turning : v.phase = .turning
  · rw [homeCloses_of_turning turning]
    exact revolutionEnds_kept _ v .home (by decide)
  · rw [homeCloses_of_other turning]
    rfl

/-- R43: the revolution of a vend is counted. -/
def turned (v : Vend) : Vend := { v with turnsUsed := v.turnsUsed + 1, timer := 0 }

/-- R43, R46: a revolution that no drop was seen in, with the delivery guarantee, waits for one. -/
theorem revolutionEnds_of_guarantee {u : Station} (none_dropped : v.drops = 0) (guarantee : u.cfg.guarantee = true) :
    u.revolutionEnds v = { u with vend := some { turned v with phase := .settling } } := by
  refine if_neg ?_
  simp [none_dropped, guarantee]

theorem revolutionEnds_of_delivered {u : Station} (h : v.drops ≠ 0 ∨ u.cfg.guarantee = false) :
    u.revolutionEnds v = ({ u with vend := some (turned v) }).endVend .delivered := by
  refine if_pos ?_
  simpa using h

/-- Settles O20. -/
theorem homeLevelsDriveTheVend : Obligations.HomeLevelsDriveTheVend := by
  unfold Obligations.HomeLevelsDriveTheVend
  refine ⟨?opens, ?closes, ?unheld⟩
  case opens =>
    intro s v held h sense long
    refine homeChange_gives (change := fun v t => t.homeOpens v) rfl h sense long ?_
    obtain ⟨d, sense⟩ := Option.isSome_iff_exists.mp sense
    rw [homeOpens_eq _ v h]
    refine homeSet_finish s.station s.station v true ?_
    split
    · simp
    · exact phase_ne_claiming sense
  case closes =>
    intro s v held h sense long
    refine homeChange_gives (change := fun v t => t.homeCloses v) rfl h sense long ?_
    obtain ⟨d, sense⟩ := Option.isSome_iff_exists.mp sense
    refine ⟨homeCloses_home _ _ _, fun other => ?_, fun turning none_dropped guarantee => ?_, fun turning delivered => ?_⟩
    · have level := homeSet_finish s.station s.station v false (phase_ne_claiming sense)
      rw [homeCloses_of_other other, show s.station.setHome v false = { s.station.setHome v false with vend := some v } by
        rw [← h]; rfl]
      exact level.2
    · rw [homeCloses_of_turning turning, revolutionEnds_of_guarantee (u := s.station.setHome v false) none_dropped guarantee]
      exact (homeSet_finish s.station s.station v false (x := { turned v with phase := .settling }) (by simp)).2
    · rw [homeCloses_of_turning turning, revolutionEnds_of_delivered (u := s.station.setHome v false) delivered]
      exact endVend_ended_of_counted _ _ rfl rfl _
  case unheld =>
    rintro c s held (rfl | rfl) short
    · exact homeChange_unheld (c := .homeOpens held) rfl short
    · exact homeChange_unheld (c := .homeCloses held) rfl short

end Home

section Jams

/-! ### Further turns, jams and the reversal (R38, R41, R42, R44) -/

variable {s : Station} {v x : Vend}

/-- The phase of the vend is that before the time has passed. -/
theorem vend_of_advance {d : Nat} (h : (s.advance d).vend = some v) : ∃ x, s.vend = some x ∧ x.phase = v.phase := by
  by_cases halted : s.line.state = .halted
  · rw [advance_halted d s halted] at h
    exact ⟨v, h, rfl⟩
  · rw [advance_vend d s halted] at h
    obtain ⟨x, hx, rfl⟩ := Option.map_eq_some_iff.mp h
    exact ⟨x, hx, ((vend_advance_keeps s.cfg d x).2.1).symm⟩

/-- An expiry of a timer of the vend, with the vend as the time has left it. -/
theorem expire_advanced {phase : VendPhase} {length : Nat} (h : (s.advanceTo length s.vendTimer).vend = some v)
    (hp : v.phase = phase) (effect : Station → Station) :
    expire (s.vendIn phase) length s.vendTimer effect s = effect (s.advanceTo length s.vendTimer) := by
  obtain ⟨x, hx, phase_eq⟩ := vend_of_advance h
  refine if_pos ?_
  simp [Station.vendIn, hx, phase_eq, hp]

theorem assessOnce_jamRun_reset (c : Settings) {d : Direction} (sense : motorSense v = some d) {current : Nat}
    (low : current ≤ c.jamThreshold) : (assessOnce c v current).jamRun = 0 :=
  ((assessOnce_fields c v current d sense).2.2.2).trans (if_neg fun above => absurd above.2 (Nat.not_lt.mpr low))

/-- R41: one assessment not above the threshold begins the run anew. -/
theorem assessAll_jamRun_reset (c : Settings) {d : Direction} (sense : motorSense v = some d) {currents : List Nat}
    {current : Nat} (last : currents.getLast? = some current) (low : current ≤ c.jamThreshold) :
    (assessAll c v currents).jamRun = 0 := by
  obtain ⟨init, rfl⟩ := List.getLast?_eq_some_iff.mp last
  unfold assessAll
  rw [List.foldl_concat]
  exact assessOnce_jamRun_reset c ((assessAll_sense c init v).trans sense) low

theorem assessAll_jamRun_ge (c : Settings) (sense : motorSense v = some .forward) {currents : List Nat}
    (above : ∀ x ∈ currents, c.jamThreshold < x) (long : 150 ≤ v.jamRun + currents.length) :
    150 ≤ (assessAll c v currents).jamRun := by
  by_cases none_read : currents = []
  · subst none_read
    exact long
  · rw [assessAll_jamRun c currents v sense above none_read]
    exact Nat.le_min.mpr ⟨Nat.le_refl _, long⟩

variable {currents : List Nat}

/-- R41: a jam found in the station assessed. -/
theorem jamFound_iff (h : s.vend = some v) (running : s.line.state ≠ .halted) :
    (s.assess currents).jamFound = true ↔ motorSense v = some .forward ∧ (s.assess currents).shortFound = false ∧
      (s.assess currents).openFound = false ∧ 150 ≤ (assessAll s.cfg v currents).jamRun := by
  have vend_eq := assess_vend_some h running currents
  have forward := motorForward_iff vend_eq
  rw [assessed_sense] at forward
  unfold Station.jamFound
  rw [Bool.and_eq_true, Bool.and_eq_true, Bool.and_eq_true, forward, vend_eq, Bool.not_eq_true', Bool.not_eq_true', and_assoc,
    and_assoc]
  refine and_congr_right fun sense => ?_
  rw [assessed_of_sense sense, Option.any_some, decide_eq_true_iff]
  rfl

/-- R41: a jam after one ends the vend; the first reverses it. -/
theorem jamTaken_of_first (h : v.jams = 0) (u : Station) :
    u.jamTaken v = { u with vend := some { v with jams := 1, phase := .reversing .firstPause, timer := 0 } } := by
  unfold Station.jamTaken
  simp [h]

theorem jamTaken_of_further (h : v.jams ≠ 0) (u : Station) :
    u.jamTaken v = ({ u with vend := some { v with jams := v.jams + 1 } }).endVend .jammed := by
  unfold Station.jamTaken
  simp [h]

end Jams

section Turns

variable {s : State} {v : Vend}

/-- An expiry of a timer of the vend in flight. -/
theorem phaseTimer_gives {c : Instr} {phase : VendPhase} {length : Nat} {effect : Station → Station} {P : Station → Prop}
    (hc : exec c s = .next (event s fun w => expire (w.vendIn phase) length w.vendTimer effect w))
    (h : (s.station.advanceTo length s.station.vendTimer).vend = some v) (hp : v.phase = phase)
    (he : P (finish s.station (effect (s.station.advanceTo length s.station.vendTimer)))) : Gives c s P := by
  refine gives_of_event _ hc ?_
  rwa [expire_advanced h hp]

theorem advanceTo_homeOpen (s : Station) (length elapsed : Nat) : (s.advanceTo length elapsed).homeOpen = s.homeOpen := by
  obtain ⟨-, -, -, -, -, -, -, home, -⟩ := advance_keeps (length - elapsed) s
  exact home

theorem advanceTo_cfg (s : Station) (length elapsed : Nat) : (s.advanceTo length elapsed).cfg = s.cfg := by
  obtain ⟨-, cfg, -⟩ := advance_keeps (length - elapsed) s
  exact cfg

/-- R38: the vend energised forward again. -/
theorem energise_finish (w : Station) {u : Station} (h : u.vend = some v) :
    (finish w u.energise).vend = some (v.energised
        (if u.homeOpen.getD (v.entry.position - 10) false then .turning else .starting) .forward) ∧
      KeepsBut [.vend] u (finish w u.energise) := by
  rw [energise_some h]
  exact vendChanged w u (energised_phase_ne_claiming v _ _)

/-- R44: the drop window. -/
theorem dropWindow_gives (h : (s.station.advanceTo 800 s.station.vendTimer).vend = some v) (hp : v.phase = .settling) :
    Gives .dropWindowExpiry s fun t =>
      (v.turnsUsed < 1 + s.station.cfg.extraTurns →
        t.vend = some (v.energised
          (if s.station.homeOpen.getD (v.entry.position - 10) false then .turning else .starting) .forward) ∧
        KeepsBut [.vend] (s.station.advanceTo 800 s.station.vendTimer) t) ∧
      (1 + s.station.cfg.extraTurns ≤ v.turnsUsed → VendEnded (s.station.advanceTo 800 s.station.vendTimer) t v .empty) := by
  refine phaseTimer_gives (length := 800) (effect := fun t => t.onVend fun v u => u.windowEnds v) rfl h hp ?_
  have home_eq := advanceTo_homeOpen s.station 800 s.station.vendTimer
  have cfg_eq := advanceTo_cfg s.station 800 s.station.vendTimer
  generalize s.station.advanceTo 800 s.station.vendTimer = u at *
  rw [onVend_some h]
  unfold Station.windowEnds
  rw [cfg_eq, ← home_eq]
  split
  · exact ⟨fun _ => energise_finish _ h, fun used => by omega⟩
  · exact ⟨fun left => by omega, fun _ => endVend_ended _ h _⟩

/-- R41: the first jam reverses the vend, a further one ends it. -/
theorem jamTaken_finish (w : Station) {a : Station} {x : Vend} (h : a.vend = some x) :
    (x.jams = 0 →
      (finish w (a.jamTaken x)).vend = a.vend.map (fun y => { y with jams := 1, phase := .reversing .firstPause, timer := 0 }) ∧
      KeepsBut [.vend] a (finish w (a.jamTaken x))) ∧
    (x.jams ≠ 0 → VendEnded a (finish w (a.jamTaken x)) x .jammed) := by
  refine ⟨fun first => ?_, fun further => ?_⟩
  · rw [jamTaken_of_first first, h]
    exact vendChanged w a (by simp)
  · rw [jamTaken_of_further further]
    exact endVend_ended_of_counted w a rfl rfl _

/-- R41: a jam found or not. -/
theorem jam_gives (currents : List Nat) (h : s.station.vend = some v) (running : s.station.line.state ≠ .halted) :
    Gives (.jam currents) s fun t =>
      (v.phase = .starting ∨ v.phase = .turning → v.shorted = false → ¬ReadsShort s.station.cfg v currents →
        v.low = false ∨ ReadsCurrent s.station.cfg v currents → 150 ≤ v.jamRun + currents.length →
        (∀ x ∈ currents, s.station.cfg.jamThreshold < x) →
        (v.jams = 0 →
          t.vend = (s.station.assess currents).vend.map
            (fun w => { w with jams := 1, phase := .reversing .firstPause, timer := 0 }) ∧
          KeepsBut [.vend] (s.station.assess currents) t) ∧
        (v.jams ≠ 0 → VendEnded (s.station.assess currents) t v .jammed)) ∧
      ((∃ x, currents.getLast? = some x ∧ x ≤ s.station.cfg.jamThreshold) ∨ v.jamRun + currents.length < 150 ∨
        motorSense v ≠ some .forward → KeepsBut [] (s.station.assess currents) t) := by
  have found := jamFound_iff (currents := currents) h running
  have vend_eq := assess_vend_some h running currents
  obtain ⟨entry, -, -, jams, drops⟩ := assessed_keeps s.station.cfg currents v
  refine gives_of_ifFound (found := Station.jamFound) (effect := fun t => t.onVend fun v u => u.jamTaken v) rfl
    (fun hit => ⟨fun _ _ _ _ _ _ => ?jammed, fun calm => ?calm⟩)
    fun miss => ⟨fun forward unshorted unread current long above => ?found, fun _ => keepsBut_finish _ _⟩
  case jammed =>
    rw [onVend_some vend_eq]
    obtain ⟨reverses, ends⟩ := jamTaken_finish s.station vend_eq
    exact ⟨fun first => reverses (jams.trans first), fun further =>
      vendEnded_congr entry drops (ends (by rw [jams]; exact further))⟩
  case calm =>
    obtain ⟨forward, -, -, long⟩ := found.mp hit
    rcases calm with ⟨x, last, low⟩ | brief | other
    · rw [assessAll_jamRun_reset s.station.cfg forward last low] at long
      cases long
    · have run := assessAll_jamRun_le s.station.cfg .forward currents v forward
      omega
    · exact absurd forward other
  case found =>
    have sense : motorSense v = some .forward := by
      rcases forward with hp | hp <;> simp [motorSense, hp]
    refine absurd (found.mpr ⟨sense, ?_, ?_, assessAll_jamRun_ge _ sense above long⟩) (ne_true_of_eq_false miss)
    · refine Bool.eq_false_iff.mpr fun short => ?_
      rcases (shortFound_iff h running sense).mp short with shorted | read
      · exact absurd (shorted.symm.trans unshorted) (by decide)
      · exact unread read
    · refine Bool.eq_false_iff.mpr fun opened => ?_
      obtain ⟨-, low, none_read, -⟩ := (openFound_iff h running).mp opened
      rcases current with high | read
      · exact absurd (low.symm.trans high) (by decide)
      · exact none_read read

/-- Settles O21. -/
theorem turnsJamsAndReversals : Obligations.TurnsJamsAndReversals := by
  unfold Obligations.TurnsJamsAndReversals
  refine ⟨?window, ?jam, ?reverses, ?pauses, ?resumes⟩
  case window =>
    rintro s u v rfl h hp
    exact dropWindow_gives h hp
  case jam =>
    rintro s v currents u h running rfl
    exact jam_gives currents h running
  case reverses =>
    rintro s u v rfl h hp
    refine phaseTimer_gives (length := 20)
      (effect := fun t => t.onVend fun v u => { u with vend := some (v.energised (.reversing .reversed) .reversed) }) rfl h hp ?_
    rw [onVend_some h]
    exact vendChanged _ _ (by simp [Vend.energised])
  case pauses =>
    rintro s u v rfl h hp
    refine phaseTimer_gives (length := 400)
      (effect := fun t => t.onVend fun v u => { u with vend := some { v with phase := .reversing .secondPause, timer := 0 } })
      rfl h hp ?_
    rw [onVend_some h]
    exact vendChanged _ _ (by simp)
  case resumes =>
    rintro s u v rfl h hp
    refine phaseTimer_gives (length := 20) (effect := Station.energise) rfl h hp ?_
    rw [← advanceTo_homeOpen s.station 20 s.station.vendTimer]
    exact energise_finish _ h

end Turns

section Beam

/-! ### The beam (R35, R44, R45, R53, R54) -/

variable {s u : Station} {v : Vend}

/-- Only the record of the chute changed. -/
theorem chute_kept (s : Station) (c : Chute) : Kept [.chute] s { s with chute := c } := by
  intro r unlisted
  cases r with
  | chute => exact absurd List.mem_cons_self unlisted
  | _ => rfl

theorem setBeam_kept (s : Station) (blocked : Bool) : Kept [.chute] s (s.setBeam blocked) := chute_kept s _

/-- The record of the chute changed, and nothing else. -/
theorem chuteChanged (w u : Station) (c : Chute) :
    (finish w { u with chute := c }).chute = c ∧ KeepsBut [.chute] u (finish w { u with chute := c }) :=
  ⟨finish_same w _ .chute, keepsBut_of_kept w (chute_kept u c) (by decide)⟩

/-- R53, R54: the times of chute activity with one kept. -/
def edgesWith (s : Station) : List Nat := (s.chute.edges ++ [s.now]).drop (s.chute.edges.length + 1 - 21)

theorem chuteActivity_edges (s : Station) : s.chuteActivity.chute.edges = edgesWith s := by
  unfold Station.chuteActivity edgesWith
  dsimp only
  rw [List.length_append]
  rfl

theorem chuteActivity_rate (s : Station) : s.chuteActivity.chute.rate = true ↔
    s.chuteActivity.chute.edges.length = 21 ∧ s.now ≤ s.chuteActivity.chute.edges.headD 0 + 3600000 := by
  unfold Station.chuteActivity
  dsimp only
  rw [Bool.and_eq_true, decide_eq_true_iff, decide_eq_true_iff]
  rfl

theorem chuteActivity_of_owned {s t : Station} (h : t.audit.owned = s.audit.owned) :
    t.audit.chuteActivity = s.audit.chuteActivity := (congrArg Audit.chuteActivity h :)

/-- R53, R54: chute activity at the end of its event. -/
theorem chuteActivity_finish (w s : Station) :
    (finish w s.chuteActivity).audit.chuteActivity = rise32 s.audit.chuteActivity 1 ∧
      KeepsBut [.chute, .counters] s (finish w s.chuteActivity) := by
  refine ⟨?_, keepsBut_of_kept w (chuteActivity_kept s) (by decide)⟩
  rw [chuteActivity_of_owned (finish_same w s.chuteActivity .counters)]
  rfl

/-- A DROP edge with no vend that takes drops is chute activity. -/
theorem dropTaken_of_idle (h : s.vend = none ∨ s.vendIn .claiming = true) : s.dropTaken = s.chuteActivity := by
  unfold Station.dropTaken
  cases hv : s.vend with
  | none => rfl
  | some v =>
    have claiming : v.phase = .claiming := by simpa [hv, Station.vendIn] using h
    dsimp only
    rw [claiming]

/-- A DROP edge in a vend that takes drops. -/
theorem dropTaken_of_vend (h : s.vend = some v) (hp : v.phase ≠ .claiming) :
    s.dropTaken = if v.drops < 3 then (if v.phase = .settling then (s.countDrop v).endVend .delivered else s.countDrop v)
      else s := by
  unfold Station.dropTaken
  rw [h]
  dsimp only
  cases phase : v.phase with
  | claiming => exact absurd phase hp
  | _ => simp

/-- The vend in flight with a drop counted. -/
def dropped (v : Vend) : Vend := { v with drops := v.drops + 1 }

/-- R45, R7: the station with a drop counted, before R4 is applied. -/
def dropCounted (s : Station) (v : Vend) : Station :=
  ({ s with vend := some (dropped v) }).setSpiral v.entry.position fun r => { r with stock := stockAfterDrop r.stock }

theorem countDrop_eq (s : Station) (v : Vend) : s.countDrop v = (dropCounted s v).applyNaming v.entry.position := rfl

theorem countDrop_vend (s : Station) (v : Vend) : (s.countDrop v).vend = some (dropped v) := by
  unfold Station.countDrop
  exact (applyNaming_kept _ _ .vend (by decide)).trans ((setSpiral_kept _ _ _ .vend (by decide)).trans rfl)

/-- R7, R4: the stock of the vend's spiral with a drop counted. -/
theorem countDrop_stock (s : Station) (v : Vend) (hr : positionInRange v.entry.position = true)
    (hl : v.entry.position - 10 < s.spirals.length) :
    ((s.countDrop v).spiral v.entry.position).stock =
      stockUnderNaming (stockAfterDrop (s.spiral v.entry.position).stock) ((s.countDrop v).namingCount v.entry.position) := by
  have named := spiral_applyNaming_same (dropCounted s v) hr (by simpa [dropCounted] using hl)
  have record := spiral_setSpiral_same { s with vend := some (dropped v) }
    (fun r => { r with stock := stockAfterDrop r.stock }) hr hl
  have naming_eq := namingCount_of_kept (applyNaming_kept (dropCounted s v) v.entry.position) (by decide) (by decide)
    v.entry.position
  rw [countDrop_eq, naming_eq, named]
  exact congrArg (fun r => stockUnderNaming (Spiral.stock r) ((dropCounted s v).namingCount v.entry.position)) record

/-- R4: the end of an event leaves how many entries name a position. -/
theorem namingCount_finish (w s : Station) (position : Nat) : (finish w s).namingCount position = s.namingCount position := by
  have queue_eq : (finish w s).queue = s.queue := finish_same w s .queue
  have drops_eq : (finish w s).vendDrops = s.vendDrops := by
    have core := finish_vendCore w s
    unfold Station.vendDrops
    cases before : s.vend <;> cases after : (finish w s).vend <;> simp_all [vendCore]
  unfold Station.namingCount
  rw [queue_eq, drops_eq]

/-- R45: a vend that takes drops leaves the record of the chute. -/
theorem dropTaken_chute_of_vend (h : s.vend = some v) (hp : v.phase ≠ .claiming) : s.dropTaken.chute = s.chute := by
  rw [dropTaken_of_vend h hp]
  split
  · split
    · exact (endVend_kept _ _ .chute (by decide)).trans (countDrop_kept s v .chute (by decide))
    · exact countDrop_kept s v .chute (by decide)
  · rfl

/-- R53: no DROP edge changes the beam's state or the fault. -/
theorem dropTaken_beam (s : Station) :
    s.dropTaken.chute.blocked = s.chute.blocked ∧ s.dropTaken.chute.beamTime = s.chute.beamTime ∧
      s.dropTaken.chute.fault = s.chute.fault := by
  by_cases idle : s.vend = none ∨ s.vendIn .claiming = true
  · rw [dropTaken_of_idle idle]
    exact ⟨rfl, rfl, rfl⟩
  · rw [not_or] at idle
    obtain ⟨v, hv⟩ := Option.ne_none_iff_exists'.mp idle.1
    have hp : v.phase ≠ .claiming := fun phase => idle.2 (by simp [Station.vendIn, hv, phase])
    rw [dropTaken_chute_of_vend hv hp]
    exact ⟨rfl, rfl, rfl⟩

end Beam

section DropEdge

variable {s : State}

theorem dropEdge_gives {P : Station → Prop} (read : s.station.doorRead = true) (clear : s.station.chute.blocked = false)
    (hp : P (finish s.station s.station.beamBlocks)) : Gives .dropEdge s P := by
  refine gives_of_event (fun o => if o.doorRead && !o.chute.blocked then o.beamBlocks else o) rfl ?_
  rwa [if_pos (by simp [read, clear])]

/-- Settles O22, by what a DROP edge does in each phase. -/
theorem dropEdgeIsADropOrChuteActivity : Obligations.DropEdgeIsADropOrChuteActivity := by
  unfold Obligations.DropEdgeIsADropOrChuteActivity
  refine ⟨?same, ?edge⟩
  case same =>
    intro s read clear short
    refine dropEdge_gives read clear ?_
    rw [show s.station.beamBlocks = s.station.setBeam true from if_neg (Nat.not_le.mpr short)]
    exact chuteChanged _ _ _
  case edge =>
    rintro s u read clear long rfl
    refine dropEdge_gives read clear ?_
    rw [show s.station.beamBlocks = (s.station.setBeam true).dropTaken from if_pos long]
    generalize s.station = u
    have chute_eq : (finish u (u.setBeam true).dropTaken).chute = (u.setBeam true).dropTaken.chute := finish_same u _ .chute
    have beam := dropTaken_beam (u.setBeam true)
    have beamed := setBeam_kept u true
    rw [chute_eq]
    refine ⟨beam.1, beam.2.1, beam.2.2, fun idle => ?idle, fun v hv hp => ?kept, fun v hv hp full => ?full,
      fun v hv hp unsettled room => ?counted, fun v hv hp room => ?settled⟩
    case idle =>
      have rate := chuteActivity_rate (u.setBeam true)
      rw [setBeam_now] at rate
      rw [dropTaken_of_idle (s := u.setBeam true) idle]
      refine ⟨(chuteActivity_finish u _).1, chuteActivity_edges _, rate, ?_⟩
      exact keepsBut_of_kept u ((beamed.mono (by decide)).trans (chuteActivity_kept _)) (by decide)
    case kept =>
      rw [dropTaken_chute_of_vend (s := u.setBeam true) hv hp]
      exact ⟨rfl, rfl⟩
    case full =>
      rw [dropTaken_of_vend (s := u.setBeam true) hv hp, if_neg (Nat.not_lt.mpr full)]
      exact keepsBut_of_kept u beamed (by decide)
    case counted =>
      rw [dropTaken_of_vend (s := u.setBeam true) hv hp, if_pos room, if_neg unsettled]
      refine ⟨vend_finish u (countDrop_vend _ v) hp, fun hr hl => ?_, ?_⟩
      · rw [namingCount_finish, spiral_finish]
        exact countDrop_stock (u.setBeam true) v hr hl
      · exact keepsBut_of_kept u ((beamed.mono (by decide)).trans ((countDrop_kept _ v).mono (by decide))) (by decide)
    case settled =>
      have unclaimed : v.phase ≠ .claiming := by simp [hp]
      rw [dropTaken_of_vend (s := u.setBeam true) hv unclaimed, if_pos room, if_pos hp]
      exact endVend_ended u (countDrop_vend _ v) .delivered

end DropEdge

end Sys2Proof.Proofs

/-! SUPPORT. The chute fault (O23): of the answers to the entries that it removes (R29) one at most raises a further notice,
SHORT-PAY. -/

namespace Sys2Proof.Proofs

open Sys2Proof.Machine Sys2Proof.Laws

section Latch

/-! ### The latch over the answers (R188) -/

variable {u s t : Station}

/-- The latch after a notice follows from the latch before. -/
theorem raise_latch_congr (h : Region.kept .latch s t) (n : Notice) : Region.kept .latch (s.raise n) (t.raise n) := by
  obtain ⟨active, rest⟩ := Prod.mk.inj (show (t.faults.active, t.faults.pendingNotice, t.audit.dropped) = _ from h)
  obtain ⟨pending, dropped⟩ := Prod.mk.inj rest
  unfold Region.kept Station.raise
  rw [active, pending]
  cases s.faults.active <;> cases s.faults.pendingNotice <;> simp [active, pending, dropped]

/-- The latch is kept, or a SHORT-PAY has been raised. -/
def MayShortPay (s t : Station) : Prop :=
  Region.kept .latch s t ∨ ∃ remainder, Region.kept .latch (s.raise (.shortPay remainder)) t

theorem MayShortPay.of_latch (h : Region.kept .latch s t) (k : MayShortPay t u) : MayShortPay s u :=
  k.imp (Region.kept_trans h) fun ⟨remainder, raised⟩ => ⟨remainder, Region.kept_trans (raise_latch_congr h _) raised⟩

theorem MayShortPay.trans_latch (h : MayShortPay s t) (k : Region.kept .latch t u) : MayShortPay s u :=
  h.imp (Region.kept_trans · k) fun ⟨remainder, raised⟩ => ⟨remainder, Region.kept_trans raised k⟩

theorem endPayout_mayShortPay (s : Station) : MayShortPay s s.endPayout := by
  unfold Station.endPayout Station.payoutDone
  dsimp only
  split
  · exact .inl rfl
  · refine .inr ⟨_, raise_latch_congr ?_ _⟩
    rfl

theorem returnAll_mayShortPay (s : Station) : MayShortPay s s.returnAll := by
  unfold Station.returnAll
  split
  · exact .inl rfl
  · rw [returnPayout_eq]
    by_cases idle : (creditHanded s).payout.state = .idle
    · rw [startPayout_of_idle idle]
      split
      · exact .of_latch (t := { creditHanded s with payout := plannedPayout (creditHanded s) s.txn.credit }) rfl
          (endPayout_mayShortPay _)
      · split
        · exact .inl rfl
        · exact .inl (nextCoin_kept _ .latch (by decide))
    · unfold Station.startPayout
      rw [if_neg idle]
      exact .inl rfl

/-- R188, R117, R122: an answer raises no notice, or a SHORT-PAY where a committed sale fails whose credit is to be
returned. -/
def LatchPaid (s t : Station) : Prop :=
  Region.kept .latch s t ∨ s.txn.state = .committed ∧ s.txn.returnRequested = true ∧ MayShortPay s t

theorem LatchPaid.trans_latch (h : LatchPaid s t) (k : Region.kept .latch t u) : LatchPaid s u :=
  h.imp (Region.kept_trans · k) fun ⟨committed, requested, paid⟩ => ⟨committed, requested, paid.trans_latch k⟩

theorem failSale_latchPaid (committed : s.txn.state = .committed) (m : Option Message) : LatchPaid s (s.failSale m) := by
  have shown : Region.kept .latch s (escrowShown s m) :=
    Region.kept_trans (escrowBack_kept s .latch (by decide)) (escrowShown_kept s m .latch (by decide))
  have requested_eq : (escrowShown s m).txn.returnRequested = s.txn.returnRequested := by
    rw [show (escrowShown s m).txn = _ from escrowShown_kept s m .txn (by decide)]
    rfl
  rw [failSale_eq]
  unfold Station.afterFailedSale
  rw [requested_eq]
  split
  · exact .inr ⟨committed, ‹_›, .of_latch shown (returnAll_mayShortPay _)⟩
  · exact .inl (Region.kept_trans shown (toResting_kept _ .latch (by decide)))

theorem Apart.latch (h : Apart s t) : Region.kept .latch s t := by
  obtain ⟨_, _, _, _, rfl⟩ := h
  rfl

/-- R116, R120: an answer to the current offer before its sale is committed. -/
theorem answerRemoved_of_uncommitted {e : Entry} {tag : Nat} (payer : e.payer = some .loc) (tagged : e.tag = some tag)
    (waits : e.state ≠ .vending) (current : s.answersOffer .loc tag = true) (open_sale : s.txn.state ≠ .committed) (r : Reason)
    (o : Outcome) : Apart s (Station.answerRemoved r o s e) ∨
      (Station.answerRemoved r o s e).txn.offer = none ∧ LatchPaid s (Station.answerRemoved r o s e) := by
  unfold Station.answerRemoved
  cases state : e.state with
  | vending => exact absurd state waits
  | committed =>
    left
    rw [show s.answerResult e o 0 = s.lateResult o by
      simp [Station.answerResult, Station.takeResult, payer, tagged, current, open_sale]]
    exact lateResult_apart s o
  | awaitCommit =>
    by_cases asking : s.txn.state = .asking
    · right
      rw [show s.answerRefuse e r = (s.showCustomer (reasonMessage r) Config.messageTime).toResting by
        simp [Station.answerRefuse, Station.takeRefuse, payer, tagged, current, asking]]
      exact ⟨rfl, .inl (Region.kept_trans (showCustomer_kept s _ _ .latch (by decide)) (toResting_kept _ .latch (by decide)))⟩
    · left
      rw [show s.answerRefuse e r = s by
        simp [Station.answerRefuse, Station.takeRefuse, payer, tagged, current, asking, open_sale]]
      exact .refl s

/-- R27 to R29: an answer on which no sale hangs, or the one that ends the current offer. -/
theorem answerRemoved_cases (s : Station) (e : Entry) (r : Reason) {o : Outcome} (ho : o ≠ .delivered) :
    Apart s (Station.answerRemoved r o s e) ∨
      (Station.answerRemoved r o s e).txn.offer = none ∧ LatchPaid s (Station.answerRemoved r o s e) := by
  by_cases hangs : e.state ≠ .vending ∧ ∃ n, e.payer = some .loc ∧ e.tag = some n ∧ s.answersOffer .loc n = true
  · obtain ⟨waits, n, payer, tagged, current⟩ := hangs
    by_cases committed : s.txn.state = .committed
    · obtain ⟨m, failed⟩ := answerRemoved_fails payer tagged waits current committed r ho
      rw [failed]
      exact .inr ⟨failSale_offer s m, failSale_latchPaid committed m⟩
    · exact answerRemoved_of_uncommitted payer tagged waits current committed r o
  · refine .inl (answerRemoved_apart ?_ r o)
    by_cases vending : e.state = .vending
    · exact .inl vending
    · exact .inr fun n payer tagged => Bool.eq_false_iff.mpr fun current => hangs ⟨vending, n, payer, tagged, current⟩

/-- R29: of the answers to removed entries one at most raises a notice. -/
theorem foldl_answerRemoved_latchPaid (entries : List Entry) (s : Station) (r : Reason) {o : Outcome} (ho : o ≠ .delivered) :
    LatchPaid s (entries.foldl (Station.answerRemoved r o) s) := by
  induction entries generalizing s with
  | nil => exact .inl rfl
  | cons e rest ih =>
    rw [List.foldl_cons]
    rcases answerRemoved_cases s e r ho with apart | ⟨no_offer, paid⟩
    · have later := ih (Station.answerRemoved r o s e)
      unfold LatchPaid at later ⊢
      rw [apart.txn] at later
      exact later.imp (Region.kept_trans apart.latch) fun ⟨committed, requested, paid⟩ =>
        ⟨committed, requested, .of_latch apart.latch paid⟩
    · exact paid.trans_latch (foldl_answerRemoved_apart rest (fun f _ => answersNone_of_no_offer no_offer f) r o).latch

theorem noticeTaken_of_latch {n : Notice} (h : NoticeTaken u s n) (k : Region.kept .latch s t) : NoticeTaken u t n := by
  obtain ⟨active, rest⟩ := Prod.mk.inj (show (t.faults.active, t.faults.pendingNotice, t.audit.dropped) = _ from k)
  obtain ⟨pending, dropped⟩ := Prod.mk.inj rest
  unfold NoticeTaken
  rw [active, pending, dropped]
  exact h

/-- R188: a notice with a SHORT-PAY perhaps behind it has been the first of its event. -/
theorem noticeFirst_of_latchPaid {n : Notice} (h : NoticeTaken u s n) (txn : s.txn = u.txn) (k : LatchPaid s t) :
    NoticeFirst u t n := by
  rcases k with kept | ⟨committed, requested, kept | ⟨remainder, raised⟩⟩
  · exact NoticeTaken.first (noticeTaken_of_latch h kept)
  · exact NoticeTaken.first (noticeTaken_of_latch h kept)
  · obtain ⟨free, occupied⟩ := h
    obtain ⟨further_free, further⟩ := noticeTaken_of_latch (raise_noticeTaken s (.shortPay remainder)) raised
    rw [txn] at committed requested
    refine ⟨fun none_active => ?_, fun some_active => ?_, fun quiet => ?_⟩
    · obtain ⟨active, pending, -⟩ := free none_active
      obtain ⟨active_kept, placed, -⟩ := further (by simp [active])
      exact ⟨active_kept.trans active, fun empty => .inr ⟨remainder, (placed (pending.trans empty)).1⟩⟩
    · obtain ⟨active, placed, lost⟩ := occupied some_active
      obtain ⟨active_kept, -, full⟩ := further (by rw [active]; exact some_active)
      refine ⟨active_kept.trans active, fun empty => ?_, fun waiting => ?_⟩
      · have pending := (placed empty).1
        exact (full (by simp [pending])).1.trans pending
      · obtain ⟨pending, dropped⟩ := lost waiting
        obtain ⟨pending_kept, dropped_on⟩ := full (by rw [pending]; exact waiting)
        exact ⟨pending_kept.trans pending, by omega⟩
    · rcases quiet with other | unasked
      · exact absurd committed other
      · exact absurd (requested.symm.trans unasked) (by decide)

end Latch

section ChuteFault

/-! ### The chute fault (R29, R55) -/

variable {u : Station}

/-- R55: the station with its chute fault and the notice. -/
def chuteFaulted (u : Station) : Station := ({ u with chute := { u.chute with fault := true } }).raise .chute

theorem chuteFaulted_kept (u : Station) : Kept [.chute, .latch] u (chuteFaulted u) :=
  ((chute_kept u _).mono (by decide)).trans ((raise_kept _ _).mono (by decide))

theorem chuteFaulted_chute (u : Station) : (chuteFaulted u).chute = { u.chute with fault := true } :=
  raise_kept _ _ .chute (by decide)

theorem chuteFaulted_line (u : Station) : (chuteFaulted u).line = u.line :=
  line_of_kept (chuteFaulted_kept u .line (by decide)) (chuteFaulted_kept u .lineQueue (by decide))

theorem chuteFaulted_saleOpen (u : Station) : SaleOpen u (chuteFaulted u) :=
  raise_saleOpen (u := u) (s := { u with chute := { u.chute with fault := true } })
    ⟨⟨rfl, rfl, rfl, rfl, fun free _ => .inl free⟩, rfl, rfl, rfl, rfl⟩ rfl rfl .chute

theorem chuteFaulted_noticeTaken (u : Station) : NoticeTaken u (chuteFaulted u) .chute :=
  raise_noticeTaken { u with chute := { u.chute with fault := true } } .chute

theorem chuteFaultBegins_eq (u : Station) :
    u.chuteFaultBegins = if u.cfg.guarantee then (chuteFaulted u).removeForChute else chuteFaulted u := by
  have cfg_eq := cfg_of_kept (chuteFaulted_kept u .setup (by decide))
  rw [← cfg_eq]
  rfl

theorem latch_of_finish (w s : Station) : Region.kept .latch s (finish w s) := by
  obtain ⟨active, pending, dropped⟩ := finish_same w s .latch
  exact Prod.ext active (Prod.ext pending dropped)

/-- R29: every entry but the VENDING one is removed and answered CHUTE. -/
theorem removeForChute_answered (w u : Station) :
    RemovedAnswered u (finish w (chuteFaulted u).removeForChute) [] .chute .chute
      (u.queue.filter fun e => e.state != .vending) := by
  have queue_eq : (chuteFaulted u).queue = u.queue := chuteFaulted_kept u .queue (by decide)
  have line_eq := chuteFaulted_line u
  have sends := sendsAnswers_congr (s := u) (t := chuteFaulted u) (by rw [line_eq])
  obtain ⟨-, sent, unsent⟩ := removeEntries_queues (chuteFaulted u) (fun e => e.state != .vending) .chute .chute
  have ended := finish_admits w (chuteFaulted u).removeForChute
  rw [line_eq, queue_eq] at sent
  refine ⟨fun hear room => ?_, fun silent => ?_, fun e he tag payer tagged waits current committed => ?_⟩
  · rw [List.nil_append] at room ⊢
    rw [← sent (sends.mpr hear) room]
    exact ended.queue
  · have kept := unsent fun hear => silent (sends.mp hear)
    have idle : (chuteFaulted u).removeForChute.active = false := by
      rw [active_of_state (state_of_kept (removeForChute_kept _) (by decide)), active_of_line line_eq]
      exact Bool.eq_false_iff.mpr fun active => silent (.inr (.inl active))
    exact (ended.unsent idle).trans (kept.trans (by rw [line_eq]))
  · have opened := chuteFaulted_saleOpen u
    have failed := foldl_answerRemoved_fails (u := u)
      (s := { chuteFaulted u with queue := (chuteFaulted u).queue.filter fun e => !(e.state != .vending) })
      (entries := u.queue.filter fun e => e.state != .vending)
      ⟨⟨opened.payout, opened.tubes, opened.door, opened.shortPays, opened.free⟩, opened.txn, opened.cfg, opened.sales,
        opened.value⟩
      ((congrArg Txn.state opened.txn).trans committed) .chute (o := .chute) (by decide) he payer tagged (by simp [waits])
      ((answersOffer_congr opened.txn .loc tag).trans current)
    refine saleFailed_of_saleKept ?_ (finish_saleKept w _)
    rw [← queue_eq] at failed
    exact failed

/-- R55, R29: what the chute fault leaves with the delivery guarantee on. -/
theorem removeForChute_regions (w u : Station) :
    ∀ r ∈ [Region.clock, .setup, .home, .spirals, .vend, .tubes, .journal, .coinLink, .buffer, .service, .meters, .line,
      .peers, .door], r.same u (finish w (chuteFaulted u).removeForChute) := by
  have kept : Kept [.chute, .latch, .payout, .txn, .counters, .message, .lineQueue, .queue] u (chuteFaulted u).removeForChute :=
    ((chuteFaulted_kept u).mono (by decide)).trans ((removeForChute_kept _).mono (by decide))
  have unlisted : ∀ r ∈ [Region.clock, .setup, .home, .spirals, .vend, .tubes, .journal, .coinLink, .buffer, .service,
      .meters, .line, .peers, .door],
      r ∉ [Region.chute, .latch, .payout, .txn, .counters, .message, .lineQueue, .queue] := by decide
  exact fun r hr => finish_of_kept w kept r (unlisted r hr) fun _ => ⟨by decide, by decide⟩

theorem chuteFaultBegins_chute (w u : Station) :
    (finish w u.chuteFaultBegins).chute = { u.chute with fault := true } := by
  refine (finish_same w _ .chute).trans ?_
  rw [chuteFaultBegins_eq]
  split
  · exact (removeForChute_kept _ .chute (by decide)).trans (chuteFaulted_chute u)
  · exact chuteFaulted_chute u

theorem chuteFaultBegins_noticeFirst (w u : Station) : NoticeFirst u (finish w u.chuteFaultBegins) .chute := by
  have taken := chuteFaulted_noticeTaken u
  rw [chuteFaultBegins_eq]
  split
  · have paid := foldl_answerRemoved_latchPaid ((chuteFaulted u).queue.filter fun e => e.state != .vending)
      { chuteFaulted u with queue := (chuteFaulted u).queue.filter fun e => !(e.state != .vending) } .chute
      (o := .chute) (by decide)
    exact noticeFirst_of_latchPaid
      (s := { chuteFaulted u with queue := (chuteFaulted u).queue.filter fun e => !(e.state != .vending) }) taken
      (chuteFaulted_kept u .txn (by decide)) (paid.trans_latch (latch_of_finish w _))
  · exact NoticeTaken.first (noticeTaken_of_latch taken (latch_of_finish w _))

/-- R29: what the chute fault removes with the delivery guarantee on. -/
theorem chuteFaultBegins_removes (w : Station) (guarantee : u.cfg.guarantee = true) :
    (finish w u.chuteFaultBegins).queue = u.queue.filter (fun e => e.state = .vending) ∧
      RemovedAnswered u (finish w u.chuteFaultBegins) [] .chute .chute (u.queue.filter fun e => e.state != .vending) ∧
      ∀ r ∈ [Region.clock, .setup, .home, .spirals, .vend, .tubes, .journal, .coinLink, .buffer, .service, .meters, .line,
        .peers, .door], r.same u (finish w u.chuteFaultBegins) := by
  have queue_eq : (chuteFaulted u).queue = u.queue := chuteFaulted_kept u .queue (by decide)
  rw [chuteFaultBegins_eq, if_pos guarantee]
  refine ⟨?_, removeForChute_answered w u, removeForChute_regions w u⟩
  refine (finish_same w _ .queue).trans ((removeEntries_queues (chuteFaulted u) _ .chute .chute).1.trans ?_)
  rw [queue_eq]
  congr 1
  funext e
  simp [bne, BEq.beq]

theorem chuteFaultBegins_keeps (w : Station) (unguarded : u.cfg.guarantee = false) :
    KeepsBut [.chute, .latch] u (finish w u.chuteFaultBegins) := by
  rw [chuteFaultBegins_eq, if_neg (ne_true_of_eq_false unguarded)]
  exact keepsBut_of_kept w (chuteFaulted_kept u) (by decide)

end ChuteFault

section Chute

variable {s : State}

/-- Settles O23. -/
theorem chuteIsSupervised : Obligations.ChuteIsSupervised := by
  unfold Obligations.ChuteIsSupervised
  refine ⟨?clears, ?rate, ?fault, ?ends⟩
  case clears =>
    intro s read blocked
    refine gives_of_event (fun o => if o.doorRead && o.chute.blocked then o.setBeam false else o) rfl ?_
    rw [if_pos (by simp [read, blocked])]
    exact chuteChanged _ _ _
  case rate =>
    rintro s u read rate rfl
    refine gives_of_event (fun o => expire (o.doorRead && o.chute.rate) Config.hour (o.now - o.chute.edges.headD 0)
      (fun t => { t with chute := { t.chute with rate := false } }) o) rfl ?_
    rw [expire, if_pos (by simp [read, rate])]
    exact chuteChanged _ _ _
  case fault =>
    rintro s u timed blocked unfaulted rfl
    refine gives_of_event (fun o => expire (o.beamTimed && o.chute.blocked && !o.chute.fault) Config.beamBlockedTime
      o.chute.beamTime Station.chuteFaultBegins o) rfl ?_
    rw [expire, if_pos (by simp [timed, blocked, unfaulted])]
    exact ⟨chuteFaultBegins_chute _ _, chuteFaultBegins_noticeFirst _ _, chuteFaultBegins_removes _, chuteFaultBegins_keeps _⟩
  case ends =>
    rintro s u timed clear faulted rfl
    refine gives_of_event (fun o => expire (o.beamTimed && !o.chute.blocked && o.chute.fault) Config.beamClearTime
      o.chute.beamTime (fun t => { t with chute := { t.chute with fault := false } }) o) rfl ?_
    rw [expire, if_pos (by simp [timed, clear, faulted])]
    exact chuteChanged _ _ _

end Chute

end Sys2Proof.Proofs

/-! SUPPORT. The machine after the reset event of a power-on (O4): each law that the steps are asked to keep holds there. -/

namespace Sys2Proof.Proofs

open Sys2Proof.Machine Sys2Proof.Laws

section Reset

/-! ### The laws at the reset event -/

theorem reset_settled : Settled State.reset.station := by
  unfold Settled
  decide +kernel

theorem reset_heatOrCool : HeatOrCool State.reset.station := by
  unfold HeatOrCool
  decide

theorem reset_bounded : Bounded State.reset.station := by
  unfold Bounded
  decide

theorem reset_atRest : AtRest State.reset.station := by
  unfold AtRest
  decide

/-- The law of the queue holds wherever no entry waits and no vend is in flight. -/
theorem queueLaw_of_empty {s : Station} (queue : s.queue = []) (vend : s.vend = none) (rest : AtRest s) : QueueLaw s := by
  refine ⟨by simp [queue], by simp [queue, vend], fun position n _ => ?_, rest⟩
  rw [namingCount_of_queue_nil queue]
  exact Nat.zero_le n

/-- The law of the loads holds wherever none stands, none waits, and neither vend, compressor nor defrost is under way. -/
theorem loadLaw_of_blank {s : Station} (power : s.power = Power.blank) (vend : s.vend = none)
    (compressor : s.cooling.compressor = .off) (phase : s.cooling.phase = .none) (rest : AtRest s) : LoadLaw s := by
  refine ⟨by simp [power, vend, Power.blank], by simp [power, compressor, Power.blank], by simp [power, phase, Power.blank],
    by simp [phase, compressor, DefrostPhase.melting], by simp [power, Power.blank], fun cls standing => ?_, rest⟩
  simp [power, Power.blank, hasRequest]

theorem reset_moneyLaw : MoneyLaw State.reset.station := by
  refine ⟨?_, fun committed => ?_, ?_, ?_, ?_, ?_, ?_, ?_, ?_, reset_atRest⟩
  case refine_2 => cases committed
  all_goals decide

/-- The law of the allowance holds wherever the station does not run and no load stands or waits. -/
theorem isolatedLaw_of_resting {s : Station} (power : s.power = Power.blank) (still : s.running = false) (rest : AtRest s) :
    IsolatedLaw s := by
  refine ⟨fun isolated => ?_, fun running => ?_, by simp [power, Power.blank], by simp [power, Power.blank], rest⟩
  · unfold Station.running at still
    cases state : s.line.state <;> simp [state, LineState.isIsolated, LineState.running] at isolated still
  · exact absurd (still.symm.trans running) (by decide)

theorem reset_clashLaw : ClashLaw State.reset.station := by
  unfold ClashLaw
  decide

end Reset

/-- Settles O4: each law by its own lemma, and the records as the reset event writes them. -/
theorem resetIsTheResetEventOfAColdStart : Obligations.ResetIsTheResetEventOfAColdStart := by
  unfold Obligations.ResetIsTheResetEventOfAColdStart
  exact ⟨rfl, rfl, rfl, rfl, reset_settled, reset_heatOrCool, reset_bounded, queueLaw_of_empty rfl rfl reset_atRest,
    loadLaw_of_blank rfl rfl rfl rfl reset_atRest, reset_moneyLaw, isolatedLaw_of_resting rfl rfl reset_atRest, reset_clashLaw,
    rfl, rfl, rfl, rfl, rfl, rfl, rfl, rfl, rfl, rfl, rfl, rfl, rfl, rfl, rfl, rfl⟩

end Sys2Proof.Proofs

/-! SUPPORT. Tubes and the coin journal: what a lookup of a tube reads after a write, what a journal entry leaves, and what the
end of an event makes of the indicator (R91), of the conditions (R186) and of the validator's transmitter (R59). -/

namespace Sys2Proof.Proofs

open Sys2Proof.Machine Sys2Proof.Laws

section Tubes

/-! ### Reads of a tube's record after a write -/

variable {s t : Station} {tube : Nat}

theorem tubeNumberOk_iff (tube : Nat) : tubeNumberOk tube = true ↔ 1 ≤ tube ∧ tube ≤ 5 := by
  simp [tubeNumberOk]

theorem tube_congr (h : t.coin.tubes = s.coin.tubes) (tube : Nat) : t.tube tube = s.tube tube := by
  simp [Station.tube, h]

theorem tube_finish (o s : Station) (tube : Nat) : (finish o s).tube tube = s.tube tube :=
  tube_congr (finish_same o s .tubes) tube

theorem tube_of_number (ok : tubeNumberOk tube = true) : s.tube tube = s.coin.tubes.getD (tube - 1) Tube.blank := if_pos ok

theorem tube_blank (h : tubeNumberOk tube = false) : s.tube tube = Tube.blank := if_neg (ne_true_of_eq_false h)

/-- A fitted tube has its number and its record in the list. -/
theorem tube_listed (fitted : (s.tube tube).fitted = true) : tubeNumberOk tube = true ∧ tube - 1 < s.coin.tubes.length := by
  cases ok : tubeNumberOk tube with
  | false =>
    rw [tube_blank ok] at fitted
    cases fitted
  | true =>
    refine ⟨rfl, Nat.lt_of_not_le fun beyond => ?_⟩
    rw [tube_of_number ok, List.getD_eq_default _ _ beyond] at fitted
    cases fitted

theorem setTube_tubes (ok : tubeNumberOk tube = true) (f : Tube → Tube) :
    (s.setTube tube f).coin.tubes = updateAt s.coin.tubes (tube - 1) f := by
  simp [Station.setTube, ok]

theorem setTube_tubes_length (tube : Nat) (f : Tube → Tube) : (s.setTube tube f).coin.tubes.length = s.coin.tubes.length := by
  unfold Station.setTube
  split <;> simp

theorem setTube_journal (tube : Nat) (f : Tube → Tube) : (s.setTube tube f).coin.journal = s.coin.journal :=
  congrArg Prod.fst (setTube_kept s tube f .journal (by decide))

theorem setTube_overrun (tube : Nat) (f : Tube → Tube) : (s.setTube tube f).coin.overrun = s.coin.overrun :=
  congrArg Prod.snd (setTube_kept s tube f .journal (by decide))

theorem tube_setTube_same (fitted : (s.tube tube).fitted = true) (f : Tube → Tube) :
    (s.setTube tube f).tube tube = f (s.tube tube) := by
  obtain ⟨ok, listed⟩ := tube_listed fitted
  simp [tube_of_number ok, setTube_tubes ok, List.getD_eq_getElem?_getD, updateAt_getElem_self, List.getElem?_eq_getElem listed]

theorem tube_setTube_other {n : Nat} (h : n ≠ tube) (f : Tube → Tube) : (s.setTube tube f).tube n = s.tube n := by
  cases okn : tubeNumberOk n with
  | false => rw [tube_blank okn, tube_blank okn]
  | true =>
    cases ok : tubeNumberOk tube with
    | false => simp [Station.setTube, ok]
    | true =>
      have index_ne : n - 1 ≠ tube - 1 := by
        rw [tubeNumberOk_iff] at okn ok
        omega
      simp [tube_of_number okn, setTube_tubes ok, List.getD_eq_getElem?_getD, updateAt_getElem_other _ _ _ _ index_ne]

/-- The five records are those of the tubes 1 to 5. -/
theorem exists_tube_of_mem (five : s.coin.tubes.length ≤ 5) {r : Tube} (h : r ∈ s.coin.tubes) : ∃ n, s.tube n = r := by
  obtain ⟨i, hi, rfl⟩ := List.getElem_of_mem h
  refine ⟨i + 1, ?_⟩
  rw [tube_of_number ((tubeNumberOk_iff _).mpr (by omega))]
  exact List.getD_eq_getElem _ _ hi

end Tubes

section Journal

/-! ### The journal (R71) -/

variable (s : Station) (e : JournalEntry)

theorem writeJournal_journal : (s.writeJournal e).coin.journal = journalWith s.coin.journal e := by
  unfold Station.writeJournal journalWith
  split <;> rfl

theorem writeJournal_overrun : (s.writeJournal e).coin.overrun = overrunWith s.coin.journal s.coin.overrun := by
  unfold Station.writeJournal overrunWith
  split <;> rfl

theorem writeJournal_tubes : (s.writeJournal e).coin.tubes = s.coin.tubes := writeJournal_kept s e .tubes (by decide)

theorem writeJournal_tube (n : Nat) : (s.writeJournal e).tube n = s.tube n := tube_congr (writeJournal_tubes s e) n

theorem writeJournal_txn : (s.writeJournal e).txn = s.txn := writeJournal_kept s e .txn (by decide)

theorem writeJournal_audit : (s.writeJournal e).audit = s.audit := by
  unfold Station.writeJournal
  split <;> rfl

end Journal

section Indicator

/-! ### The indicator after a change of a tube (R91) -/

variable {o s t : Station} {tube : Nat}

theorem running_of_kept {l : List Region} (h : Kept l s t) (hl : Region.line ∉ l) : t.running = s.running := by
  simp [Station.running, state_of_kept h hl]

theorem finish_running (o s : Station) : (finish o s).running = s.running := by
  simp [Station.running, (finish_admits o s).state]

theorem finish_cfg (o s : Station) : (finish o s).cfg = s.cfg := (finish_same o s .setup).2.2.2.2

/-- A tube whose watched fields differ makes the watched lists differ. -/
theorem map_tubeWatch_ne (h : tubeWatch (t.tube tube) ≠ tubeWatch (s.tube tube)) :
    t.coin.tubes.map tubeWatch ≠ s.coin.tubes.map tubeWatch := by
  intro same
  have watch_eq : ∀ w : Station, tubeNumberOk tube = true →
      tubeWatch (w.tube tube) = (w.coin.tubes.map tubeWatch).getD (tube - 1) (tubeWatch Tube.blank) := by
    intro w ok
    rw [tube_of_number ok, List.getD_map]
  cases ok : tubeNumberOk tube with
  | false => exact h (by rw [tube_blank ok, tube_blank ok])
  | true => exact h (by rw [watch_eq t ok, watch_eq s ok, same])

/-- R91: at a running payment station a tube that the event has changed brings an evaluation. -/
theorem finish_exactLit (running : s.running = true) (payment : isPayment s.cfg = true)
    (changed : tubeWatch (s.tube tube) ≠ tubeWatch (o.tube tube)) :
    (finish o s).exactLit = indicatorLit (finish o s).cfg.coinTypes (finish o s).coin.tubes := by
  have evaluated : s.evaluateIfChanged o = s.evaluateIndicator := if_pos (by simp [payment, running, map_tubeWatch_ne changed])
  have right := finish_right (o := o) (s := s) (evaluated ▸ evaluateIndicator_right running)
  rw [right.1 ((finish_running o s).trans running), show isPayment (finish o s).cfg = true by rw [finish_cfg]; exact payment]
  exact Bool.true_and _

end Indicator

section Conditions

/-! ### The conditions at the end of an event (R186) -/

theorem finish_conditionsTaken (o s : Station) : ConditionsTaken (finish o s) := by
  obtain ⟨t, stages⟩ := finish_stages o s
  rw [stages]
  exact driveOutputs_taken (updateConditions_taken _)

end Conditions

section Transmitter

/-! ### The validator's transmitter (R59) -/

variable {s t : Station}

theorem Masks.kept (h : Masks s t) : Kept [] s t := by
  obtain ⟨_, _, _, _, _, rfl⟩ := h
  intro r _
  cases r <;> rfl

theorem sendInhibit_busy {m : ValidatorMessage} (h : s.coin.onTransmitter = some m) (types : List Nat) :
    (s.sendInhibit types).coin.onTransmitter = some m := by
  simp [Station.sendInhibit, h]

theorem sendRoute_busy {m : ValidatorMessage} (h : s.coin.onTransmitter = some m) (types : List Nat) :
    (s.sendRoute types).coin.onTransmitter = some m := by
  simp [Station.sendRoute, h]

/-- A message that is being sent is not interrupted by a change of the sets. -/
theorem sendChangedMasks_busy {m : ValidatorMessage} (h : s.coin.onTransmitter = some m) :
    s.sendChangedMasks.coin.onTransmitter = some m := by
  unfold Station.sendChangedMasks
  split
  · have inhibit :
        (if s.inhibitSet = s.coin.lastInhibit then s else s.sendInhibit s.inhibitSet).coin.onTransmitter = some m := by
      split
      · exact h
      · exact sendInhibit_busy h _
    dsimp only
    generalize (if s.inhibitSet = s.coin.lastInhibit then s else s.sendInhibit s.inhibitSet) = w at inhibit ⊢
    split
    · exact inhibit
    · exact sendRoute_busy inhibit _
  · exact h

/-- Sets that have not changed are not sent. -/
theorem sendChangedMasks_of_sent (inhibit : s.coin.lastInhibit = s.inhibitSet) (route : s.coin.lastRoute = s.routeSet) :
    s.sendChangedMasks = s := by
  simp [Station.sendChangedMasks, inhibit, route]

/-- The coin unit at the end of an event is as the masks leave it; nothing before them touches what their sets are read from. -/
theorem finish_coin (o s : Station) : ∃ t : Station, (finish o s).coin = t.sendChangedMasks.coin ∧ t.coin = s.coin ∧
    t.inhibitSet = s.inhibitSet ∧ t.routeSet = s.routeSet := by
  refine ⟨((s.evaluateIfChanged o).admitLoads).resetIce, ?driven, ?before⟩
  case driven =>
    obtain ⟨_, _, _, _, _, _, _, _, _, driven⟩ := drive_shape ((s.evaluateIfChanged o).admitLoads).resetIce.sendChangedMasks
    unfold finish
    rw [driven]
  case before =>
    obtain ⟨_, evaluated⟩ := evaluateIfChanged_shape s o
    obtain ⟨_, _, _, _, _, admitted, -⟩ := admit_grants (s.evaluateIfChanged o)
    obtain ⟨_, ice, -⟩ := resetIce_shape (s.evaluateIfChanged o).admitLoads
    rw [ice, admitted, evaluated]
    exact ⟨rfl, rfl, rfl⟩

theorem finish_onTransmitter_busy (o : Station) {m : ValidatorMessage} (h : s.coin.onTransmitter = some m) :
    (finish o s).coin.onTransmitter = some m := by
  obtain ⟨t, ended, coin_eq, -⟩ := finish_coin o s
  rw [ended]
  exact sendChangedMasks_busy (by rw [coin_eq]; exact h)

theorem finish_coin_of_sent (o : Station) (inhibit : s.coin.lastInhibit = s.inhibitSet)
    (route : s.coin.lastRoute = s.routeSet) : (finish o s).coin = s.coin := by
  obtain ⟨t, ended, coin_eq, inhibit_eq, route_eq⟩ := finish_coin o s
  rw [ended, sendChangedMasks_of_sent (by rw [coin_eq, inhibit_eq]; exact inhibit) (by rw [coin_eq, route_eq]; exact route)]
  exact coin_eq

end Transmitter

end Sys2Proof.Proofs

/-! SUPPORT. COIN (O41): the credit with its counters, the booking of the coin into its tube or the cashbox, and what either
leaves at the end of the event. -/

namespace Sys2Proof.Proofs

open Sys2Proof.Machine Sys2Proof.Laws

section Coin

/-! ### COIN (R63, R64) -/

variable {s : Station} (coinType tube : Nat)

theorem creditCoin_state : (s.creditCoin coinType).txn.state =
    if (s.coinTypeOf coinType).value ≠ 0 ∧ s.txn.state = .idle then .credit else s.txn.state := by
  simp [Station.creditCoin, Station.addCredit, Station.restartInactivity]

theorem creditCoin_audit : (s.creditCoin coinType).audit = { s.audit with
    coinsByType := updateAt s.audit.coinsByType coinType fun n => rise32 n 1
    lateCoins := if coinType ∈ s.coin.lastInhibit then rise32 s.audit.lateCoins 1 else s.audit.lateCoins
    forfeitedValue := rise32 s.audit.forfeitedValue (s.txn.credit + (s.coinTypeOf coinType).value -
      min 65535 (s.txn.credit + (s.coinTypeOf coinType).value)) } := by
  simp [Station.creditCoin, Station.addCredit, Station.restartInactivity, beyondCredit, maxCredit]

theorem creditCoin_coin : (s.creditCoin coinType).coin = s.coin := by
  dsimp only [Station.creditCoin, Station.addCredit, Station.restartInactivity]

theorem creditCoin_tube : (s.creditCoin coinType).tube tube = s.tube tube :=
  tube_congr (congrArg CoinUnit.tubes (creditCoin_coin coinType)) tube

theorem creditCoin_kept : Kept [.txn, .counters] s (s.creditCoin coinType) := by
  have credited := (addCredit_kept s (s.coinTypeOf coinType).value).trans ((restartInactivity_kept _).mono (by decide))
  have counted := audit_kept (s.addCredit (s.coinTypeOf coinType).value).restartInactivity (s.creditCoin coinType).audit rfl
  exact credited.trans (counted.mono (by decide))

theorem creditCoin_coinTypeOf (other : Nat) : (s.creditCoin coinType).coinTypeOf other = s.coinTypeOf other := by
  unfold Station.coinTypeOf
  rw [cfg_of_kept (creditCoin_kept coinType .setup (by decide))]

/-- R64: a coin for a tube that already stands at 250 is counted as beyond its count. -/
def overcounted (s : Station) (tube : Nat) : Station :=
  { s with audit := { s.audit with
    tubeOvercount := if 250 ≤ (s.tube tube).estimate then rise32 s.audit.tubeOvercount 1 else s.audit.tubeOvercount } }

theorem overcounted_coin : (overcounted s tube).coin = s.coin := rfl

/-- R64, R66: a tube with one coin more. -/
def withCoin (r : Tube) : Tube := { r with estimate := limitEstimate r (r.estimate + 1) }

theorem coinInTube_eq : s.coinInTube coinType tube = ((overcounted s tube).setTube tube withCoin).writeJournal
    ⟨.inTube, some coinType, (s.coinTypeOf coinType).value, s.txn.credit⟩ := by
  unfold Station.coinInTube overcounted
  by_cases full : 250 ≤ (s.tube tube).estimate
  · rw [if_pos full, if_neg (Nat.not_lt.mpr full)]
    rfl
  · rw [if_neg full, if_pos (Nat.lt_of_not_le full)]
    rfl

theorem coinInTube_kept : Kept [.tubes, .journal, .counters] s (s.coinInTube coinType tube) := by
  have counted : Kept [.counters] s (overcounted s tube) := audit_kept s _ rfl
  rw [coinInTube_eq]
  exact ((counted.mono (by decide)).trans ((setTube_kept _ _ _).mono (by decide))).trans
    ((writeJournal_kept _ _).mono (by decide))

theorem coinInTube_tubes (ok : tubeNumberOk tube = true) :
    (s.coinInTube coinType tube).coin.tubes = updateAt s.coin.tubes (tube - 1) withCoin := by
  rw [coinInTube_eq, writeJournal_tubes, setTube_tubes ok, overcounted_coin]

theorem coinInTube_journal : (s.coinInTube coinType tube).coin.journal =
    journalWith s.coin.journal ⟨.inTube, some coinType, (s.coinTypeOf coinType).value, s.txn.credit⟩ := by
  rw [coinInTube_eq, writeJournal_journal, setTube_journal, overcounted_coin]

theorem coinInTube_overrun :
    (s.coinInTube coinType tube).coin.overrun = overrunWith s.coin.journal s.coin.overrun := by
  rw [coinInTube_eq, writeJournal_overrun, setTube_journal, setTube_overrun, overcounted_coin]

theorem coinInTube_audit : (s.coinInTube coinType tube).audit = { s.audit with
    tubeOvercount := if 250 ≤ (s.tube tube).estimate then rise32 s.audit.tubeOvercount 1 else s.audit.tubeOvercount } := by
  rw [coinInTube_eq, writeJournal_audit, setTube_audit]
  rfl

/-- R64: the station with the coin counted into the cashbox. -/
theorem coinInCashbox_eq : s.coinInCashbox coinType =
    ({ s with audit := { s.audit with
        cashboxValue := rise32 s.audit.cashboxValue (s.coinTypeOf coinType).value } }).writeJournal
      ⟨.inCashbox, some coinType, (s.coinTypeOf coinType).value, s.txn.credit⟩ := rfl

theorem coinInCashbox_kept : Kept [.journal, .counters] s (s.coinInCashbox coinType) := by
  have counted := audit_kept s
    { s.audit with cashboxValue := rise32 s.audit.cashboxValue (s.coinTypeOf coinType).value } rfl
  rw [coinInCashbox_eq]
  exact (counted.mono (by decide)).trans ((writeJournal_kept _ _).mono (by decide))

theorem coinInCashbox_tubes : (s.coinInCashbox coinType).coin.tubes = s.coin.tubes :=
  coinInCashbox_kept coinType .tubes (by decide)

theorem coinInCashbox_journal : (s.coinInCashbox coinType).coin.journal =
    journalWith s.coin.journal ⟨.inCashbox, some coinType, (s.coinTypeOf coinType).value, s.txn.credit⟩ := by
  rw [coinInCashbox_eq, writeJournal_journal]

theorem coinInCashbox_overrun : (s.coinInCashbox coinType).coin.overrun = overrunWith s.coin.journal s.coin.overrun := by
  rw [coinInCashbox_eq, writeJournal_overrun]

theorem coinInCashbox_audit : (s.coinInCashbox coinType).audit =
    { s.audit with cashboxValue := rise32 s.audit.cashboxValue (s.coinTypeOf coinType).value } := by
  rw [coinInCashbox_eq, writeJournal_audit]

/-- R64: the coin is booked into a tube. -/
def BooksTube (s : Station) (coinType : Nat) (path : CoinPath) : Prop :=
  path = .tube ∧ tubeNumberOk (s.coinTypeOf coinType).tube = true ∧ (s.tube (s.coinTypeOf coinType).tube).fitted = true

variable {coinType} {path : CoinPath}

theorem takeCoin_of_tube (h : BooksTube s coinType path) :
    s.takeCoin coinType path = (s.creditCoin coinType).coinInTube coinType (s.coinTypeOf coinType).tube := by
  obtain ⟨rfl, ok, fitted⟩ := h
  simp [Station.takeCoin, ok, creditCoin_tube, fitted]

theorem takeCoin_of_cashbox (h : ¬BooksTube s coinType path) :
    s.takeCoin coinType path = (s.creditCoin coinType).coinInCashbox coinType := by
  unfold Station.takeCoin
  dsimp only
  refine if_neg fun booked => h ?_
  simp only [Bool.and_eq_true, decide_eq_true_eq, creditCoin_tube] at booked
  obtain ⟨⟨named, ok⟩, fitted⟩ := booked
  exact ⟨named, ok, fitted⟩

/-- R64: where the coin is booked, the credit stands already. -/
theorem takeCoin_kept_credit : Kept [.tubes, .journal, .counters] (s.creditCoin coinType) (s.takeCoin coinType path) := by
  by_cases booked : BooksTube s coinType path
  · rw [takeCoin_of_tube booked]
    exact coinInTube_kept _ _
  · rw [takeCoin_of_cashbox booked]
    exact (coinInCashbox_kept _).mono (by decide)

theorem takeCoin_txn : (s.takeCoin coinType path).txn = (s.creditCoin coinType).txn := takeCoin_kept_credit .txn (by decide)

theorem takeCoin_kept : Kept [.txn, .tubes, .journal, .counters] s (s.takeCoin coinType path) :=
  ((creditCoin_kept coinType).mono (by decide)).trans (takeCoin_kept_credit.mono (by decide))

theorem takeCoin_overrun : (s.takeCoin coinType path).coin.overrun = overrunWith s.coin.journal s.coin.overrun := by
  by_cases booked : BooksTube s coinType path
  · rw [takeCoin_of_tube booked, coinInTube_overrun, creditCoin_coin]
  · rw [takeCoin_of_cashbox booked, coinInCashbox_overrun, creditCoin_coin]

/-- A booking leaves all but its own two counters as the credit has left them. -/
theorem takeCoin_audit : ∃ cashbox overcount, (s.takeCoin coinType path).audit =
    { (s.creditCoin coinType).audit with cashboxValue := cashbox, tubeOvercount := overcount } := by
  by_cases booked : BooksTube s coinType path
  · rw [takeCoin_of_tube booked, coinInTube_audit]
    exact ⟨_, _, rfl⟩
  · rw [takeCoin_of_cashbox booked, coinInCashbox_audit]
    exact ⟨_, _, rfl⟩

/-- The counters that a COIN may change belong to the region of the counters. -/
theorem coinCounters_of_owned {a b : Audit} (h : a.owned = b.owned) :
    a.coinsByType = b.coinsByType ∧ a.lateCoins = b.lateCoins ∧ a.forfeitedValue = b.forfeitedValue ∧
      a.cashboxValue = b.cashboxValue ∧ a.tubeOvercount = b.tubeOvercount := by
  simp only [Audit.owned, Audit.mk.injEq] at h
  simp only [h, and_self]

/-- R63, R64: the counters that are the same for either booking, and those that no COIN touches. -/
theorem takeCoin_counters {t : Station} (h : t.audit.owned = (s.takeCoin coinType path).audit.owned) :
    t.audit.coinsByType = updateAt s.audit.coinsByType coinType (fun n => rise32 n 1) ∧
      t.audit.lateCoins = (if coinType ∈ s.coin.lastInhibit then rise32 s.audit.lateCoins 1 else s.audit.lateCoins) ∧
      t.audit.forfeitedValue = rise32 s.audit.forfeitedValue (s.txn.credit + (s.coinTypeOf coinType).value -
        min 65535 (s.txn.credit + (s.coinTypeOf coinType).value)) ∧
      { t.audit.owned with coinsByType := [], lateCoins := 0, forfeitedValue := 0, cashboxValue := 0, tubeOvercount := 0 } =
        { s.audit.owned with
          coinsByType := [], lateCoins := 0, forfeitedValue := 0, cashboxValue := 0, tubeOvercount := 0 } := by
  obtain ⟨cashbox, overcount, booked⟩ := takeCoin_audit (s := s) (coinType := coinType) (path := path)
  obtain ⟨byType, late, forfeited, -⟩ := coinCounters_of_owned h
  rw [byType, late, forfeited, h, booked, creditCoin_audit]
  exact ⟨rfl, rfl, rfl, rfl⟩

/-- R64: what a coin booked into its tube leaves at the end of its event. -/
theorem coinBooked_of_tube {t : Station} (h : BooksTube s coinType path)
    (ended : ∀ r, Region.same r (s.takeCoin coinType path) t) :
    t.coin.tubes = updateAt s.coin.tubes ((s.coinTypeOf coinType).tube - 1) withCoin ∧
      t.audit.tubeOvercount = (if 250 ≤ (s.tube (s.coinTypeOf coinType).tube).estimate
        then rise32 s.audit.tubeOvercount 1 else s.audit.tubeOvercount) ∧
      t.coin.journal = journalWith s.coin.journal
        ⟨.inTube, some coinType, (s.coinTypeOf coinType).value, (s.creditCoin coinType).txn.credit⟩ ∧
      t.audit.cashboxValue = s.audit.cashboxValue := by
  have tubes_eq : t.coin.tubes = _ := ended .tubes
  have journal_eq := (ended .journal).1
  obtain ⟨-, -, -, cashbox, overcount⟩ := coinCounters_of_owned (ended .counters)
  rw [takeCoin_of_tube h] at tubes_eq journal_eq cashbox overcount
  rw [tubes_eq, coinInTube_tubes _ _ h.2.1, journal_eq, coinInTube_journal, cashbox, overcount, coinInTube_audit,
    creditCoin_audit, creditCoin_tube, creditCoin_coin, creditCoin_coinTypeOf]
  exact ⟨rfl, rfl, rfl, rfl⟩

/-- R64: what a coin booked into the cashbox leaves at the end of its event. -/
theorem coinBooked_of_cashbox {t : Station} (h : ¬BooksTube s coinType path)
    (ended : ∀ r, Region.same r (s.takeCoin coinType path) t) :
    t.coin.tubes = s.coin.tubes ∧ t.audit.tubeOvercount = s.audit.tubeOvercount ∧
      t.coin.journal = journalWith s.coin.journal
        ⟨.inCashbox, some coinType, (s.coinTypeOf coinType).value, (s.creditCoin coinType).txn.credit⟩ ∧
      t.audit.cashboxValue = rise32 s.audit.cashboxValue (s.coinTypeOf coinType).value := by
  have tubes_eq : t.coin.tubes = _ := ended .tubes
  have journal_eq := (ended .journal).1
  obtain ⟨-, -, -, cashbox, overcount⟩ := coinCounters_of_owned (ended .counters)
  rw [takeCoin_of_cashbox h] at tubes_eq journal_eq cashbox overcount
  rw [tubes_eq, coinInCashbox_tubes, journal_eq, coinInCashbox_journal, cashbox, overcount, coinInCashbox_audit,
    creditCoin_audit, creditCoin_coin, creditCoin_coinTypeOf]
  exact ⟨rfl, rfl, rfl, rfl⟩

end Coin

/-- Settles O41: the credit and its counters by either booking, then each booking by its own lemma. -/
theorem coinIsCreditedAndCounted : Obligations.CoinIsCreditedAndCounted := by
  unfold Obligations.CoinIsCreditedAndCounted
  rintro s coinType value tube path works inRange rfl rfl
  refine gives_of_event (fun o => if o.coinUnitWorks && coinTypeOk coinType then o.takeCoin coinType path else o) rfl ?_
  rw [if_pos (by simp [works, coinTypeOk, inRange])]
  have ended := finish_same s.station (s.station.takeCoin coinType path)
  have kept := keepsBut_of_kept s.station (takeCoin_kept (s := s.station) (coinType := coinType) (path := path)) (by decide)
  generalize finish s.station (s.station.takeCoin coinType path) = t at ended kept ⊢
  have txn_eq : t.txn = (s.station.creditCoin coinType).txn := (ended .txn).trans takeCoin_txn
  obtain ⟨byType, late, forfeited, others⟩ := takeCoin_counters (ended .counters)
  rw [txn_eq]
  refine ⟨rfl, rfl, creditCoin_state coinType, byType, late, forfeited, (ended .journal).2.trans takeCoin_overrun, others,
    ?inTube, ?inCashbox, kept⟩
  case inTube => exact fun named ok fitted => coinBooked_of_tube ⟨named, ok, fitted⟩ ended
  case inCashbox =>
    refine fun elsewhere => coinBooked_of_cashbox ?_ ended
    rintro ⟨named, ok, fitted⟩
    rcases elsewhere with cashbox | unnumbered | unfitted
    · exact absurd (named.symm.trans cashbox) (by decide)
    · exact absurd (ok.symm.trans unnumbered) (by decide)
    · exact absurd (fitted.symm.trans unfitted) (by decide)

end Sys2Proof.Proofs

/-! SUPPORT. The validator link and the tube sensors (O42 to O44): what REJECT, FAULT, STATUS, the STATUS timer, the transmitter
and a sensor's change do, each over the event that it is. -/

namespace Sys2Proof.Proofs

open Sys2Proof.Machine Sys2Proof.Laws

section Reject

/-! ### REJECT (R65) -/

theorem rejected_kept (s : Station) (e : JournalEntry) : Kept [.journal, .txn] s (s.writeJournal e).restartInactivity :=
  ((writeJournal_kept s e).mono (by decide)).trans ((restartInactivity_kept _).mono (by decide))

theorem rejected_txn (s : Station) (e : JournalEntry) :
    (s.writeJournal e).restartInactivity.txn = { s.txn with inactivityTimer := 0 } := by
  dsimp only [Station.restartInactivity]
  rw [writeJournal_txn]

end Reject

/-- Settles O42. -/
theorem rejectIsJournalled : Obligations.RejectIsJournalled := by
  unfold Obligations.RejectIsJournalled
  intro s works
  refine gives_of_event (fun o => if o.coinUnitWorks then (o.writeJournal ⟨.reject, none, 0, o.txn.credit⟩).restartInactivity
    else o) rfl ?_
  rw [if_pos works]
  obtain ⟨journal_eq, overrun_eq⟩ :=
    finish_same s.station (s.station.writeJournal ⟨.reject, none, 0, s.station.txn.credit⟩).restartInactivity .journal
  exact ⟨journal_eq.trans (writeJournal_journal _ _), overrun_eq.trans (writeJournal_overrun _ _),
    (finish_same _ _ .txn).trans (rejected_txn _ _), (finish_same _ _ .tubes).trans (writeJournal_tubes _ _),
    keepsBut_of_kept _ (rejected_kept _ _) (by decide)⟩

section Link

/-! ### Supervision of the link (R60) -/

variable {s t : Station}

/-- A change of the coin unit's link record alone. -/
theorem coinLink_kept (s : Station) (timer : Nat) (stands : Bool) (code : Option Nat) :
    Kept [.coinLink] s { s with coin := { s.coin with statusTimer := timer, faultStands := stands, faultCode := code } } := by
  intro r hr
  cases r <;> first | exact absurd (by decide) hr | rfl

theorem coinFault_kept (s : Station) (code : Option Nat) : Kept [.coinLink] s (s.coinFault code) :=
  coinLink_kept s s.coin.statusTimer true code

/-- R60: a STATUS that names READY, and one that names a fault. -/
theorem takeStatus_ready (s : Station) : Kept [.coinLink] s (s.takeStatus 0) ∧
    (s.takeStatus 0).coin.statusTimer = 0 ∧ (s.takeStatus 0).coin.faultStands = false := by
  unfold Station.takeStatus Station.coinReady
  dsimp only
  rw [if_pos rfl]
  split
  · have cleared := coinLink_kept s 0 false none
    have sent := sendMasks_kept { s with coin := { s.coin with statusTimer := 0, faultStands := false, faultCode := none } }
    obtain ⟨timer_eq, stands_eq⟩ := Prod.mk.inj (sent .coinLink (by decide))
    exact ⟨cleared.trans (sent.mono (by simp)), timer_eq, congrArg Prod.fst stands_eq⟩
  · exact ⟨coinLink_kept s 0 s.coin.faultStands s.coin.faultCode, rfl, Bool.eq_false_iff.mpr ‹_›⟩

theorem takeStatus_of_fault {condition : Nat} (h : condition ≠ 0) : s.takeStatus condition =
    { s with coin := { s.coin with statusTimer := 0, faultStands := true, faultCode := some condition } } := if_neg h

/-- What the end of an event leaves of the link, and what it keeps. -/
theorem finish_coinLink (o : Station) (h : Kept [.coinLink] s t) :
    (finish o t).coin.statusTimer = t.coin.statusTimer ∧ (finish o t).coin.faultStands = t.coin.faultStands ∧
      (finish o t).coin.faultCode = t.coin.faultCode ∧ KeepsBut [.coinLink] s (finish o t) := by
  obtain ⟨timer_eq, stands_eq, code_eq⟩ := finish_same o t .coinLink
  exact ⟨timer_eq, stands_eq, code_eq, keepsBut_of_kept o h (by decide)⟩

/-- R60: a FAULT. -/
theorem fault_gives {s : State} {code : Nat} (works : s.station.coinUnitWorks = true) (ok : faultCodeOk code = true) :
    Gives (.fault code) s fun t =>
      t.coin.faultStands = true ∧ t.coin.faultCode = some code ∧ KeepsBut [.coinLink] s.station t := by
  refine gives_of_event (fun o => if o.coinUnitWorks && faultCodeOk code then o.coinFault (some code) else o) rfl ?_
  rw [if_pos (by simp [works, ok])]
  obtain ⟨-, stands, held, kept⟩ :=
    finish_coinLink s.station (coinFault_kept s.station (some code))
  exact ⟨stands, held, kept⟩

/-- R60: a STATUS. -/
theorem status_gives {s : State} {condition : Nat} (works : s.station.coinUnitWorks = true) (ok : statusOk condition = true) :
    Gives (.status condition) s fun t =>
      t.coin.statusTimer = 0 ∧ (condition = 0 → t.coin.faultStands = false) ∧
      (condition ≠ 0 → t.coin.faultStands = true ∧ t.coin.faultCode = some condition) ∧
      KeepsBut [.coinLink] s.station t := by
  refine gives_of_event (fun o => if o.coinUnitWorks && statusOk condition then o.takeStatus condition else o) rfl ?_
  rw [if_pos (by simp [works, ok])]
  by_cases ready : condition = 0
  · subst ready
    obtain ⟨taken, timer, clear⟩ := takeStatus_ready s.station
    obtain ⟨timer_eq, stands_eq, -, kept⟩ := finish_coinLink s.station taken
    exact ⟨timer_eq.trans timer, fun _ => stands_eq.trans clear, fun faulted => absurd rfl faulted, kept⟩
  · rw [takeStatus_of_fault ready]
    obtain ⟨timer, stands, held, kept⟩ := finish_coinLink s.station (coinLink_kept s.station 0 true (some condition))
    exact ⟨timer, fun ended => absurd ended ready, fun _ => ⟨stands, held⟩, kept⟩

/-- R60: 3.5 s without a STATUS. -/
theorem statusTimerExpiry_gives {s : State} {u : Station} (works : s.station.coinUnitWorks = true)
    (advanced : u = s.station.advanceTo 3500 s.station.coin.statusTimer) :
    Gives .statusTimerExpiry s fun t =>
      t.coin.faultStands = true ∧ (u.coin.faultStands = false → t.coin.faultCode = none) ∧
      (u.coin.faultStands = true → t.coin.faultCode = u.coin.faultCode) ∧ KeepsBut [.coinLink] u t := by
  refine gives_of_event (fun o => expire o.coinUnitWorks Config.statusTime o.coin.statusTimer
    (fun t => if t.coin.faultStands then t else t.coinFault none) o) rfl ?_
  have expired : expire s.station.coinUnitWorks Config.statusTime s.station.coin.statusTimer
      (fun t => if t.coin.faultStands then t else t.coinFault none) s.station =
        if u.coin.faultStands then u else u.coinFault none := by
    rw [expire, if_pos works, advanced]
    rfl
  rw [expired]
  by_cases stands : u.coin.faultStands = true
  · rw [if_pos stands]
    obtain ⟨-, stands_eq, code_eq, kept⟩ := finish_coinLink s.station (Kept.refl [.coinLink] u)
    exact ⟨stands_eq.trans stands, fun clear => absurd (stands.symm.trans clear) (by decide), fun _ => code_eq, kept⟩
  · rw [if_neg stands]
    obtain ⟨-, stands_now, code_eq, kept⟩ := finish_coinLink s.station (coinFault_kept u none)
    exact ⟨stands_now, fun _ => code_eq, fun stood => absurd stood stands, kept⟩

end Link

section Transmitter

/-! ### The transmitter becomes free (R59) -/

theorem transmitterFree_masks (s : Station) : Masks s { s with coin := s.coin.transmitterFree } := by
  unfold CoinUnit.transmitterFree
  split <;> exact ⟨_, _, _, _, _, rfl⟩

theorem transmitterFree_of_inhibit {c : CoinUnit} {types : List Nat} (h : c.waitingInhibit = some types) :
    c.transmitterFree.onTransmitter = some (.inhibit types) := by
  simp [CoinUnit.transmitterFree, h]

theorem transmitterFree_of_route {c : CoinUnit} {types : List Nat} (none_inhibits : c.waitingInhibit = none)
    (h : c.waitingRoute = some types) : c.transmitterFree.onTransmitter = some (.route types) := by
  simp [CoinUnit.transmitterFree, none_inhibits, h]

theorem transmitterFree_of_none {c : CoinUnit} (none_inhibits : c.waitingInhibit = none) (none_routes : c.waitingRoute = none) :
    c.transmitterFree = { c with onTransmitter := none } := by
  simp [CoinUnit.transmitterFree, none_inhibits, none_routes]

/-- R59: TRANSMITTER_FREE. -/
theorem transmitterFree_gives (s : State) : Gives .transmitterFree s fun t =>
    (∀ types, s.station.coin.waitingInhibit = some types → t.coin.onTransmitter = some (.inhibit types)) ∧
    (∀ types, s.station.coin.waitingInhibit = none → s.station.coin.waitingRoute = some types →
      t.coin.onTransmitter = some (.route types)) ∧
    (s.station.coin.waitingInhibit = none → s.station.coin.waitingRoute = none →
      s.station.coin.lastInhibit = s.station.inhibitSet → s.station.coin.lastRoute = s.station.routeSet →
      t.coin.onTransmitter = none) ∧
    KeepsBut [] s.station t := by
  refine gives_of_event (fun o => { o with coin := o.coin.transmitterFree }) rfl ⟨?inhibit, ?route, ?silent, ?kept⟩
  case inhibit => exact fun types waits => finish_onTransmitter_busy _ (transmitterFree_of_inhibit waits)
  case route => exact fun types none_inhibits waits => finish_onTransmitter_busy _ (transmitterFree_of_route none_inhibits waits)
  case silent =>
    intro none_inhibits none_routes inhibit route
    have emptied := transmitterFree_of_none none_inhibits none_routes
    have sent := finish_coin_of_sent s.station (s := { s.station with coin := s.station.coin.transmitterFree })
      (by rw [emptied]; exact inhibit) (by rw [emptied]; exact route)
    rw [sent, emptied]
  case kept => exact keepsBut_of_kept _ (Masks.kept (transmitterFree_masks _)) (by decide)

end Transmitter

/-- Settles O43, each message and the transmitter by its own lemma. -/
theorem validatorLinkIsSupervised : Obligations.ValidatorLinkIsSupervised := by
  unfold Obligations.ValidatorLinkIsSupervised
  exact ⟨fun _ _ => fault_gives, fun _ _ => status_gives, fun _ _ => statusTimerExpiry_gives, transmitterFree_gives⟩

section Sensors

/-! ### The tube sensors (R67, R68) -/

theorem sensed_low {r : Tube} {asserted : Bool} (changes : r.lowSensor ≠ asserted) : r.sensed .low asserted = { r with
    lowSensor := asserted
    estimate := if asserted then min r.estimate r.lowMark else max r.estimate (r.lowMark + 1) } := if_neg changes

theorem sensed_full {r : Tube} {asserted : Bool} (changes : r.fullSensor ≠ asserted) : r.sensed .full asserted = { r with
    fullSensor := asserted
    estimate := if asserted && !r.lowSensor then max r.estimate r.fullMark else r.estimate } := if_neg changes

end Sensors

/-- Settles O44: the record of the tube is the one that the sensor corrects, and a level not held is no change. -/
theorem tubeSensorCorrectsTheEstimate : Obligations.TubeSensorCorrectsTheEstimate := by
  unfold Obligations.TubeSensorCorrectsTheEstimate
  refine ⟨?held, ?unheld⟩
  case held =>
    rintro s tube sensor asserted held _ works - rfl fitted long
    refine gives_of_event (ifHeld Config.tubeSensorHold held fun o => if o.coinUnitWorks && (o.tube tube).fitted then
      o.setTube tube fun r => r.sensed sensor asserted else o) rfl ?_
    rw [ifHeld_of_le (time := Config.tubeSensorHold) long, if_pos (by simp [works, fitted])]
    have corrected := (tube_finish s.station _ tube).trans (tube_setTube_same fitted fun r => r.sensed sensor asserted)
    refine ⟨?low, ?full, fun n other => (tube_finish _ _ n).trans (tube_setTube_other other _),
      keepsBut_of_kept _ (setTube_kept _ _ _) (by decide)⟩
    case low =>
      rintro rfl changes
      exact corrected.trans (sensed_low changes)
    case full =>
      rintro rfl changes
      exact corrected.trans (sensed_full changes)
  case unheld =>
    intro s tube sensor asserted held short
    refine gives_of_event (ifHeld Config.tubeSensorHold held fun o => if o.coinUnitWorks && (o.tube tube).fitted then
      o.setTube tube fun r => r.sensed sensor asserted else o) rfl ?_
    rw [ifHeld_of_lt (time := Config.tubeSensorHold) short]
    exact keepsBut_finish _ _

end Sys2Proof.Proofs

/-! SUPPORT. The tube commands (O56): when FILL-TUBE, EMPTY-TUBE and CLEAR-TUBE are taken, what each writes of its tube, of the
journal and of the payout record, and what follows from a tube so written. -/

namespace Sys2Proof.Proofs

open Sys2Proof.Machine Sys2Proof.Laws

section Named

/-! ### The tube that a command names (R74 to R76) -/

variable (s : Station) (tube : Nat)

theorem tubeNamed_iff : s.tubeNamed tube = true ↔
    s.cfg.role = .payment ∧ 1 ≤ tube ∧ tube ≤ 5 ∧ (s.tube tube).fitted = true := by
  simp [Station.tubeNamed, isPayment, tubeNumberOk_iff, and_assoc]

theorem submitted_tube : s.serviceKey.submitted.tube tube = s.tube tube :=
  tube_congr (submitted_kept s .tubes (by decide)) tube

theorem submitted_tubeNamed : s.serviceKey.submitted.tubeNamed tube = s.tubeNamed tube := by
  simp [Station.tubeNamed, submitted_tube, cfg_of_kept (submitted_kept s .setup (by decide))]

theorem submitted_journal : s.serviceKey.submitted.coin.journal = s.coin.journal :=
  congrArg Prod.fst (submitted_kept s .journal (by decide))

theorem submitted_txn : s.serviceKey.submitted.txn = s.txn := submitted_kept s .txn (by decide)

theorem submitted_fillTaken_iff (count : Nat) :
    s.serviceKey.submitted.fillTaken tube count = true ↔ s.tubeNamed tube = true ∧ 1 ≤ count ∧ count ≤ 250 := by
  simp [Station.fillTaken, submitted_tubeNamed, and_assoc]

theorem submitted_clearTaken_iff :
    s.serviceKey.submitted.clearTaken tube = true ↔ s.tubeNamed tube = true ∧ (s.tube tube).status = .payoutFault := by
  simp [Station.clearTaken, submitted_tubeNamed, submitted_tube]

end Named

section Written

/-! ### A tube written by a command -/

/-- R103: the payout record after a tube command. -/
def notedPayout (p : Payout) : Payout := if p.state = .stopped then { p with tubesChanged := true } else p

/-- From `w` to `u` a tube command has given its tube the record `r`, and changed no region outside the list. -/
structure TubeWritten (l : List Region) (w u : Station) (tube : Nat) (r : Tube) : Prop where
  same : u.tube tube = r
  others : ∀ n, n ≠ tube → u.tube n = w.tube n
  payout : u.payout = notedPayout w.payout
  kept : Kept l w u

variable {w u : Station} {tube : Nat} {r : Tube} {l : List Region}

theorem noteTubesChanged_tube (u : Station) (n : Nat) : u.noteTubesChanged.tube n = u.tube n :=
  tube_congr (noteTubesChanged_kept u .tubes (by decide)) n

theorem noteTubesChanged_journal (u : Station) : u.noteTubesChanged.coin.journal = u.coin.journal :=
  congrArg Prod.fst (noteTubesChanged_kept u .journal (by decide))

/-- A write of the tube's record, the payout record noted after it. -/
theorem tubeWritten_of_setTube (fitted : (w.tube tube).fitted = true) (f : Tube → Tube) :
    TubeWritten [.tubes, .payout] w (w.setTube tube f).noteTubesChanged tube (f (w.tube tube)) where
  same := by rw [noteTubesChanged_tube, tube_setTube_same fitted]
  others n h := by rw [noteTubesChanged_tube, tube_setTube_other h]
  payout := by rw [noteTubesChanged_payout, setTube_payout]; rfl
  kept := ((setTube_kept w tube f).mono (by decide)).trans ((noteTubesChanged_kept _).mono (by decide))

/-- R74: FILL-TUBE writes the tube and the journal. -/
theorem fillTube_written (fitted : (w.tube tube).fitted = true) (count : Nat) :
    TubeWritten [.tubes, .journal, .payout] w (w.fillTube tube count) tube
      { w.tube tube with estimate := limitEstimate (w.tube tube) ((w.tube tube).estimate + count) } where
  same := by rw [Station.fillTube, noteTubesChanged_tube, writeJournal_tube, tube_setTube_same fitted]
  others n h := by rw [Station.fillTube, noteTubesChanged_tube, writeJournal_tube, tube_setTube_other h]
  payout := by
    rw [Station.fillTube, noteTubesChanged_payout, writeJournal_kept _ _ .payout (by decide), setTube_payout]
    rfl
  kept := (((setTube_kept _ _ _).mono (by decide)).trans ((writeJournal_kept _ _).mono (by decide))).trans
    ((noteTubesChanged_kept _).mono (by decide))

theorem fillTube_journal (w : Station) (tube count : Nat) : (w.fillTube tube count).coin.journal =
    journalWith w.coin.journal ⟨.fill, some tube, (limitEstimate (w.tube tube) ((w.tube tube).estimate + count) -
      (w.tube tube).estimate) * (w.tube tube).denomination, w.txn.credit⟩ := by
  rw [Station.fillTube, noteTubesChanged_journal, writeJournal_journal, setTube_journal]

/-- A journal entry before the write of the tube's record changes nothing of it. -/
theorem tubeWritten_of_journal_setTube (fitted : (w.tube tube).fitted = true) (e : JournalEntry) (f : Tube → Tube) :
    TubeWritten [.tubes, .journal, .payout] w ((w.writeJournal e).setTube tube f).noteTubesChanged tube (f (w.tube tube)) := by
  have journalled := writeJournal_kept w e
  obtain ⟨same, others, payout, kept⟩ := tubeWritten_of_setTube (w := w.writeJournal e) (by rwa [writeJournal_tube]) f
  rw [writeJournal_tube] at same
  rw [journalled .payout (by decide)] at payout
  exact ⟨same, fun n h => (others n h).trans (writeJournal_tube w e n), payout,
    (journalled.mono (by decide)).trans (kept.mono (by decide))⟩

/-- R75: EMPTY-TUBE writes the journal and the tube. -/
theorem emptyTube_written (fitted : (w.tube tube).fitted = true) :
    TubeWritten [.tubes, .journal, .payout] w (w.emptyTube tube) tube { w.tube tube with estimate := 0 } :=
  tubeWritten_of_journal_setTube fitted _ _

theorem emptyTube_journal (w : Station) (tube : Nat) : (w.emptyTube tube).coin.journal = journalWith w.coin.journal
    ⟨.emptyTube, some tube, (w.tube tube).estimate * (w.tube tube).denomination, w.txn.credit⟩ := by
  rw [Station.emptyTube, noteTubesChanged_journal, setTube_journal, writeJournal_journal]

/-- R76: CLEAR-TUBE writes the tube. -/
theorem clearTube_written (fitted : (w.tube tube).fitted = true) :
    TubeWritten [.tubes, .payout] w (w.clearTube tube) tube { w.tube tube with status := .usable } :=
  tubeWritten_of_setTube fitted _

end Written

section Taken

/-! ### A tube command taken -/

variable {s u : Station} {tube : Nat} {r : Tube} {l : List Region}

/-- What a tube command taken at `s` leaves in `t`, the tube with the record `r`. -/
structure TubeCommandDone (l : List Region) (s t : Station) (tube : Nat) (r : Tube) : Prop where
  same : t.tube tube = r
  others : ∀ n, n ≠ tube → t.tube n = s.tube n
  indicator : tubeWatch r ≠ tubeWatch (s.tube tube) → t.exactLit = indicatorLit t.cfg.coinTypes t.coin.tubes
  done : Done t
  payout : t.payout = notedPayout s.payout
  kept : KeepsBut (.service :: .message :: l) s t

theorem tube_finish_showService (o u : Station) (m : Message) (n : Nat) : (finish o (u.showService m)).tube n = u.tube n :=
  (tube_finish _ _ _).trans (tube_congr (showService_kept u m .tubes (by decide)) n)

theorem journal_finish_showService (o u : Station) (m : Message) :
    (finish o (u.showService m)).coin.journal = u.coin.journal :=
  (finish_same o _ .journal).1.trans (congrArg Prod.fst (showService_kept u m .journal (by decide)))

theorem finish_tubeWritten (hs : s.serviceMode = true) (named : s.tubeNamed tube = true)
    (written : TubeWritten l s.serviceKey.submitted u tube r) (hl : ∀ x ∈ l, x ∈ [Region.tubes, .journal, .payout]) :
    TubeCommandDone l s (finish s (u.showService .done)) tube r := by
  obtain ⟨same, others, payout, kept⟩ := written
  have unlisted : ∀ x, x ∉ [Region.tubes, .journal, .payout] → x ∉ l := fun x hx listed => hx (hl x listed)
  obtain ⟨entry, shown, regions⟩ := finish_showService hs kept (unlisted _ (by decide)) (unlisted _ (by decide))
    (.inl ⟨unlisted _ (by decide), unlisted _ (by decide)⟩) .done
  have shown_kept : Kept [.service, .message, .tubes, .journal, .payout] s (u.showService .done) :=
    (((submitted_kept s).mono (by decide)).trans (kept.mono fun x hx => by simp [hl x hx])).trans
      ((showService_kept u .done).mono (by decide))
  have tube_eq := tube_finish_showService s u .done
  refine ⟨(tube_eq tube).trans same, fun n h => ((tube_eq n).trans (others n h)).trans (submitted_tube s n),
    fun changed => ?_, ⟨entry, shown⟩, ?_, regions⟩
  · have running : (u.showService .done).running = true :=
      (running_of_kept shown_kept (by decide)).trans (Bool.and_eq_true_iff.mp hs).1
    have payment : isPayment (u.showService .done).cfg = true := by
      rw [cfg_of_kept (shown_kept .setup (by decide))]
      simpa [isPayment] using ((tubeNamed_iff s tube).mp named).1
    refine finish_exactLit running payment (tube := tube) ?_
    rw [tube_congr (showService_kept u .done .tubes (by decide)) tube, same]
    exact changed
  · refine (finish_same s _ .payout).trans ((showService_kept u .done .payout (by decide)).trans (payout.trans ?_))
    rw [submitted_kept s .payout (by decide)]

/-- R186: no tube's fault stands where every fitted tube is USABLE. -/
theorem tubePayoutFault_not_standing (o u : Station) (keeps : (finish o u).keepsConditions = true)
    (five : u.coin.tubes.length ≤ 5) (usable : ∀ n, (u.tube n).fitted = true → (u.tube n).status = .usable) :
    Condition.tubePayoutFault ∉ (finish o u).faults.standing := by
  intro stands
  rw [finish_conditionsTaken o u keeps] at stands
  have faulted : (finish o u).coin.tubes.any (fun r => r.fitted && r.status = .payoutFault) = true :=
    (List.mem_filter.mp stands).2
  rw [finish_same o u .tubes, List.any_eq_true] at faulted
  obtain ⟨r, listed, fault⟩ := faulted
  obtain ⟨n, rfl⟩ := exists_tube_of_mem five listed
  simp only [Bool.and_eq_true, decide_eq_true_eq] at fault
  rw [usable n fault.1] at fault
  exact absurd fault.2 (by decide)

end Taken

section Commands

/-! ### The three commands -/

variable {s : State} {tube count : Nat}

/-- A weaker account of what a command leaves. -/
theorem gives_mono {c : Instr} {P Q : Station → Prop} (h : Gives c s P) (hpq : ∀ t, P t → Q t) : Gives c s Q := by
  obtain ⟨t, executed, mem, write, pending, holds⟩ := h
  exact ⟨t, executed, mem, write, pending, hpq _ holds⟩

theorem submitted_fitted (named : s.station.tubeNamed tube = true) :
    (s.station.serviceKey.submitted.tube tube).fitted = true := by
  rw [submitted_tube]
  exact ((tubeNamed_iff _ _).mp named).2.2.2

/-- R74: FILL-TUBE taken. -/
theorem fillTube_gives (hs : s.station.serviceMode = true) (named : s.station.tubeNamed tube = true) (low : 1 ≤ count)
    (high : count ≤ 250) : Gives (.fillTube tube count) s fun t =>
      TubeCommandDone [.tubes, .journal, .payout] s.station t tube { s.station.tube tube with
          estimate := limitEstimate (s.station.tube tube) ((s.station.tube tube).estimate + count) } ∧
        t.coin.journal = journalWith s.station.coin.journal ⟨.fill, some tube,
          (limitEstimate (s.station.tube tube) ((s.station.tube tube).estimate + count) - (s.station.tube tube).estimate) *
            (s.station.tube tube).denomination, s.station.txn.credit⟩ := by
  refine gives_of_submit (c := .fillTube tube count) hs rfl ?_
  have taken : s.station.serviceKey.submitted.runService (.fillTube tube count) =
      (s.station.serviceKey.submitted.fillTube tube count).showService .done :=
    if_pos ((submitted_fillTaken_iff _ _ _).mpr ⟨named, low, high⟩)
  have written := fillTube_written (submitted_fitted named) count
  rw [submitted_tube] at written
  rw [taken, journal_finish_showService, fillTube_journal, submitted_tube, submitted_journal, submitted_txn]
  exact ⟨finish_tubeWritten hs named written (by decide), rfl⟩

/-- R74: FILL-TUBE refused. -/
theorem fillTube_refused (hs : s.station.serviceMode = true)
    (ht : ¬(s.station.tubeNamed tube = true ∧ 1 ≤ count ∧ count ≤ 250)) :
    Gives (.fillTube tube count) s (RefusedWith .refused s.station) :=
  gives_refused_of_submit (c := .fillTube tube count) hs rfl
    (if_neg fun taken => ht ((submitted_fillTaken_iff _ _ _).mp taken))

/-- R75: EMPTY-TUBE taken. -/
theorem emptyTube_gives (hs : s.station.serviceMode = true) (named : s.station.tubeNamed tube = true) :
    Gives (.emptyTube tube) s fun t =>
      TubeCommandDone [.tubes, .journal, .payout] s.station t tube { s.station.tube tube with estimate := 0 } ∧
        t.coin.journal = journalWith s.station.coin.journal ⟨.emptyTube, some tube,
          (s.station.tube tube).estimate * (s.station.tube tube).denomination, s.station.txn.credit⟩ := by
  refine gives_of_submit (c := .emptyTube tube) hs rfl ?_
  have taken : s.station.serviceKey.submitted.runService (.emptyTube tube) =
      (s.station.serviceKey.submitted.emptyTube tube).showService .done :=
    if_pos ((submitted_tubeNamed _ _).trans named)
  have written := emptyTube_written (submitted_fitted named)
  rw [submitted_tube] at written
  rw [taken, journal_finish_showService, emptyTube_journal, submitted_tube, submitted_journal, submitted_txn]
  exact ⟨finish_tubeWritten hs named written (by decide), rfl⟩

/-- R75: EMPTY-TUBE refused. -/
theorem emptyTube_refused (hs : s.station.serviceMode = true) (ht : ¬s.station.tubeNamed tube = true) :
    Gives (.emptyTube tube) s (RefusedWith .refused s.station) :=
  gives_refused_of_submit (c := .emptyTube tube) hs rfl (if_neg fun taken => ht ((submitted_tubeNamed _ _).symm.trans taken))

/-- R76, R186: CLEAR-TUBE taken; the condition ends with the last faulty tube. -/
theorem clearTube_gives (hs : s.station.serviceMode = true) (named : s.station.tubeNamed tube = true)
    (faulty : (s.station.tube tube).status = .payoutFault) : Gives (.clearTube tube) s fun t =>
      TubeCommandDone [.tubes, .payout] s.station t tube { s.station.tube tube with status := .usable } ∧
        (s.station.keepsConditions = true →
          (∀ n, n ≠ tube → (s.station.tube n).fitted = true → (s.station.tube n).status = .usable) →
          s.station.coin.tubes.length = 5 → Condition.tubePayoutFault ∉ t.faults.standing) := by
  refine gives_of_submit (c := .clearTube tube) hs rfl ?_
  have taken : s.station.serviceKey.submitted.runService (.clearTube tube) =
      (s.station.serviceKey.submitted.clearTube tube).showService .done :=
    if_pos ((submitted_clearTaken_iff _ _).mpr ⟨named, faulty⟩)
  have written := clearTube_written (submitted_fitted named)
  rw [submitted_tube] at written
  rw [taken]
  have command := finish_tubeWritten hs named written (by decide)
  refine ⟨command, fun keeps usable five => tubePayoutFault_not_standing _ _ ?_ ?_ fun n fitted => ?_⟩
  · have built_eq := (command.kept .setup (by decide)).2.1
    exact built_eq.trans keeps
  · rw [showService_kept _ _ .tubes (by decide), Station.clearTube, noteTubesChanged_kept _ .tubes (by decide),
      setTube_tubes_length, submitted_kept s.station .tubes (by decide), five]
  · rw [← tube_finish s.station] at fitted ⊢
    by_cases own : n = tube
    · rw [own, command.same]
    · rw [command.others n own] at fitted ⊢
      exact usable n own fitted

/-- R76: CLEAR-TUBE refused. -/
theorem clearTube_refused (hs : s.station.serviceMode = true)
    (ht : ¬(s.station.tubeNamed tube = true ∧ (s.station.tube tube).status = .payoutFault)) :
    Gives (.clearTube tube) s (RefusedWith .refused s.station) :=
  gives_refused_of_submit (c := .clearTube tube) hs rfl (if_neg fun taken => ht ((submitted_clearTaken_iff _ _).mp taken))

end Commands

/-- Settles O56, each command taken and refused by its own lemma. -/
theorem tubeCommandsAreTakenOrRefused : Obligations.TubeCommandsAreTakenOrRefused := by
  unfold Obligations.TubeCommandsAreTakenOrRefused
  rintro s tube count _ _ named hs rfl rfl named_iff
  have taken_iff : named ↔ s.station.tubeNamed tube = true := named_iff.trans (tubeNamed_iff _ _).symm
  have watched : ∀ {r : Tube}, r.estimate ≠ (s.station.tube tube).estimate →
      tubeWatch r ≠ tubeWatch (s.station.tube tube) :=
    fun changed same => changed (congrArg (fun w => w.2.1) same)
  refine ⟨⟨?fill, ?fillRefused⟩, ⟨?empty, ?emptyRefused⟩, ?clear, ?clearRefused⟩
  case fill =>
    refine fun hn low high => ⟨_, rfl, gives_mono (fillTube_gives hs (taken_iff.mp hn) low high) ?_⟩
    rintro t ⟨command, journal⟩
    exact ⟨command.same, command.others, journal, fun changed => command.indicator (watched changed), command.done,
      command.payout, command.kept⟩
  case fillRefused =>
    refine fun refused => fillTube_refused hs ?_
    rintro ⟨hn, low, high⟩
    rcases refused with unnamed | none_counted | above
    · exact unnamed (taken_iff.mpr hn)
    · omega
    · omega
  case empty =>
    refine fun hn => gives_mono (emptyTube_gives hs (taken_iff.mp hn)) ?_
    rintro t ⟨command, journal⟩
    exact ⟨command.same, command.others, journal, fun held => command.indicator (watched (Ne.symm held)), command.done,
      command.payout, command.kept⟩
  case emptyRefused => exact fun unnamed => emptyTube_refused hs fun hn => unnamed (taken_iff.mpr hn)
  case clear =>
    refine fun hn faulty => gives_mono (clearTube_gives hs (taken_iff.mp hn) faulty) ?_
    rintro t ⟨command, ends⟩
    have changed : tubeWatch { s.station.tube tube with status := .usable } ≠ tubeWatch (s.station.tube tube) := fun same => by
      have status_eq : TubeStatus.usable = (s.station.tube tube).status := congrArg (fun w => w.2.2) same
      rw [faulty] at status_eq
      cases status_eq
    exact ⟨command.same, command.others, command.indicator changed, ends, command.done, command.payout, command.kept⟩
  case clearRefused =>
    refine fun refused => clearTube_refused hs ?_
    rintro ⟨hn, faulty⟩
    rcases refused with unnamed | usable
    · exact unnamed (taken_iff.mpr hn)
    · exact absurd (faulty.symm.trans usable) (by decide)

end Sys2Proof.Proofs

/-! SUPPORT. The change planner (R80 to R88), for O60: the levels that a search walks, what any walk over them can answer, and
how the counts found become the entries of a plan. -/

namespace Sys2Proof.Proofs

open Sys2Proof.Machine Sys2Proof.Laws

section Levels

/-! ### Levels over the tubes (R81) -/

/-- An allotment of coins to the tube of a number, which holds a usable tube of the denomination with at least so many. -/
def DrawnFrom (tubes : List Tube) (denomination : Nat) (a : Nat × Nat) : Prop :=
  ∃ t, tubes[a.1 - 1]? = some t ∧ t.fitted = true ∧ t.status = .usable ∧ t.denomination = denomination ∧ a.2 ≤ t.estimate

/-- A level counts the coins of its tubes, each of them a tube that takes part in the search. -/
def LevelOver (tubes : List Tube) (l : Level) : Prop :=
  l.count = (l.tubes.map Prod.snd).sum ∧ ∀ a ∈ l.tubes, DrawnFrom tubes l.denomination a

/-- The tube numbers of the levels. -/
def levelNumbers (levels : List Level) : List Nat := levels.flatMap fun l => l.tubes.map Prod.fst

theorem insertLevel_forall {P : Level → Prop} {number denomination estimate : Nat} {levels : List Level}
    (held : ∀ l ∈ levels, P l) (fresh : P ⟨denomination, estimate, [(number, estimate)]⟩)
    (merged : ∀ l, P l → denomination = l.denomination →
      P { l with count := l.count + estimate, tubes := l.tubes ++ [(number, estimate)] }) :
    ∀ l ∈ insertLevel number denomination estimate levels, P l := by
  induction levels with
  | nil => simpa [insertLevel] using fresh
  | cons l rest ih =>
    rw [List.forall_mem_cons] at held
    obtain ⟨here, others⟩ := held
    unfold insertLevel
    split
    · rename_i same
      exact List.forall_mem_cons.mpr ⟨merged l here same, others⟩
    · split
      · exact List.forall_mem_cons.mpr ⟨fresh, List.forall_mem_cons.mpr ⟨here, others⟩⟩
      · exact List.forall_mem_cons.mpr ⟨here, ih others⟩

theorem insertLevel_over {tubes : List Tube} {levels : List Level} {number denomination estimate : Nat}
    (held : ∀ l ∈ levels, LevelOver tubes l) (drawn : DrawnFrom tubes denomination (number, estimate)) :
    ∀ l ∈ insertLevel number denomination estimate levels, LevelOver tubes l := by
  refine insertLevel_forall held ⟨by simp, by simpa using drawn⟩ ?_
  rintro l ⟨count_eq, allots⟩ rfl
  refine ⟨by simp [count_eq], fun a ha => ?_⟩
  rcases List.mem_append.mp ha with old | new
  · exact allots a old
  · rw [List.mem_singleton] at new
    exact new ▸ drawn

/-- A tube merged into the levels brings its number and no other. -/
theorem levelNumbers_insertLevel (number denomination estimate : Nat) (levels : List Level) :
    (levelNumbers (insertLevel number denomination estimate levels)).Perm (number :: levelNumbers levels) := by
  induction levels with
  | nil => simp [insertLevel, levelNumbers]
  | cons l rest ih =>
    unfold insertLevel
    split
    · simp [levelNumbers]
    · split
      · simp [levelNumbers]
      · calc levelNumbers (l :: insertLevel number denomination estimate rest)
          _ = l.tubes.map Prod.fst ++ levelNumbers (insertLevel number denomination estimate rest) := by simp [levelNumbers]
          _ |>.Perm (l.tubes.map Prod.fst ++ number :: levelNumbers rest) := ih.append_left _
          _ |>.Perm (number :: (l.tubes.map Prod.fst ++ levelNumbers rest)) := List.perm_middle
          _ = number :: levelNumbers (l :: rest) := by simp [levelNumbers]

/-- R81: the levels over the tubes that remain, behind those already merged. -/
theorem levelsFrom_over (rest : List Tube) (merged : List Tube) {levels : List Level}
    (held : ∀ l ∈ levels, LevelOver (merged ++ rest) l) :
    ∀ l ∈ levelsFrom (merged.length + 1) levels rest, LevelOver (merged ++ rest) l := by
  induction rest generalizing merged levels with
  | nil => exact held
  | cons t rest ih =>
    have further := fun levels => ih (merged ++ [t]) (levels := levels)
    simp only [List.append_assoc, List.singleton_append, List.length_append, List.length_singleton] at further
    refine further _ ?_
    split
    · rename_i usable
      refine insertLevel_over held ⟨t, by simp, ?_⟩
      simp only [tubeUsable, Bool.and_eq_true, decide_eq_true_eq] at usable
      exact ⟨usable.1.1, usable.1.2, rfl, Nat.le_refl _⟩
    · exact held

theorem levelNumbers_levelsFrom_nodup (rest : List Tube) (number : Nat) {levels : List Level}
    (nodup : (levelNumbers levels).Nodup) (below : ∀ n ∈ levelNumbers levels, n < number) :
    (levelNumbers (levelsFrom number levels rest)).Nodup := by
  induction rest generalizing number levels with
  | nil => exact nodup
  | cons t rest ih =>
    unfold levelsFrom
    split
    · have numbers := levelNumbers_insertLevel number t.denomination t.estimate levels
      refine ih _ (numbers.nodup_iff.mpr (List.nodup_cons.mpr ⟨fun h => Nat.lt_irrefl _ (below _ h), nodup⟩)) fun n hn => ?_
      rcases List.mem_cons.mp (numbers.mem_iff.mp hn) with rfl | old
      · exact Nat.lt_succ_self _
      · exact Nat.lt_succ_of_lt (below n old)
    · exact ih _ nodup fun n hn => Nat.lt_succ_of_lt (below n hn)

theorem levelsOf_over (tubes : List Tube) : ∀ l ∈ levelsOf tubes, LevelOver tubes l :=
  levelsFrom_over tubes [] (by simp)

theorem levelsOf_nodup (tubes : List Tube) : (levelNumbers (levelsOf tubes)).Nodup :=
  levelNumbers_levelsFrom_nodup tubes 1 (by simp [levelNumbers]) (by simp [levelNumbers])

end Levels

section Search

/-! ### The search (R82 to R87) -/

/-- Counts of the levels from the first, none above what its level holds. -/
def Fits : List Level → List Nat → Prop
  | _, [] => True
  | [], _ :: _ => False
  | l :: levels, k :: counts => k ≤ l.count ∧ Fits levels counts

/-- What counts of the levels from the first pay. -/
def countsValue : List Level → List Nat → Nat
  | l :: levels, k :: counts => l.denomination * k + countsValue levels counts
  | _, _ => 0

/-- Counts that go on from those chosen above within the remainder. -/
def GoesOn (levels : List Level) (remainder : Nat) (chosen counts : List Nat) : Prop :=
  ∃ more, counts = chosen ++ more ∧ Fits levels more ∧ countsValue levels more ≤ remainder

/-- What a walk over the levels below those chosen may answer: an exact plan pays the remainder to the coin, and a best plan is
the one held before or one of its own. -/
def WalkSound (levels : List Level) (remainder : Nat) (chosen : List Nat) (best : BestPlan) : Walk → Prop
  | .exact counts _ => ∃ more, counts = chosen ++ more ∧ Fits levels more ∧ countsValue levels more = remainder
  | .exhausted _ b => b.counts = best.counts ∨ GoesOn levels remainder chosen b.counts
  | .limited b => b.counts = best.counts ∨ GoesOn levels remainder chosen b.counts

/-- A best plan held after an earlier candidate is held before the next. -/
theorem WalkSound.after {levels : List Level} {remainder : Nat} {chosen : List Nat} {best later : BestPlan} {w : Walk}
    (h : WalkSound levels remainder chosen later w)
    (earlier : later.counts = best.counts ∨ GoesOn levels remainder chosen later.counts) :
    WalkSound levels remainder chosen best w := by
  have either : ∀ b : BestPlan, (b.counts = later.counts ∨ GoesOn levels remainder chosen b.counts) →
      b.counts = best.counts ∨ GoesOn levels remainder chosen b.counts := by
    rintro b (same | goes)
    · rw [same]
      exact earlier
    · exact .inr goes
  cases w with
  | exact counts n => exact h
  | exhausted n b => exact either b h
  | limited b => exact either b h

/-- R83, R86: candidates that are each sound make a sound walk in turn. -/
theorem tryDown_sound {levels : List Level} {remainder : Nat} {chosen : List Nat} {candidate : Nat → Nat → BestPlan → Walk}
    (n : Nat) (sound : ∀ k ≤ n, ∀ steps best, WalkSound levels remainder chosen best (candidate k steps best))
    (steps : Nat) (best : BestPlan) : WalkSound levels remainder chosen best (tryDown candidate n steps best) := by
  induction n generalizing steps best with
  | zero => exact sound 0 (Nat.le_refl _) steps best
  | succ n ih =>
    have first := sound (n + 1) (Nat.le_refl _) steps best
    unfold tryDown
    split <;> rename_i answered <;> rw [answered] at first
    · exact (ih (fun k hk => sound k (Nat.le_succ_of_le hk)) _ _).after first
    · exact first
    · exact first

/-- A count at the top level before counts of the levels below. -/
theorem fits_cons {l : Level} {levels : List Level} {k left remainder : Nat} {more : List Nat} (within : k ≤ l.count)
    (paid : l.denomination * k + left = remainder) (fits : Fits levels more) (value : countsValue levels more ≤ left) :
    Fits (l :: levels) (k :: more) ∧ countsValue (l :: levels) (k :: more) ≤ remainder :=
  ⟨⟨within, fits⟩, by simp only [countsValue]; omega⟩

/-- A walk below a count chosen at the top level. -/
theorem WalkSound.below {l : Level} {levels : List Level} {k left remainder : Nat} {chosen : List Nat} {best : BestPlan}
    {w : Walk} (within : k ≤ l.count) (paid : l.denomination * k + left = remainder)
    (h : WalkSound levels left (chosen ++ [k]) best w) : WalkSound (l :: levels) remainder chosen best w := by
  have goes : ∀ b : BestPlan, GoesOn levels left (chosen ++ [k]) b.counts → GoesOn (l :: levels) remainder chosen b.counts := by
    rintro b ⟨more, counts_eq, fits, value⟩
    exact ⟨k :: more, by simp [counts_eq], fits_cons within paid fits value⟩
  cases w with
  | exact counts n =>
    obtain ⟨more, rfl, fits, value⟩ := h
    exact ⟨k :: more, by simp, ⟨within, fits⟩, by simp only [countsValue]; omega⟩
  | exhausted n b => exact h.imp_right (goes b)
  | limited b => exact h.imp_right (goes b)

/-- A count at the top level that the remainder reaches. -/
theorem level_paid (l : Level) {k remainder : Nat} (h : k ≤ min l.count (remainder / l.denomination)) :
    k ≤ l.count ∧ l.denomination * k + (remainder - k * l.denomination) = remainder := by
  rw [Nat.le_min] at h
  have reached : k * l.denomination ≤ remainder := (Nat.mul_le_mul_right _ h.2).trans (Nat.div_mul_le_self _ _)
  refine ⟨h.1, ?_⟩
  rw [Nat.mul_comm]
  omega

/-- R83 to R87: a walk answers nothing but counts that the levels hold and the remainder reaches. -/
theorem walkLevels_sound (amount : Nat) (levels : List Level) (remainder : Nat) (chosen : List Nat) (steps : Nat)
    (best : BestPlan) : WalkSound levels remainder chosen best (walkLevels amount levels remainder chosen steps best) := by
  induction levels generalizing remainder chosen steps best with
  | nil => exact .inl rfl
  | cons l levels ih =>
    have ended : ∀ {k left : Nat}, k ≤ l.count → l.denomination * k + left = remainder → left = 0 → ∀ n,
        WalkSound (l :: levels) remainder chosen best (.exact (chosen ++ [k]) n) := by
      rintro k left within paid rfl n
      exact WalkSound.below (levels := levels) within paid ⟨[], by simp, by simp [Fits], by simp [countsValue]⟩
    cases levels with
    | nil =>
      obtain ⟨within, paid⟩ := level_paid l (k := min l.count (remainder / l.denomination)) (Nat.le_refl _)
      unfold walkLevels
      dsimp only
      split
      · exact .inl rfl
      · split
        · exact ended within paid ‹_› _
        · split
          · exact .inr ⟨[_], rfl, fits_cons within paid (by simp [Fits]) (Nat.zero_le _)⟩
          · exact .inl rfl
    | cons m rest =>
      unfold walkLevels
      refine tryDown_sound _ (fun k hk n b => ?_) steps best
      obtain ⟨within, paid⟩ := level_paid l hk
      dsimp only
      split
      · exact .inl rfl
      · split
        · rename_i nothing
          exact WalkSound.below (levels := m :: rest) within paid ⟨[], by simp, by simp [Fits], by simp [countsValue, nothing]⟩
        · exact (ih _ _ _ b).below within paid

/-- R82, R85, R87: the counts of a search are held by the levels and pay no more than the amount, all of it when the answer is
exact. -/
theorem searchLevels_sound (levels : List Level) (amount : Nat) :
    Fits levels (searchLevels levels amount).counts ∧ countsValue levels (searchLevels levels amount).counts ≤ amount ∧
      ((searchLevels levels amount).exact = true → countsValue levels (searchLevels levels amount).counts = amount) := by
  have none_held : Fits levels [] ∧ countsValue levels [] = 0 := by cases levels <;> simp [Fits, countsValue]
  have kept : ∀ b : BestPlan, b.counts = [] ∨ GoesOn levels amount [] b.counts →
      Fits levels b.counts ∧ countsValue levels b.counts ≤ amount := by
    rintro b (same | ⟨more, rfl, fits, value⟩)
    · rw [same, none_held.2]
      exact ⟨none_held.1, Nat.zero_le _⟩
    · exact ⟨fits, value⟩
  have walked := walkLevels_sound amount levels amount [] 0 ⟨[], 0⟩
  unfold searchLevels
  split
  · rename_i nothing
    rw [nothing]
    exact ⟨none_held.1, Nat.le_of_eq none_held.2, fun _ => none_held.2⟩
  · split <;> rename_i answered <;> rw [answered] at walked
    · obtain ⟨more, rfl, fits, value⟩ := walked
      exact ⟨fits, Nat.le_of_eq value, fun _ => value⟩
    · exact ⟨(kept _ walked).1, (kept _ walked).2, fun inexact => Bool.noConfusion inexact⟩
    · exact ⟨(kept _ walked).1, (kept _ walked).2, fun inexact => Bool.noConfusion inexact⟩

end Search

section Mapping

/-! ### The mapped plan (R88) -/

theorem insertTube_perm (t : Nat × Nat) (tubes : List (Nat × Nat)) : (insertTube t tubes).Perm (t :: tubes) := by
  induction tubes with
  | nil => exact .refl _
  | cons u rest ih =>
    unfold insertTube
    split
    · exact .refl _
    · exact (ih.cons u).trans (.swap t u rest)

theorem foldl_insertTube_perm (tubes acc : List (Nat × Nat)) :
    (tubes.foldl (fun acc t => insertTube t acc) acc).Perm (tubes ++ acc) := by
  induction tubes generalizing acc with
  | nil => exact .refl _
  | cons t rest ih => exact (ih _).trans (((insertTube_perm t acc).append_left rest).trans List.perm_middle)

theorem orderTubes_perm (tubes : List (Nat × Nat)) : (orderTubes tubes).Perm tubes := by
  simpa [orderTubes] using foldl_insertTube_perm tubes []

theorem allot_fst (k : Nat) (tubes : List (Nat × Nat)) : (allot k tubes).map Prod.fst = tubes.map Prod.fst := by
  induction tubes generalizing k with
  | nil => rfl
  | cons t rest ih => simp [allot, ih]

theorem allot_sum (k : Nat) (tubes : List (Nat × Nat)) : ((allot k tubes).map Prod.snd).sum = min k (tubes.map Prod.snd).sum := by
  induction tubes generalizing k with
  | nil => simp [allot]
  | cons t rest ih =>
    simp only [allot, List.map_cons, List.sum_cons, ih]
    omega

theorem allot_within (k : Nat) (tubes : List (Nat × Nat)) : ∀ a ∈ allot k tubes, ∃ u ∈ tubes, a.1 = u.1 ∧ a.2 ≤ u.2 := by
  induction tubes generalizing k with
  | nil => simp [allot]
  | cons t rest ih =>
    refine List.forall_mem_cons.mpr ⟨⟨t, by simp, rfl, Nat.min_le_right _ _⟩, fun a ha => ?_⟩
    obtain ⟨u, hu, allotted⟩ := ih _ a ha
    exact ⟨u, List.mem_cons_of_mem _ hu, allotted⟩

theorem planTotal_cons (e : PlanEntry) (plan : List PlanEntry) :
    planTotal (e :: plan) = e.denomination * e.count + planTotal plan := by simp [planTotal]

theorem planTotal_mapPlan (levels : List Level) (counts : List Nat) :
    planTotal (mapPlan levels counts) = countsValue levels counts := by
  induction levels generalizing counts with
  | nil => cases counts <;> rfl
  | cons l rest ih =>
    cases counts with
    | nil => rfl
    | cons k counts =>
      unfold mapPlan
      split
      · rename_i none_of_it
        simp [countsValue, none_of_it, ih]
      · rw [planTotal_cons, ih]
        rfl

/-- Each entry of a plan is of a level, with a count that the level holds. -/
theorem mapPlan_of_level {levels : List Level} {counts : List Nat} (fits : Fits levels counts) :
    ∀ e ∈ mapPlan levels counts, ∃ l ∈ levels, ∃ k, k ≠ 0 ∧ k ≤ l.count ∧ e = ⟨l.denomination, k, allot k (orderTubes l.tubes)⟩ := by
  induction levels generalizing counts with
  | nil => simp [mapPlan]
  | cons l rest ih =>
    cases counts with
    | nil => simp [mapPlan]
    | cons k counts =>
      obtain ⟨within, fits⟩ := fits
      have others : ∀ e ∈ mapPlan rest counts, ∃ m ∈ l :: rest, ∃ k, k ≠ 0 ∧ k ≤ m.count ∧
          e = ⟨m.denomination, k, allot k (orderTubes m.tubes)⟩ := by
        intro e he
        obtain ⟨m, hm, made⟩ := ih fits e he
        exact ⟨m, List.mem_cons_of_mem _ hm, made⟩
      unfold mapPlan
      split
      · exact others
      · exact List.forall_mem_cons.mpr ⟨⟨l, by simp, k, ‹_›, within, rfl⟩, others⟩

/-- The tubes of a plan are tubes of its levels, none of them twice. -/
theorem mapPlan_numbers (levels : List Level) (counts : List Nat) :
    ((mapPlan levels counts).flatMap fun e => e.tubes.map Prod.fst).Subperm (levelNumbers levels) := by
  induction levels generalizing counts with
  | nil => simp [mapPlan]
  | cons l rest ih =>
    cases counts with
    | nil => simp [mapPlan]
    | cons k counts =>
      unfold mapPlan
      split
      · exact (ih counts).trans (List.sublist_append_right _ _).subperm
      · have numbers : ((allot k (orderTubes l.tubes)).map Prod.fst).Perm (l.tubes.map Prod.fst) := by
          rw [allot_fst]
          exact (orderTubes_perm l.tubes).map _
        exact numbers.subperm.append (ih counts)

/-- R88: an entry made of a level takes its count from the level's tubes, from each no more than its estimate. -/
theorem entry_drawn {tubes : List Tube} {l : Level} (covers : LevelOver tubes l) {k : Nat} (within : k ≤ l.count) :
    ((allot k (orderTubes l.tubes)).map Prod.snd).sum = k ∧
      ∀ a ∈ allot k (orderTubes l.tubes), DrawnFrom tubes l.denomination a := by
  obtain ⟨count_eq, drawn⟩ := covers
  refine ⟨?_, fun a ha => ?_⟩
  · rw [allot_sum, ((orderTubes_perm l.tubes).map Prod.snd).sum_eq, ← count_eq]
    exact Nat.min_eq_left within
  · obtain ⟨u, hu, number_eq, fewer⟩ := allot_within _ _ a ha
    obtain ⟨t, found, fitted, usable, denomination_eq, most⟩ := drawn u ((orderTubes_perm l.tubes).mem_iff.mp hu)
    exact ⟨t, number_eq ▸ found, fitted, usable, denomination_eq, fewer.trans most⟩

theorem planTotal_payoutPlan_le (tubes : List Tube) (amount : Nat) : planTotal (payoutPlan tubes amount) ≤ amount := by
  rw [payoutPlan, planTotal_mapPlan]
  exact (searchLevels_sound _ _).2.1

/-- R80 to R88: a payout plan stays within the amount and the tubes. -/
theorem payoutPlan_sound (tubes : List Tube) (amount : Nat) :
    planTotal (payoutPlan tubes amount) ≤ amount ∧
    (payableExactly tubes amount = true → planTotal (payoutPlan tubes amount) = amount) ∧
    ((payoutPlan tubes amount).flatMap fun e => e.tubes.map Prod.fst).Nodup ∧
    ∀ e ∈ payoutPlan tubes amount, e.count ≠ 0 ∧ (e.tubes.map Prod.snd).sum = e.count ∧
      ∀ a ∈ e.tubes, DrawnFrom tubes e.denomination a := by
  obtain ⟨fits, -, exactly⟩ := searchLevels_sound (levelsOf tubes) amount
  refine ⟨planTotal_payoutPlan_le tubes amount, fun payable => (planTotal_mapPlan _ _).trans (exactly payable), ?_,
    fun e he => ?_⟩
  · obtain ⟨numbers, same, sublist⟩ := mapPlan_numbers (levelsOf tubes) (searchLevels (levelsOf tubes) amount).counts
    exact same.nodup_iff.mp ((levelsOf_nodup tubes).sublist sublist)
  · obtain ⟨l, hl, k, some_coins, within, rfl⟩ := mapPlan_of_level fits e he
    exact ⟨some_coins, entry_drawn (levelsOf_over tubes l hl) within⟩

end Mapping

end Sys2Proof.Proofs

/-! SUPPORT. The records of the money (R93, R109, R110), for O60: what of a station the law of the money speaks of, what each
operation of the payout unit and of the transaction does to it, and the sum of the money held and the money gone. -/

namespace Sys2Proof.Proofs

open Sys2Proof.Machine Sys2Proof.Laws

section Records

/-! ### The law without the station at rest -/

/-- R109, R110: escrow, offer and state of the credit record. -/
structure TxnSound (x : Txn) : Prop where
  unsold : x.state ≠ .committed → x.escrow = 0
  sold : x.state = .committed → ∃ o, x.offer = some o ∧ o.quoted = some x.escrow
  asking : x.state = .asking → x.offer ≠ none
  idle : x.state = .idle → x.credit = 0
  credit : x.state = .credit → x.credit ≠ 0

/-- R93: what is planned of a payout and paid is within its amount, all of it is paid where none is held, and a coin is in
progress only while it runs. -/
structure PayoutSound (p : Payout) : Prop where
  settled : p.state = .idle → p.amount = p.paid
  coin : p.phase ≠ .none → p.state = .running
  planned : p.paid + planTotal p.plan ≤ p.amount

/-- The law of the money but for what a station at rest holds. -/
structure MoneyRecords (s : Station) : Prop where
  txn : TxnSound s.txn
  payout : PayoutSound s.payout
  paying : s.payout.state = .idle ↔ s.txn.state ≠ .paying

theorem moneyLaw_iff (s : Station) : MoneyLaw s ↔ MoneyRecords s ∧ AtRest s := by
  constructor
  · rintro ⟨unsold, sold, asking, idle, credit, paying, settled, coin, planned, rest⟩
    exact ⟨⟨⟨unsold, sold, asking, idle, credit⟩, ⟨settled, coin, planned⟩, paying⟩, rest⟩
  · rintro ⟨⟨⟨unsold, sold, asking, idle, credit⟩, ⟨settled, coin, planned⟩, paying⟩, rest⟩
    exact ⟨unsold, sold, asking, idle, credit, paying, settled, coin, planned, rest⟩

/-- R109: the money held and the money gone. -/
def moneyTotal (s : Station) : Nat := s.held + s.gone

/-- From `s` to `t` the money rises by what is taken in, where no counter saturates. -/
def Balanced (taken : Nat) (s t : Station) : Prop :=
  moneyTotal s + taken ≤ max32 → moneyTotal t = moneyTotal s + taken

/-- An operation on lawful records leaves them lawful and the money as it was. -/
def Settles (s t : Station) : Prop := MoneyRecords t ∧ Balanced 0 s t

/-- What the law and the sum read of a station, with what says that it runs or starts. -/
def ledger (s : Station) :
    (StartPhase × Bool) × (Nat × Nat × TxnState × Option Offer) × (PayoutState × Nat × Nat × List PlanEntry × CoinPhase) × Nat :=
  ((s.start, s.running), (s.txn.credit, s.txn.escrow, s.txn.state, s.txn.offer),
    (s.payout.state, s.payout.amount, s.payout.paid, s.payout.plan, s.payout.phase), s.gone)

variable {s t u : Station} {m n : Nat}

theorem Balanced.trans (h : Balanced m s t) (k : Balanced n t u) : Balanced (m + n) s u := by
  intro small
  have first := h (by omega)
  have second := k (by omega)
  omega

theorem Balanced.of_eq (h : moneyTotal t = moneyTotal s) : Balanced 0 s t := fun _ => h

/-- An operation after one that has kept the money, lawful in between or not. -/
theorem Settles.after (k : Settles t u) (h : Balanced 0 s t) : Settles s u := ⟨k.1, h.trans k.2⟩

theorem rise32_of_small {counter n : Nat} (h : counter + n ≤ max32) : rise32 counter n = counter + n := Nat.min_eq_right h

/-- What an operation does to the law of the money and to the sum: it leaves whether the station runs and starts, and lawful
records it leaves lawful, with the money as it was. -/
structure Moves (s t : Station) : Prop where
  running : t.running = s.running
  start : t.start = s.start
  money : MoneyRecords s → Settles s t

theorem Moves.trans (h : Moves s t) (k : Moves t u) : Moves s u :=
  ⟨k.running.trans h.running, k.start.trans h.start, fun lawful =>
    have settled := h.money lawful
    (k.money settled.1).after settled.2⟩

theorem Moves.ite {c : Prop} [Decidable c] (h : Moves s t) (k : Moves s u) : Moves s (if c then t else u) := by
  split <;> assumption

/-- An operation that leaves everything the law and the sum read. -/
theorem Moves.plain (h : ledger t = ledger s) : Moves s t := by
  simp only [ledger, Prod.mk.injEq] at h
  obtain ⟨⟨start_eq, running_eq⟩, ⟨credit_eq, escrow_eq, txn_eq, offer_eq⟩,
    ⟨state_eq, amount_eq, paid_eq, plan_eq, phase_eq⟩, gone_eq⟩ := h
  refine ⟨running_eq, start_eq, fun ⟨⟨unsold, sold, asking, idle, credit⟩, ⟨settled, coin, planned⟩, paying⟩ => ⟨?_, .of_eq ?_⟩⟩
  · refine ⟨⟨?_, ?_, ?_, ?_, ?_⟩, ⟨?_, ?_, ?_⟩, ?_⟩ <;>
      simpa only [credit_eq, escrow_eq, txn_eq, offer_eq, state_eq, amount_eq, paid_eq, plan_eq, phase_eq]
  · simp only [moneyTotal, Station.held, credit_eq, escrow_eq, amount_eq, paid_eq, gone_eq]

theorem Moves.refl (s : Station) : Moves s s := .plain rfl

theorem Moves.foldl {α : Type} {f : Station → α → Station} (h : ∀ s a, Moves s (f s a)) (l : List α) (s : Station) :
    Moves s (l.foldl f s) := by
  induction l generalizing s with
  | nil => exact .refl s
  | cons a rest ih => exact (h s a).trans (ih _)

/-- An operation that keeps the settings, the credit, the payout and the counters, by the frame that it has. -/
theorem Moves.of_kept {l : List Region} (h : Kept l s t) (k : Steady s t)
    (hl : ∀ r ∈ [Region.setup, .txn, .payout, .counters], r ∉ l) : Moves s t := by
  have start_eq : t.start = s.start := congrArg Prod.fst (h .setup (hl _ (by decide)))
  have txn_eq : t.txn = s.txn := h .txn (hl _ (by decide))
  have payout_eq : t.payout = s.payout := h .payout (hl _ (by decide))
  have owned_eq : t.audit.owned = s.audit.owned := h .counters (hl _ (by decide))
  have gone_eq : t.gone = s.gone := by
    change t.audit.owned.salesValue + t.audit.owned.payoutValue + t.audit.owned.forfeitedValue = s.gone
    rw [owned_eq]
    rfl
  obtain ⟨-, -, -, running_eq, -⟩ := k.fields
  exact .plain (by simp only [ledger, start_eq, running_eq, txn_eq, payout_eq, gone_eq])

/-- An operation that may touch the money, by its frame and by what it does to lawful records. -/
theorem Moves.of_settles {l : List Region} (h : Kept l s t) (k : Steady s t) (hl : Region.setup ∉ l)
    (settles : MoneyRecords s → Settles s t) : Moves s t := by
  obtain ⟨-, -, -, running_eq, -⟩ := k.fields
  exact ⟨running_eq, congrArg Prod.fst (h .setup hl), settles⟩

end Records

section Quiet

variable (s : Station)

/-! ### Shared operations that move no money -/

theorem hand_moves (dst : Nat) (body : FrameBody) : Moves s (s.hand dst body) :=
  .of_kept (hand_kept s dst body) (hand_steady s dst body) (by decide)

theorem request_moves (cls : LoadClass) (power : Fig) : Moves s (s.request cls power) :=
  .of_kept (request_kept s cls power) (request_steady s cls power) (by decide)

theorem releaseSlot_moves (cls : LoadClass) : Moves s (s.releaseSlot cls) :=
  .of_kept (releaseSlot_kept s cls) (releaseSlot_steady s cls) (by decide)

theorem withdrawRequest_moves (cls : LoadClass) : Moves s (s.withdrawRequest cls) := .plain rfl

theorem raise_moves (n : Notice) : Moves s (s.raise n) := .of_kept (raise_kept s n) (raise_steady s n) (by decide)

theorem setTube_moves (tube : Nat) (f : Tube → Tube) : Moves s (s.setTube tube f) := by
  unfold Station.setTube
  exact .ite (.plain rfl) (.plain rfl)

theorem setSpiral_moves (position : Nat) (f : Spiral → Spiral) : Moves s (s.setSpiral position f) := by
  unfold Station.setSpiral
  exact .ite (.plain rfl) (.plain rfl)

theorem applyNaming_moves (position : Nat) : Moves s (s.applyNaming position) := setSpiral_moves s position _

theorem showCustomer_moves (m : Message) (length : Nat) : Moves s (s.showCustomer m length) := by
  unfold Station.showCustomer
  exact .ite (.plain rfl) (.plain rfl)

theorem showService_moves (m : Message) : Moves s (s.showService m) := by
  unfold Station.showService
  exact .ite (.plain rfl) (.plain rfl)

theorem writeJournal_moves (e : JournalEntry) : Moves s (s.writeJournal e) := by
  unfold Station.writeJournal
  exact .ite (.plain rfl) (.plain rfl)

end Quiet

section Resting

variable {s : Station}

/-! ### Credit and the resting state (R110) -/

/-- No sale and no payout is held: all the customer's money is credit. -/
structure Unheld (s : Station) : Prop where
  escrow : s.txn.escrow = 0
  idle : s.payout.state = .idle
  payout : PayoutSound s.payout

theorem Unheld.of_records (h : MoneyRecords s) (unsold : s.txn.state ≠ .committed) (unpaid : s.txn.state ≠ .paying) : Unheld s :=
  ⟨h.txn.unsold unsold, h.paying.mpr unpaid, h.payout⟩

/-- The resting state follows the credit. -/
theorem restingState_cases (credit : Nat) :
    (restingState credit = .idle ∧ credit = 0) ∨ (restingState credit = .credit ∧ credit ≠ 0) := by
  unfold restingState
  split
  · exact .inl ⟨rfl, ‹_›⟩
  · exact .inr ⟨rfl, ‹_›⟩

theorem toResting_sound (escrow : s.txn.escrow = 0) : TxnSound s.toResting.txn ∧ s.toResting.txn.state ≠ .paying := by
  have state_eq : s.toResting.txn.state = restingState s.txn.credit := rfl
  have credit_eq : s.toResting.txn.credit = s.txn.credit := rfl
  rcases restingState_cases s.txn.credit with ⟨resting, nothing⟩ | ⟨resting, some_credit⟩ <;> rw [resting] at state_eq
  · exact ⟨⟨fun _ => escrow, by simp [state_eq], by simp [state_eq], fun _ => nothing, by simp [state_eq]⟩, by simp [state_eq]⟩
  · exact ⟨⟨fun _ => escrow, by simp [state_eq], by simp [state_eq], by simp [state_eq], fun _ => some_credit⟩, by simp [state_eq]⟩

theorem Unheld.toResting (h : Unheld s) : Settles s s.toResting := by
  obtain ⟨sound, unpaid⟩ := toResting_sound h.escrow
  exact ⟨⟨sound, h.payout, fun _ => unpaid, fun _ => h.idle⟩, .of_eq rfl⟩

/-- R110: what an addition to credit leaves out of the credit is forfeited. -/
theorem addCredit_total (n : Nat) (small : moneyTotal s + n ≤ max32) : moneyTotal (s.addCredit n) = moneyTotal s + n := by
  have forfeited : rise32 s.audit.forfeitedValue (beyondCredit (s.txn.credit + n)) =
      s.audit.forfeitedValue + beyondCredit (s.txn.credit + n) := by
    refine rise32_of_small ?_
    simp only [moneyTotal, Station.held, Station.gone, beyondCredit] at small ⊢
    omega
  simp only [moneyTotal, Station.held, Station.gone, Station.addCredit, forfeited]
  simp only [beyondCredit]
  omega

/-- R110: an addition to credit leaves lawful records lawful. -/
theorem addCredit_records (h : MoneyRecords s) (n : Nat) : MoneyRecords (s.addCredit n) := by
  obtain ⟨⟨unsold, sold, asking, idle, credit⟩, payout, paying⟩ := h
  by_cases entered : n ≠ 0 ∧ s.txn.state = .idle
  · have state_eq : (s.addCredit n).txn.state = .credit := by simp [Station.addCredit, entered]
    have unsold' := unsold (by simp [entered.2])
    refine ⟨⟨fun _ => unsold', by simp [state_eq], by simp [state_eq], by simp [state_eq], fun _ => ?_⟩, payout, ?_⟩
    · simp only [Station.addCredit, maxCredit]
      omega
    · rw [state_eq]
      exact paying.trans (by simp [entered.2])
  · have state_eq : (s.addCredit n).txn.state = s.txn.state := by
      simp only [Station.addCredit]
      split
      · rename_i both
        exact absurd (by simpa using both) entered
      · rfl
    refine ⟨⟨?_, ?_, ?_, ?_, ?_⟩, payout, ?_⟩ <;> rw [state_eq]
    · exact unsold
    · exact sold
    · exact asking
    · intro resting
      have nothing : n = 0 := Classical.byContradiction fun some_coin => entered ⟨some_coin, resting⟩
      simp [Station.addCredit, nothing, idle resting]
    · intro resting
      have some_credit := credit resting
      simp only [Station.addCredit, maxCredit]
      omega
    · exact paying

end Resting

section Payouts

variable {s : Station}

/-! ### A payout held (R93 to R105) -/

/-- A payout runs, planned and paid within its amount. -/
structure PayingOut (s : Station) : Prop where
  state : s.txn.state = .paying
  escrow : s.txn.escrow = 0
  running : s.payout.state = .running
  planned : s.payout.paid + planTotal s.payout.plan ≤ s.payout.amount

/-- A payout held in a lawful station. -/
theorem PayingOut.of_running (h : MoneyRecords s) (running : s.payout.state = .running) : PayingOut s := by
  have paying : s.txn.state = .paying := by
    by_contra unpaid
    rw [h.paying.mpr unpaid] at running
    cases running
  exact ⟨paying, h.txn.unsold (by simp [paying]), running, h.payout.planned⟩

/-- A credit record in PAYING is lawful with no escrow. -/
theorem txnSound_of_paying {x : Txn} (state : x.state = .paying) (escrow : x.escrow = 0) : TxnSound x :=
  ⟨fun _ => escrow, by simp [state], by simp [state], by simp [state], by simp [state]⟩

/-- A payout that is not IDLE goes on in PAYING, its amount and what is paid of it as they were. -/
theorem PayingOut.goesOn {t : Station} (h : PayingOut s) (txn : t.txn = s.txn) (gone : t.gone = s.gone)
    (amount : t.payout.amount = s.payout.amount) (paid : t.payout.paid = s.payout.paid) (held : t.payout.state ≠ .idle)
    (coin : t.payout.phase ≠ .none → t.payout.state = .running)
    (planned : t.payout.paid + planTotal t.payout.plan ≤ t.payout.amount) : Settles s t := by
  refine ⟨⟨txn ▸ txnSound_of_paying h.state h.escrow, ⟨fun idle => absurd idle held, coin, planned⟩, ?_⟩, .of_eq ?_⟩
  · rw [txn]
    exact ⟨fun idle => absurd idle held, fun unpaid => absurd h.state unpaid⟩
  · simp only [moneyTotal, Station.held, txn, gone, amount, paid]

theorem PayingOut.stops (h : PayingOut s) : Settles s s.stopPayout :=
  h.goesOn rfl rfl rfl rfl (fun idle => by cases idle) (fun coin => absurd rfl coin) h.planned

/-- What the beginning of a coin leaves of the payout and of the money gone. -/
theorem nextCoin_ledger (s : Station) :
    s.nextCoin.gone = s.gone ∧ s.nextCoin.payout.amount = s.payout.amount ∧ s.nextCoin.payout.paid = s.payout.paid ∧
      s.nextCoin.payout.state = s.payout.state ∧ s.nextCoin.payout.plan = s.payout.plan := by
  unfold Station.nextCoin Station.beginCoin
  split
  · split <;> exact ⟨rfl, rfl, rfl, rfl, rfl⟩
  · exact ⟨rfl, rfl, rfl, rfl, rfl⟩

theorem PayingOut.nextCoin (h : PayingOut s) : Settles s s.nextCoin := by
  obtain ⟨gone_eq, amount_eq, paid_eq, state_eq, plan_eq⟩ := nextCoin_ledger s
  refine h.goesOn (nextCoin_txn s) gone_eq amount_eq paid_eq ?_ (fun _ => state_eq.trans h.running) ?_
  · rw [state_eq, h.running]
    intro idle
    cases idle
  · rw [amount_eq, paid_eq, plan_eq]
    exact h.planned

/-- R101, R122: the end of a payout: what is left of it goes to credit. -/
theorem endPayout_settles (escrow : s.txn.escrow = 0) : Settles s s.endPayout := by
  have remainder_handed : ∀ t : Station, t.txn.escrow = 0 → t.payout.state = .idle → PayoutSound t.payout → ∀ n,
      MoneyRecords (t.payoutDone n) ∧ Balanced n t (t.payoutDone n) := by
    intro t escrow idle sound n
    have credited : Balanced n t (t.addCredit n) := addCredit_total n
    have rested := Unheld.toResting (s := t.addCredit n) ⟨escrow, idle, sound⟩
    have done : Moves (t.addCredit n).toResting (t.payoutDone n) := by
      unfold Station.payoutDone
      refine .ite (.refl _) (.trans ?_ (raise_moves _ _))
      exact .plain rfl
    have settled := (done.money rested.1).after rested.2
    exact ⟨settled.1, credited.trans settled.2⟩
  obtain ⟨lawful, balanced⟩ := remainder_handed
    { s with payout := { Payout.blank with pulseOn := s.payout.pulseOn, pulseTimer := s.payout.pulseTimer } }
    escrow rfl ⟨fun _ => rfl, fun coin => absurd rfl coin, Nat.le_refl 0⟩ (s.payout.amount - s.payout.paid)
  refine ⟨lawful, fun small => ?_⟩
  have emptied : ∀ p : Payout, p.amount - p.paid = 0 → moneyTotal { s with payout := p } + (s.payout.amount - s.payout.paid) =
      moneyTotal s := by
    intro p nothing
    simp only [moneyTotal, Station.held, Station.gone, nothing]
    omega
  exact (balanced (by rw [emptied _ rfl]; exact small)).trans (emptied _ rfl)

theorem PayingOut.ends (h : PayingOut s) : Settles s s.endPayout := endPayout_settles h.escrow

/-- R95: the current tube taken for a run leaves the payout running. -/
theorem PayingOut.beginRun (h : PayingOut s) : PayingOut s.beginRun ∧ Balanced 0 s s.beginRun := by
  unfold Station.beginRun
  split <;> exact ⟨⟨h.state, h.escrow, h.running, h.planned⟩, .of_eq rfl⟩

/-- R80, R104: a new plan is for what is unpaid. -/
theorem PayingOut.takePlan (h : PayingOut s) : PayingOut s.takePlan ∧ Balanced 0 s s.takePlan := by
  have within : s.payout.paid + planTotal (payoutPlan s.coin.tubes (s.payout.amount - s.payout.paid)) ≤ s.payout.amount := by
    have unpaid := planTotal_payoutPlan_le s.coin.tubes (s.payout.amount - s.payout.paid)
    have planned := h.planned
    omega
  obtain ⟨begun, balanced⟩ := PayingOut.beginRun (s := { s with payout := { s.payout with
    plan := payoutPlan s.coin.tubes (s.payout.amount - s.payout.paid), attempt := 1, phase := .none } })
    ⟨h.state, h.escrow, h.running, within⟩
  exact ⟨begun, .trans (.of_eq rfl) balanced⟩

/-- An operation on nothing that a payout rests on leaves it running. -/
theorem PayingOut.of_ledger {t : Station} (h : PayingOut s) (same : ledger t = ledger s) : PayingOut t ∧ Balanced 0 s t := by
  obtain ⟨state, escrow, running, planned⟩ := h
  simp only [ledger, Prod.mk.injEq] at same
  obtain ⟨-, ⟨credit_eq, escrow_eq, txn_eq, -⟩, ⟨state_eq, amount_eq, paid_eq, plan_eq, -⟩, gone_eq⟩ := same
  refine ⟨⟨txn_eq.trans state, escrow_eq.trans escrow, state_eq.trans running, by rwa [paid_eq, plan_eq, amount_eq]⟩, .of_eq ?_⟩
  simp only [moneyTotal, Station.held, credit_eq, escrow_eq, amount_eq, paid_eq, gone_eq]

/-- R94, R122: a return of all credit. -/
theorem Unheld.returnAll (h : Unheld s) : Settles s s.returnAll := by
  unfold Station.returnAll
  split
  · exact h.toResting
  · rw [returnPayout_eq, startPayout_of_idle (show (creditHanded s).payout.state = .idle from h.idle)]
    have handed : Balanced 0 s { creditHanded s with payout := plannedPayout (creditHanded s) s.txn.credit } := by
      have nothing : s.payout.amount - s.payout.paid = 0 := by rw [h.payout.settled h.idle, Nat.sub_self]
      refine .of_eq ?_
      simp only [moneyTotal, Station.held, Station.gone, nothing, creditHanded, plannedPayout, Payout.blank]
      omega
    have paying : PayingOut { creditHanded s with payout := plannedPayout (creditHanded s) s.txn.credit } := by
      refine ⟨rfl, h.escrow, rfl, ?_⟩
      simpa [plannedPayout, Payout.blank] using planTotal_payoutPlan_le (creditHanded s).coin.tubes s.txn.credit
    split
    · exact paying.ends.after handed
    · split
      · exact paying.stops.after handed
      · exact paying.nextCoin.after handed

end Payouts

section Coins

variable {s : Station}

/-! ### Coins paid out (R96 to R104) -/

/-- R97: a coin of the current run less in the plan. -/
theorem planTotal_payRun {plan : List PlanEntry} {run : PlanEntry} (h : currentRun plan = some run) :
    planTotal (payRun plan) + run.denomination = planTotal plan := by
  induction plan with
  | nil => cases h
  | cons e rest ih =>
    unfold currentRun at h ih
    unfold payRun at ih ⊢
    by_cases coins : e.count = 0
    · rw [List.find?_cons_of_neg (by simp [coins])] at h
      rw [updateFirst, if_neg (by simp [coins]), planTotal_cons, planTotal_cons, ← ih h]
      omega
    · rw [List.find?_cons_of_pos (by simp [coins])] at h
      cases h
      rw [updateFirst, if_pos (by simp [coins]), planTotal_cons, planTotal_cons]
      obtain ⟨k, count_eq⟩ := Nat.exists_eq_succ_of_ne_zero coins
      simp only [count_eq, Nat.succ_eq_add_one, Nat.add_sub_cancel, Nat.mul_add, Nat.mul_one]
      omega

theorem takeCoinFrom_payout (s : Station) (tube : Nat) : (s.takeCoinFrom tube).payout = s.payout :=
  takeCoinFrom_kept s tube .payout (by decide)

theorem takeCoinFrom_txn (s : Station) (tube : Nat) : (s.takeCoinFrom tube).txn = s.txn :=
  takeCoinFrom_kept s tube .txn (by decide)

/-- The money that has left is not that of the counters of the coin unit. -/
theorem takeCoinFrom_gone (s : Station) (tube : Nat) : (s.takeCoinFrom tube).gone = s.gone := by
  unfold Station.takeCoinFrom
  split
  · rfl
  · simp [Station.gone]

theorem writeJournal_ledger (s : Station) (e : JournalEntry) : ledger (s.writeJournal e) = ledger s := by
  unfold Station.writeJournal
  split <;> rfl

/-- R97: a coin confirmed goes from the payout to the coins paid out. -/
theorem PayingOut.confirmCoin (h : PayingOut s) (tube : Nat) {run : PlanEntry} (current : currentRun s.payout.plan = some run) :
    PayingOut (s.confirmCoin tube run.denomination) ∧ Balanced 0 s (s.confirmCoin tube run.denomination) := by
  have one_less := planTotal_payRun current
  obtain ⟨state, escrow, running, planned⟩ := h
  generalize one : { s with payout := { s.payout with phase := .none, attempt := 1 } } = s1
  have txn_eq : (s1.takeCoinFrom tube).txn = s.txn := (takeCoinFrom_txn s1 tube).trans (by rw [← one])
  have payout_eq : (s1.takeCoinFrom tube).payout = { s.payout with phase := .none, attempt := 1 } :=
    (takeCoinFrom_payout s1 tube).trans (by rw [← one])
  have gone_eq : (s1.takeCoinFrom tube).gone = s.gone := (takeCoinFrom_gone s1 tube).trans (by rw [← one]; rfl)
  unfold Station.confirmCoin
  simp only [one]
  generalize two : s1.takeCoinFrom tube = s2 at txn_eq payout_eq gone_eq
  generalize booked : Station.writeJournal _ _ = s4
  have journal := (congrArg ledger booked.symm).trans (writeJournal_ledger _ _)
  simp only [ledger, Prod.mk.injEq, txn_eq, payout_eq] at journal
  obtain ⟨-, ⟨credit4, escrow4, txn4, -⟩, ⟨state4, amount4, paid4, plan4, -⟩, gone4⟩ := journal
  have gone4 : s4.gone = s.gone := gone4.trans gone_eq
  refine ⟨⟨txn4.trans state, escrow4.trans escrow, state4.trans running, ?_⟩, fun small => ?_⟩
  · rw [paid4, plan4, amount4]
    omega
  · have paid_out : rise32 s4.audit.payoutValue run.denomination = s4.audit.payoutValue + run.denomination := by
      refine rise32_of_small ?_
      simp only [moneyTotal, Station.held, Station.gone] at small gone4
      omega
    simp only [moneyTotal, Station.held, Station.gone, credit4, escrow4, amount4, paid4, paid_out] at gone4 ⊢
    omega

/-- R95, R97, R101, R102: what follows a confirmation. -/
theorem PayingOut.afterConfirm (h : PayingOut s) (runEnded : Bool) : Settles s (s.afterConfirm runEnded) := by
  unfold Station.afterConfirm
  split
  · exact h.ends
  · dsimp only
    have begun : ∃ t, (if runEnded = true then s.beginRun else s) = t ∧ PayingOut t ∧ Balanced 0 s t := by
      split
      · exact ⟨_, rfl, h.beginRun⟩
      · exact ⟨_, rfl, h, .of_eq rfl⟩
    obtain ⟨t, begun_eq, paying, balanced⟩ := begun
    rw [begun_eq]
    split
    · exact paying.stops.after balanced
    · exact paying.nextCoin.after balanced

theorem coutEdge_moves (s : Station) : Moves s s.coutEdge := by
  refine .of_settles (coutEdge_kept s) (coutEdge_steady s) (by decide) fun lawful => ?_
  unfold Station.coutEdge
  split
  · rename_i pulse current _
    obtain ⟨paying, balanced⟩ := (PayingOut.of_running lawful (lawful.payout.coin (by simp [pulse]))).confirmCoin _ current
    exact (paying.afterConfirm _).after balanced
  · exact (Moves.refl s).money lawful

/-- R100: a tube fault and the plan made anew. -/
theorem PayingOut.tubeFault (h : PayingOut s) (tube : Nat) : Settles s (s.tubeFault tube) := by
  generalize faulted : (s.setTube tube fun t => { t with status := .payoutFault }).raise (.tube tube) = f
  have ledger_eq : ledger f = ledger s := by
    obtain ⟨a, p, d, raised⟩ := raise_shape (s.setTube tube fun t => { t with status := .payoutFault }) (.tube tube)
    rw [← faulted, raised]
    unfold Station.setTube
    split <;> rfl
  obtain ⟨paying, unchanged⟩ := h.of_ledger ledger_eq
  obtain ⟨replanned, planned⟩ := paying.takePlan
  have balanced := unchanged.trans planned
  unfold Station.tubeFault
  simp only [faulted]
  split
  · exact replanned.ends.after balanced
  · split
    · exact replanned.stops.after balanced
    · refine Settles.after (replanned.goesOn rfl rfl rfl rfl ?_ (fun _ => replanned.running) replanned.planned) balanced
      exact fun idle => PayoutState.noConfusion (idle.symm.trans replanned.running)

/-- R99, R100, R102: a miss of the coin in progress. -/
theorem missCoin_settles (lawful : MoneyRecords s) (running : s.payout.state = .running) : Settles s s.missCoin := by
  have paying : PayingOut { s with payout := { s.payout with pulseOn := none } } :=
    have held := PayingOut.of_running lawful running
    ⟨held.state, held.escrow, held.running, held.planned⟩
  have same : Balanced 0 s { s with payout := { s.payout with pulseOn := none } } := .of_eq rfl
  unfold Station.missCoin
  split
  · exact (Moves.refl s).money lawful
  · dsimp only
    split
    · exact (paying.tubeFault _).after same
    · split
      · exact paying.stops.after same
      · refine Settles.after (paying.goesOn rfl rfl rfl rfl ?_ (fun _ => paying.running) paying.planned) same
        exact fun idle => PayoutState.noConfusion (idle.symm.trans paying.running)

/-- R96: the pulse of a payout that runs may let the next coin begin. -/
theorem pulseEnds_moves (s : Station) : Moves s s.pulseEnds := by
  refine .of_settles (pulseEnds_kept s) (pulseEnds_steady s) (by decide) fun lawful => ?_
  have ended : Settles s { s with payout := { s.payout with pulseOn := none } } := Moves.money (.plain rfl) lawful
  unfold Station.pulseEnds
  dsimp only
  split
  · rename_i waits
    simp only [Bool.and_eq_true, decide_eq_true_eq] at waits
    exact Settles.after (PayingOut.of_running ended.1 waits.1).nextCoin ended.2
  · exact ended

/-- R102: the door opens. -/
theorem payoutDoorOpens_moves (s : Station) : Moves s s.payoutDoorOpens := by
  refine .of_settles (payoutDoorOpens_kept s) (payoutDoorOpens_steady s) (by decide) fun lawful => ?_
  unfold Station.payoutDoorOpens
  split
  · rename_i running
    have opened : Settles s { s with payout := { s.payout with stop := .door, tubesChanged := false } } :=
      Moves.money (.plain rfl) lawful
    dsimp only
    split
    · exact opened
    · exact (PayingOut.of_running opened.1 running).stops.after opened.2
  · exact (Moves.refl s).money lawful

/-- R104: the door closes. -/
theorem payoutDoorCloses_moves (s : Station) : Moves s s.payoutDoorCloses := by
  refine .of_settles (payoutDoorCloses_kept s) (payoutDoorCloses_steady s) (by decide) fun lawful => ?_
  unfold Station.payoutDoorCloses
  dsimp only
  split
  · rename_i stopped
    have paying : s.txn.state = .paying := by
      by_contra unpaid
      rw [lawful.paying.mpr unpaid] at stopped
      cases stopped
    have resumed : PayingOut { s with payout := { s.payout with stop := .none, state := .running } } :=
      ⟨paying, lawful.txn.unsold (by simp [paying]), rfl, lawful.payout.planned⟩
    have same : Balanced 0 s { s with payout := { s.payout with stop := .none, state := .running } } := .of_eq rfl
    split
    · obtain ⟨replanned, planned⟩ := resumed.takePlan
      split
      · exact replanned.ends.after (same.trans planned)
      · exact replanned.nextCoin.after (same.trans planned)
    · exact resumed.nextCoin.after same
  · exact Moves.money (.plain rfl) lawful

theorem noteTubesChanged_moves (s : Station) : Moves s s.noteTubesChanged := by
  unfold Station.noteTubesChanged
  exact .ite (.plain rfl) (.plain rfl)

end Coins

section Sales

variable {s : Station}

/-! ### Sales (R113 to R122) -/

/-- R117: the escrow is credit again. -/
theorem escrowBack_balanced (s : Station) : Balanced 0 s s.escrowBack := by
  intro small
  have credited := fun within => addCredit_total (s := { s with txn := { s.txn with escrow := 0 } }) s.txn.escrow within
  have emptied : moneyTotal { s with txn := { s.txn with escrow := 0 } } + s.txn.escrow = moneyTotal s := by
    simp only [moneyTotal, Station.held, Station.gone]
    omega
  exact (credited (by rw [emptied]; exact small)).trans emptied

/-- The payout beside a sale that is bound is IDLE. -/
theorem escrowBack_unheld (lawful : MoneyRecords s) (committed : s.txn.state = .committed) : Unheld s.escrowBack :=
  ⟨rfl, lawful.paying.mpr (by simp [committed]), lawful.payout⟩

theorem bookSale_unheld (lawful : MoneyRecords s) (committed : s.txn.state = .committed) (fromPeer : Bool) (drops : Nat) :
    Unheld (s.bookSale fromPeer drops) :=
  ⟨rfl, lawful.paying.mpr (by simp [committed]), lawful.payout⟩

/-- R117: the price of a sale taken is the value of sales. -/
theorem bookSale_balanced (s : Station) (fromPeer : Bool) (drops : Nat) : Balanced 0 s (s.bookSale fromPeer drops) := by
  intro small
  have taken : rise32 s.audit.salesValue s.txn.escrow = s.audit.salesValue + s.txn.escrow := by
    refine rise32_of_small ?_
    simp only [moneyTotal, Station.held, Station.gone] at small
    omega
  simp only [moneyTotal, Station.held, Station.gone, Station.bookSale, taken]
  omega

theorem Unheld.afterFailedSale (h : Unheld s) : Settles s s.afterFailedSale := by
  unfold Station.afterFailedSale
  split
  · exact h.returnAll
  · exact h.toResting

theorem Unheld.of_ledger {t : Station} (h : Unheld s) (same : ledger t = ledger s) : Unheld t := by
  obtain ⟨escrow, idle, ⟨settled, coin, planned⟩⟩ := h
  simp only [ledger, Prod.mk.injEq] at same
  obtain ⟨-, ⟨-, escrow_eq, -, -⟩, ⟨state_eq, amount_eq, paid_eq, plan_eq, phase_eq⟩, -⟩ := same
  refine ⟨escrow_eq.trans escrow, state_eq.trans idle, ⟨?_, ?_, ?_⟩⟩ <;>
    simpa only [state_eq, amount_eq, paid_eq, plan_eq, phase_eq]

/-- What leaves the ledger leaves the money. -/
theorem Balanced.of_ledger {t : Station} (same : ledger t = ledger s) : Balanced 0 s t := by
  simp only [ledger, Prod.mk.injEq] at same
  obtain ⟨-, ⟨credit_eq, escrow_eq, -, -⟩, ⟨-, amount_eq, paid_eq, -, -⟩, gone_eq⟩ := same
  exact .of_eq (by simp only [moneyTotal, Station.held, credit_eq, escrow_eq, amount_eq, paid_eq, gone_eq])

theorem showCustomer_ledger (s : Station) (m : Message) (length : Nat) : ledger (s.showCustomer m length) = ledger s := by
  unfold Station.showCustomer
  split <;> rfl

/-- R117, R118: a bound sale that is not delivered. -/
theorem failSale_settles (lawful : MoneyRecords s) (committed : s.txn.state = .committed) (m : Option Message) :
    Settles s (s.failSale m) := by
  have shown : ledger (escrowShown s m) = ledger s.escrowBack := by
    cases m with
    | none => rfl
    | some m => exact showCustomer_ledger _ _ _
  rw [failSale_eq]
  exact ((escrowBack_unheld lawful committed).of_ledger shown).afterFailedSale.after
    ((escrowBack_balanced s).trans (.of_ledger shown))

theorem takeSale_settles (lawful : MoneyRecords s) (committed : s.txn.state = .committed) (fromPeer : Bool) (drops : Nat) :
    Settles s (s.takeSale fromPeer drops) := by
  have unheld := bookSale_unheld lawful committed fromPeer drops
  unfold Station.takeSale
  dsimp only
  split
  · exact unheld.returnAll.after (bookSale_balanced s _ _)
  · exact unheld.toResting.after (bookSale_balanced s _ _)

theorem takeResult_moves (s : Station) (sender : Payer) (tag : Nat) (o : Outcome) (drops : Nat) :
    Moves s (s.takeResult sender tag o drops) := by
  refine .of_settles (takeResult_kept s _ _ _ _) (takeResult_steady s _ _ _ _) (by decide) fun lawful => ?_
  unfold Station.takeResult
  split
  · rename_i current
    simp only [Bool.and_eq_true, decide_eq_true_eq] at current
    split
    · exact takeSale_settles lawful current.2 _ _
    · exact failSale_settles lawful current.2 _
  · exact Moves.money (.plain rfl) lawful

/-- R115, R116: an offer that is still asked for is dropped. -/
theorem asking_toResting (lawful : MoneyRecords s) (asking : s.txn.state = .asking) : Settles s s.toResting :=
  (Unheld.of_records lawful (by simp [asking]) (by simp [asking])).toResting

theorem takeRefuse_moves (s : Station) (sender : Payer) (tag : Nat) (r : Reason) : Moves s (s.takeRefuse sender tag r) := by
  refine .of_settles (takeRefuse_kept s _ _ _) (takeRefuse_steady s _ _ _) (by decide) fun lawful => ?_
  unfold Station.takeRefuse
  split
  · split
    · rename_i asking
      have shown := (showCustomer_moves s (reasonMessage r) Config.messageTime).money lawful
      have asking_still : (s.showCustomer (reasonMessage r) Config.messageTime).txn.state = .asking := by
        rw [showCustomer_kept s _ _ .txn (by decide)]
        exact asking
      exact (asking_toResting shown.1 asking_still).after shown.2
    · split
      · exact failSale_settles lawful ‹_› _
      · exact (Moves.refl s).money lawful
  · exact (Moves.refl s).money lawful

theorem giveUpSale_settles (lawful : MoneyRecords s) (committed : s.txn.state = .committed) : Settles s s.giveUpSale := by
  generalize doubted : { s.escrowBack with audit := { s.escrowBack.audit with
    inDoubt := rise32 s.escrowBack.audit.inDoubt 1 } } = d
  have same : ledger (d.showCustomer .noAnswer Config.messageTime) = ledger s.escrowBack :=
    (showCustomer_ledger _ _ _).trans (by rw [← doubted]; rfl)
  unfold Station.giveUpSale
  simp only [doubted]
  exact ((escrowBack_unheld lawful committed).of_ledger same).afterFailedSale.after
    ((escrowBack_balanced s).trans (.of_ledger same))

end Sales

end Sys2Proof.Proofs

/-! SUPPORT. The operations of the blocks and the law of the money, for O60: each leaves lawful records lawful and the sum of the
money as it was (`Moves`), those of a sale and an offer by what they do to escrow and credit, the others because they touch
neither. -/

namespace Sys2Proof.Proofs

open Sys2Proof.Machine Sys2Proof.Laws

section Vending

variable (s : Station)

/-! ### The vend queue (02) -/

theorem queueOffer_moves (payer : Payer) (tag tray column : Nat) : Moves s (s.queueOffer payer tag tray column).1 :=
  .of_kept (queueOffer_kept s _ _ _ _) (queueOffer_steady s _ _ _ _) (by decide)

theorem energise_moves : Moves s s.energise := .of_kept (energise_kept s) (energise_steady s) (by decide)

theorem pick_moves : Moves s s.pick := .of_kept (pick_kept s) (pick_steady s) (by decide)

theorem queueCommit_moves (payer : Payer) (tag price : Nat) : Moves s (s.queueCommit payer tag price).1 :=
  .of_kept (queueCommit_kept s _ _ _) (queueCommit_steady s _ _ _) (by decide)

theorem addTestEntry_moves (position : Nat) : Moves s (s.addTestEntry position) :=
  .of_kept (addTestEntry_kept s _) (addTestEntry_steady s _) (by decide)

theorem answerResult_moves (e : Entry) (o : Outcome) (drops : Nat) : Moves s (s.answerResult e o drops) := by
  unfold Station.answerResult
  split
  · exact takeResult_moves s _ _ _ _
  · exact hand_moves s _ _
  · exact .refl s

theorem answerRefuse_moves (e : Entry) (r : Reason) : Moves s (s.answerRefuse e r) := by
  unfold Station.answerRefuse
  split
  · exact takeRefuse_moves s _ _ _
  · exact hand_moves s _ _
  · exact .refl s

theorem answerRemoved_moves (r : Reason) (o : Outcome) (e : Entry) : Moves s (Station.answerRemoved r o s e) := by
  unfold Station.answerRemoved
  cases e.state with
  | awaitCommit => exact answerRefuse_moves s e r
  | committed => exact answerResult_moves s e o 0
  | vending => exact .refl s

theorem removeEntries_moves (p : Entry → Bool) (r : Reason) (o : Outcome) : Moves s (s.removeEntries p r o) :=
  .trans (t := { s with queue := s.queue.filter fun e => !p e }) (.plain rfl)
    (.foldl (fun t e => answerRemoved_moves t r o e) _ _)

theorem removeForSpiral_moves (position : Nat) : Moves s (s.removeForSpiral position) := by
  unfold Station.removeForSpiral
  exact .ite (removeEntries_moves s _ _ _) (removeEntries_moves s _ _ _)

/-! ### The drive sequencer (03) -/

theorem recordOutcome_moves (o : Outcome) (drops position : Nat) (test : Bool) :
    Moves s (s.recordOutcome o drops position test) := by
  unfold Station.recordOutcome
  refine .trans ?_ (.ite (raise_moves _ _) (.refl _))
  refine .trans (setSpiral_moves s position (outcomeRecord o drops)) ?_
  exact .plain rfl

theorem recordVendEnd_moves (v : Vend) (o : Outcome) : Moves s (s.recordVendEnd v o) := by
  have counted : Moves s (s.countOutcome o v.drops) := .plain rfl
  have noticed := Moves.of_kept (noticeOutcome_kept (s.countOutcome o v.drops) o v.entry.position)
    (noticeOutcome_steady _ _ _) (by decide)
  exact (counted.trans noticed).trans (recordOutcome_moves _ _ _ _ _)

theorem answerVend_moves (v : Vend) (o : Outcome) : Moves s (s.answerVend v o) := by
  unfold Station.answerVend
  exact .ite (showService_moves s _) (answerResult_moves s _ _ _)

theorem finishVend_moves (v : Vend) (o : Outcome) : Moves s (s.finishVend v o) := by
  have dropped : Moves (s.recordVendEnd v o) (s.recordVendEnd v o).dropVending := .plain rfl
  unfold Station.finishVend
  dsimp only
  refine .trans (.trans ?_ (.ite (removeForSpiral_moves _ _) (.refl _))) (applyNaming_moves _ _)
  exact ((recordVendEnd_moves s v o).trans dropped).trans (answerVend_moves _ _ _)

theorem settleClaim_moves : Moves s s.settleClaim := .of_kept (settleClaim_kept s) (settleClaim_steady s) (by decide)

theorem endVend_moves (o : Outcome) : Moves s (s.endVend o) := by
  unfold Station.endVend
  split
  · exact .refl s
  · exact ((finishVend_moves s _ _).trans (pick_moves _)).trans (settleClaim_moves _)

theorem countDrop_moves (v : Vend) : Moves s (s.countDrop v) :=
  .of_kept (countDrop_kept s v) (countDrop_steady s v) (by decide)

theorem chuteActivity_moves : Moves s s.chuteActivity := by
  have counted : ∀ (c : Chute) (n : Nat), Moves s { s with chute := c, audit := { s.audit with chuteActivity := n } } :=
    fun _ _ => .plain rfl
  exact counted _ _

theorem dropTaken_moves : Moves s s.dropTaken := by
  have counted : ∀ v : Vend, Moves s (if v.drops < 3 then s.countDrop v else s) := fun v =>
    .ite (countDrop_moves s v) (.refl s)
  unfold Station.dropTaken
  split
  · exact chuteActivity_moves s
  · split
    · exact chuteActivity_moves s
    · exact .ite ((countDrop_moves s _).trans (endVend_moves _ _)) (.refl s)
    all_goals exact counted _

theorem vend_moves (v : Option Vend) : Moves s { s with vend := v } := .plain rfl

theorem revolutionEnds_moves (v : Vend) : Moves s (s.revolutionEnds v) := by
  unfold Station.revolutionEnds
  exact .ite ((vend_moves s _).trans (endVend_moves _ _)) (vend_moves s _)

theorem jamTaken_moves (v : Vend) : Moves s (s.jamTaken v) := by
  unfold Station.jamTaken
  exact .ite (vend_moves s _) ((vend_moves s _).trans (endVend_moves _ _))

theorem windowEnds_moves (v : Vend) : Moves s (s.windowEnds v) := by
  unfold Station.windowEnds
  exact .ite (energise_moves s) (endVend_moves s _)

theorem setHome_moves (v : Vend) (isOpen : Bool) : Moves s (s.setHome v isOpen) := .plain rfl

theorem homeOpens_moves (v : Vend) : Moves s (s.homeOpens v) := by
  unfold Station.homeOpens
  exact .ite ((setHome_moves s v true).trans (vend_moves _ _)) (setHome_moves s v true)

theorem homeCloses_moves (v : Vend) : Moves s (s.homeCloses v) := by
  unfold Station.homeCloses
  exact .ite ((setHome_moves s v false).trans (revolutionEnds_moves _ _)) (setHome_moves s v false)

theorem beamBlocks_moves : Moves s s.beamBlocks := by
  have blocked : Moves s (s.setBeam true) := .plain rfl
  unfold Station.beamBlocks
  exact blocked.trans (.ite (dropTaken_moves _) (.refl _))

theorem chuteFaultBegins_moves : Moves s s.chuteFaultBegins := by
  have faulted : Moves s { s with chute := { s.chute with fault := true } } := .plain rfl
  unfold Station.chuteFaultBegins
  exact (faulted.trans (raise_moves _ _)).trans (.ite (removeEntries_moves _ _ _ _) (.refl _))

end Vending

section Transaction

variable (s : Station)

/-! ### Offers and accepts (R113, R114) -/

theorem withdrawFrom_moves (owner : Payer) (tag : Nat) : Moves s (s.withdrawFrom owner tag) :=
  .of_kept (withdrawFrom_kept s _ _) (withdrawFrom_steady s _ _) (by decide)

theorem commitTo_moves (owner : Payer) (tag price : Nat) : Moves s (s.commitTo owner tag price) := by
  unfold Station.commitTo
  split
  · have committed := queueCommit_moves s .loc tag price
    split <;> rename_i answered <;> rw [answered] at committed
    · exact committed.trans (takeRefuse_moves _ _ _ _)
    · exact committed
  · exact hand_moves s _ _

variable {s}

/-- R114: an accept that fails a check leaves the credit as it was. -/
theorem declineAccept_settles (lawful : MoneyRecords s) (asking : s.txn.state = .asking) (o : Offer) (m : Message)
    (length : Nat) : Settles s (s.declineAccept o m length) := by
  have withdrawn := ((showCustomer_moves s m length).trans (withdrawFrom_moves _ o.owner o.tag)).money lawful
  have kept : ((s.showCustomer m length).withdrawFrom o.owner o.tag).txn = s.txn :=
    (withdrawFrom_kept _ _ _ .txn (by decide)).trans (showCustomer_kept _ _ _ .txn (by decide))
  exact (asking_toResting withdrawn.1 (kept ▸ asking)).after withdrawn.2

/-- R114: the price of a sale that is bound goes from credit to escrow. -/
theorem bindSale_settles (lawful : MoneyRecords s) (asking : s.txn.state = .asking) (o : Offer) {price : Nat}
    (enough : price ≤ s.txn.credit) (queuePos : Nat) : Settles s (s.bindSale o price queuePos) := by
  have unsold := lawful.txn.unsold (by simp [asking])
  unfold Station.bindSale
  generalize bound : ({ s with txn := { s.txn with
    offer := some { o with quoted := some price }, escrow := price, credit := s.txn.credit - price, state := .committed,
    returnRequested := false, resultTimer := 0, shownPosition := queuePos } } : Station) = t
  have settled : Settles s t := by
    subst bound
    refine ⟨⟨⟨fun unbound => absurd rfl unbound, fun _ => ⟨_, rfl, rfl⟩, by simp, by simp, by simp⟩, lawful.payout,
      lawful.paying.trans (by simp [asking])⟩, .of_eq ?_⟩
    simp only [moneyTotal, Station.held, Station.gone, unsold]
    omega
  exact ((commitTo_moves t _ _ _).money settled.1).after settled.2

theorem acceptCurrent_settles (lawful : MoneyRecords s) (asking : s.txn.state = .asking) (o : Offer) (price queuePos : Nat) :
    Settles s (s.acceptCurrent o price queuePos) := by
  have declined := declineAccept_settles lawful asking o
  unfold Station.acceptCurrent
  split
  · exact declined _ _
  · rename_i enough
    split
    · exact declined _ _
    · split
      · exact declined _ _
      · exact bindSale_settles lawful asking o (Nat.le_of_not_lt enough) _

variable (s)

theorem takeAccept_moves (sender : Payer) (tag price queuePos : Nat) : Moves s (s.takeAccept sender tag price queuePos) := by
  refine .of_settles (takeAccept_kept s _ _ _ _) (takeAccept_steady s _ _ _ _) (by decide) fun lawful => ?_
  unfold Station.takeAccept
  split
  · split
    · split
      · exact acceptCurrent_settles lawful ‹_› _ _ _
      · exact (Moves.refl s).money lawful
    · exact (withdrawFrom_moves s _ _).money lawful
  · exact (withdrawFrom_moves s _ _).money lawful

theorem bufferOpen_iff : s.bufferOpen = true ↔ s.txn.state = .idle ∨ s.txn.state = .credit := by simp [Station.bufferOpen]

variable {s}

/-- In IDLE and CREDIT no sale and no payout is held. -/
theorem unheld_of_bufferOpen (lawful : MoneyRecords s) (free : s.bufferOpen = true) : Unheld s := by
  rcases (bufferOpen_iff s).mp free with state | state <;> exact .of_records lawful (by simp [state]) (by simp [state])

/-- R113: an offer made in IDLE or CREDIT leaves the credit as it was. -/
theorem recordOffer_settles (lawful : MoneyRecords s) (free : s.bufferOpen = true) (owner : Payer) (tray column : Nat) :
    Settles s (s.recordOffer owner tray column) := by
  have unheld := unheld_of_bufferOpen lawful free
  have asking : (s.recordOffer owner tray column).txn.state = .asking := rfl
  refine ⟨⟨⟨fun _ => unheld.escrow, by simp [asking], fun _ h => ?_, by simp [asking], by simp [asking]⟩, unheld.payout,
    fun _ => by simp [asking], fun _ => unheld.idle⟩, .of_eq rfl⟩
  cases h

theorem makeOffer_settles (lawful : MoneyRecords s) (free : s.bufferOpen = true) (letter tray column : Nat) :
    Settles s (s.makeOffer letter tray column) := by
  have recorded := fun owner => recordOffer_settles lawful free owner tray column
  have refused := (showCustomer_moves s .notAvail Config.messageTime).money lawful
  unfold Station.makeOffer
  split
  · exact refused
  · have offered := queueOffer_moves (s.recordOffer .loc tray column) .loc (s.recordOffer .loc tray column).txn.lastTag tray column
    unfold Station.offerLocal
    dsimp only
    split <;> rename_i answered <;> rw [answered] at offered
    · exact ((offered.trans (takeAccept_moves _ _ _ _ _)).money (recorded _).1).after (recorded _).2
    · exact ((offered.trans (takeRefuse_moves _ _ _ _)).money (recorded _).1).after (recorded _).2
  · split
    · exact ((hand_moves _ _ _).money (recorded _).1).after (recorded _).2
    · exact refused

/-- R112: a digit taken into the buffer of a station in IDLE or CREDIT. -/
theorem bufferDigit_moves (free : s.bufferOpen = true) (digit : Nat) : Moves s (s.bufferDigit digit) := by
  refine .of_settles (bufferDigit_kept s digit) (bufferDigit_steady s digit) (by decide) fun lawful => ?_
  have cleared : Settles s s.clearBuffer := Moves.money (.plain rfl) lawful
  have free' : s.clearBuffer.bufferOpen = true := free
  unfold Station.bufferDigit
  split
  · unfold Station.selection
    split
    · exact (makeOffer_settles cleared.1 free' _ _ _).after cleared.2
    · exact ((showCustomer_moves _ _ _).money cleared.1).after cleared.2
  · split
    · exact Moves.money (.plain rfl) lawful
    · exact ((showCustomer_moves _ _ _).money cleared.1).after cleared.2

variable (s)

/-! ### RET and the transaction's timers (R119, R121) -/

theorem returnKey_moves : Moves s s.returnKey := by
  refine .of_settles (returnKey_kept s) (returnKey_steady s) (by decide) fun lawful => ?_
  unfold Station.returnKey
  split
  · rename_i credit
    exact (Unheld.of_records lawful (by simp [credit]) (by simp [credit])).returnAll
  · rename_i o asking _
    have withdrawn := (withdrawFrom_moves s o.owner o.tag).money lawful
    have kept : (s.withdrawFrom o.owner o.tag).txn = s.txn := withdrawFrom_kept _ _ _ .txn (by decide)
    exact (Unheld.of_records withdrawn.1 (by simp [kept, asking]) (by simp [kept, asking])).returnAll.after withdrawn.2
  · exact Moves.money (.plain rfl) lawful
  · exact (Moves.refl s).money lawful

variable {s}

/-- R115: with no answer to an offer the credit stays. -/
theorem answerTimer_moves (asking : s.txn.state = .asking) :
    Moves s ((s.showCustomer .noAnswer Config.messageTime).toResting) := by
  refine .of_settles (((showCustomer_kept s _ _).mono (m := [.message, .txn]) (by decide)).trans ((toResting_kept _).mono (by decide)))
    ((showCustomer_steady s _ _).trans (toResting_steady _)) (by decide) fun lawful => ?_
  have shown := (showCustomer_moves s .noAnswer Config.messageTime).money lawful
  have kept : (s.showCustomer .noAnswer Config.messageTime).txn = s.txn := showCustomer_kept _ _ _ .txn (by decide)
  exact (asking_toResting shown.1 (kept ▸ asking)).after shown.2

/-- R119: a sale given up after its WITHDRAW. -/
theorem resultTimer_moves (committed : s.txn.state = .committed) : Moves s s.withdrawSale.giveUpSale := by
  have withdrawn : Kept [.queue, .lineQueue] s s.withdrawSale ∧ Moves s s.withdrawSale := by
    unfold Station.withdrawSale
    split
    · exact ⟨withdrawFrom_kept s _ _, withdrawFrom_moves s _ _⟩
    · exact ⟨Kept.refl _ s, .refl s⟩
  have txn_eq : s.withdrawSale.txn = s.txn := withdrawn.1 .txn (by decide)
  exact withdrawn.2.trans (.of_settles (giveUpSale_kept _) (giveUpSale_steady _) (by decide) fun lawful =>
    giveUpSale_settles lawful (txn_eq ▸ committed))

/-- R121: credit forfeited is gone. -/
theorem forfeit_moves (credit : s.txn.state = .credit) : Moves s s.forfeit := by
  refine .of_settles (forfeit_kept s) rfl (by decide) fun lawful => ?_
  have unheld := Unheld.of_records lawful (by simp [credit]) (by simp [credit])
  unfold Station.forfeit
  refine Settles.after (Unheld.toResting ⟨unheld.escrow, unheld.idle, unheld.payout⟩) fun small => ?_
  have forfeited : rise32 s.audit.forfeitedValue s.txn.credit = s.audit.forfeitedValue + s.txn.credit := by
    refine rise32_of_small ?_
    simp only [moneyTotal, Station.held, Station.gone] at small
    omega
  simp only [moneyTotal, Station.held, Station.gone, forfeited]
  omega

end Transaction

section Chilling

variable (s : Station)

/-! ### Cooling (08) -/

theorem setCooling_moves (f : Cooling → Cooling) : Moves s (s.setCooling f) := .plain rfl

theorem leaveRest_moves : Moves s s.leaveRest := .of_kept (leaveRest_kept s) (leaveRest_steady s) (by decide)

theorem enterRest_moves : Moves s s.enterRest := .of_kept (enterRest_kept s) (enterRest_steady s) (by decide)

theorem normalStop_moves : Moves s s.normalStop := .of_kept (normalStop_kept s) (normalStop_steady s) (by decide)

theorem demandChanged_moves (before : Bool) : Moves s (s.demandChanged before) :=
  .of_kept (demandChanged_kept s before) (demandChanged_steady s before) (by decide)

theorem requestDefrost_moves : Moves s s.requestDefrost :=
  .of_kept (requestDefrost_kept s) (requestDefrost_steady s) (by decide)

theorem causeMet_moves (inSet : Bool) : Moves s (s.causeMet inSet) :=
  .of_kept (causeMet_kept s inSet) (causeMet_steady s inSet) (by decide)

theorem trip_moves : Moves s s.trip := by
  have counted : ∀ (f : Cooling → Cooling) (n : Nat), Moves s { s.setCooling f with audit := { s.audit with lockouts := n } } :=
    fun _ _ => .plain rfl
  unfold Station.trip
  dsimp only
  refine .trans ?_ (.ite (raise_moves _ _) (.refl _))
  exact (counted _ _).trans (releaseSlot_moves _ _)

theorem terminateDefrost_moves : Moves s s.terminateDefrost := by
  have counted : ∀ (t : Station) (f : Cooling → Cooling) (n : Nat),
      Moves t { t.setCooling f with audit := { t.audit with defrosts := n } } := fun _ _ _ => .plain rfl
  have released : Moves s (if s.cooling.phase = .heater then s.releaseSlot .defrostHeater else s.withdrawRequest .defrostHeater) :=
    .ite (releaseSlot_moves s _) (withdrawRequest_moves s _)
  exact released.trans (counted _ _ _)

theorem coilSampled_moves (code : Nat) : Moves s (s.coilSampled code) := by
  unfold Station.coilSampled
  split
  · exact .refl s
  · exact .ite (terminateDefrost_moves s) (.refl s)

theorem condSampled_moves (code : Nat) : Moves s (s.condSampled code) := by
  unfold Station.condSampled
  split
  · exact .refl s
  · exact .ite (trip_moves s) (.refl s)

theorem airSampled_moves (before : Sensor) (code : Nat) : Moves s (s.airSampled before code) :=
  .of_kept (airSampled_kept s before code) (airSampled_steady s before code) (by decide)

theorem takeSample_moves (name : SensorName) (code : Nat) : Moves s (s.takeSample name code) := by
  unfold Station.takeSample
  dsimp only
  have recorded : ∀ (r : Sensor) (c : Prop) [Decidable c], Moves s (if c then
      (s.setCooling fun k => k.setSensor name r).raise (.sensor name) else s.setCooling fun k => k.setSensor name r) :=
    fun _ _ _ => .ite ((setCooling_moves s _).trans (raise_moves _ _)) (setCooling_moves s _)
  cases name
  · exact (recorded _ _).trans (airSampled_moves _ _ _)
  · exact (recorded _ _).trans (coilSampled_moves _ _)
  · exact (recorded _ _).trans (condSampled_moves _ _)

theorem changeDuty_moves : Moves s s.changeDuty := by
  unfold Station.changeDuty
  split
  · exact (setCooling_moves s _).trans (demandChanged_moves _ _)
  · exact (setCooling_moves s _).trans (demandChanged_moves _ _)
  · exact .refl s

theorem beginColdHold_moves : Moves s s.beginColdHold := by
  unfold Station.beginColdHold
  exact ((setCooling_moves s _).trans (raise_moves _ _)).trans (removeEntries_moves _ _ _ _)

end Chilling

section Bank

variable (s : Station)

/-! ### The power budget and the line (09, 10) -/

theorem Moves.masks {s t : Station} (h : Masks s t) : Moves s t := by
  obtain ⟨_, _, _, _, _, rfl⟩ := h
  exact .plain rfl

theorem power_moves (p : Power) : Moves s { s with power := p } := .plain rfl

theorem decideWindow_moves (r : Request) : Moves s (s.decideWindow r) :=
  .of_kept (decideWindow_kept s r) (decideWindow_steady s r) (by decide)

theorem shed_moves : Moves s s.shed := by
  have heater : Moves s s.shedHeater := by
    unfold Station.shedHeater Station.heaterShed
    exact .ite ((power_moves s _).trans (.ite (terminateDefrost_moves _) (.refl _))) (.refl s)
  exact heater.trans (.of_kept (shedCompressor_kept _)
    (.ite ((power_steady _ _).trans (compressorShed_steady _)) (.refl _)) (by decide))

variable {s}

/-- The line of a station that runs goes on running. -/
theorem line_moves {l : Line} (h : s.running = true) (hl : l.state.running = true) : Moves s { s with line := l } := by
  have running : s.line.state.running = true := h
  exact .plain (by simp [ledger, Station.running, Station.gone, hl, running])

theorem enterIsolated_moves (h : s.running = true) (cause : Cause) : Moves s (s.enterIsolated cause) := by
  have left : Moves s s.leaveActive := .plain rfl
  unfold Station.enterIsolated
  dsimp only
  refine .trans (.trans ?_ (shed_moves _)) (power_moves _ _)
  exact left.trans (line_moves (s := s.leaveActive) h rfl)

theorem running_of_beats (h : s.line.state.beats = true) : s.running = true := by
  unfold Station.running
  cases state : s.line.state <;> simp_all [LineState.beats, LineState.running]

theorem lineFault_moves : Moves s s.lineFault := by
  unfold Station.lineFault
  split
  · exact enterIsolated_moves (running_of_beats ‹_›) _
  · exact .refl s

theorem addressClash_moves (h : s.running = true) : Moves s s.addressClash := by
  unfold Station.addressClash
  exact .ite (.refl s) ((enterIsolated_moves h _).trans (raise_moves _ _))

theorem endListen_moves (h : s.running = true) : Moves s s.endListen := by
  unfold Station.endListen
  exact .ite (.of_kept (enterActive_kept s) (enterActive_steady h) (by decide)) (enterIsolated_moves h _)

variable (s)

theorem frameSent_moves : Moves s s.frameSent := .of_kept (frameSent_kept s) (frameSent_steady s) (by decide)

theorem transmitError_moves : Moves s s.transmitError := by
  unfold Station.transmitError
  refine .trans ?_ (.ite lineFault_moves (.refl _))
  exact .plain rfl

theorem refreshPeer_moves (address : Nat) (apply : Peer → Peer) : Moves s (s.refreshPeer address apply) :=
  .of_kept (refreshPeer_kept s _ _) (refreshPeer_steady s _ _) (by decide)

theorem forgetPeers_moves : Moves s s.forgetPeers := .of_kept (forgetPeers_kept s) (forgetPeers_steady s) (by decide)

theorem noticeLetter_moves : Moves s s.noticeLetter := .of_kept (noticeLetter_kept s) (noticeLetter_steady s) (by decide)

theorem heardPeer_moves : Moves s s.heardPeer := .of_kept (heardPeer_kept s) (heardPeer_steady s) (by decide)

theorem recordClaim_moves (address cls rank : Nat) : Moves s (s.recordClaim address cls rank) :=
  .of_kept (recordClaim_kept s _ _ _) (recordClaim_steady s _ _ _) (by decide)

theorem scheduleDeclare_moves : Moves s s.scheduleDeclare :=
  .of_kept (scheduleDeclare_kept s) (scheduleDeclare_steady s) (by decide)

theorem agePeer_moves (address : Nat) (before after : Presence) : Moves s (s.agePeer address before after) := by
  unfold Station.agePeer
  split
  · exact .of_kept (setPresence_kept s _ _) (changePeer_steady s _ _) (by decide)
  · exact .refl s

end Bank

section Frames

variable (s : Station)

/-! ### The frames of the meanings -/

theorem advance_moves (d : Nat) : Moves s (s.advance d) := by
  unfold Station.advance
  exact .ite (.plain rfl) (.plain rfl)

theorem assess_moves (currents : List Nat) : Moves s (s.assess currents) := by
  unfold Station.assess
  exact .ite (.foldl (fun t _ => .trans (vend_moves t _) (advance_moves _ 1)) currents s) (.refl s)

/-- An expiry whose effect is lawful where its timer runs. -/
theorem expire_moves {runs : Bool} {length elapsed : Nat} {effect : Station → Station}
    (h : runs = true → Moves (s.advanceTo length elapsed) (effect (s.advanceTo length elapsed))) :
    Moves s (expire runs length elapsed effect s) := by
  unfold expire
  split
  · exact (advance_moves s _).trans (h ‹_›)
  · exact .refl s

theorem ifHeld_moves {time held : Nat} {change : Station → Station} (h : Moves s (change s)) :
    Moves s (ifHeld time held change s) := .ite h (.refl s)

theorem onVend_moves {f : Vend → Station → Station} (h : ∀ v, Moves s (f v s)) : Moves s (s.onVend f) := by
  unfold Station.onVend
  split
  · exact h _
  · exact .refl s

theorem ifFound_moves (currents : List Nat) {found : Station → Bool} {effect : Station → Station}
    (h : ∀ t, Moves t (effect t)) : Moves s (s.ifFound currents found effect) :=
  (assess_moves s currents).trans (.ite (h _) (.refl _))

theorem key_moves {customer technician : Station → Station} (hc : ∀ t, Moves t (customer t))
    (ht : ∀ t, Moves t (technician t)) : Moves s (s.key customer technician) := by
  have taken : Moves s s.keyTaken := .plain rfl
  have service : Moves s s.serviceKey := .plain rfl
  exact .ite (taken.trans (hc _)) (.ite (service.trans (ht _)) (.refl s))

theorem ifBufferOpen_moves {effect : Station → Station} (h : s.bufferOpen = true → Moves s (effect s)) :
    Moves s (s.ifBufferOpen effect) := by
  unfold Station.ifBufferOpen
  split
  · exact h ‹_›
  · exact .refl s

theorem countBadFrame_moves : Moves s s.countBadFrame := .plain rfl

theorem takeFrame_moves (ok : Bool) (src dst : Nat) (apply : Peer → Peer) {windowed handoff : Station → Station}
    (hw : ∀ t, Moves t (windowed t)) (hh : ∀ t, Moves t (handoff t)) :
    Moves s (s.takeFrame ok src dst apply windowed handoff) := by
  unfold Station.takeFrame
  split
  · exact .refl s
  · rename_i running
    have clash : Moves s s.addressClash := addressClash_moves (by simpa using running)
    refine .ite (countBadFrame_moves s) (.ite (.ite (.refl s) clash) ?_)
    refine .trans ?_ (.ite (hh _) (.refl _))
    exact (((hw s).trans (refreshPeer_moves _ _ _)).trans (noticeLetter_moves _)).trans (heardPeer_moves _)

theorem takeQuery_moves (src dst block : Nat) : Moves s (s.takeQuery src dst block) := by
  unfold Station.takeQuery
  split
  · exact .refl s
  · rename_i running
    have clash : Moves s s.addressClash := addressClash_moves (by simpa using running)
    have answered : ∀ (t : Station) (b : Bool) (a : Nat), Moves t (if b then t.answerQuery a block else t) :=
      fun t _ _ => .ite (hand_moves t _ _) (.refl t)
    refine .ite (countBadFrame_moves s) (.ite (answered s _ _) (.ite (.ite (.refl s) clash) ?_))
    refine .trans ?_ (answered _ _ _)
    exact ((refreshPeer_moves s _ _).trans (noticeLetter_moves _)).trans (heardPeer_moves _)

theorem takeStatus_moves (condition : Nat) : Moves s (s.takeStatus condition) := by
  have timed : ∀ n, Moves s { s with coin := { s.coin with statusTimer := n } } := fun _ => .plain rfl
  have ready : ∀ t : Station, Moves t { t with coin := { t.coin with faultStands := false, faultCode := none } } :=
    fun _ => .plain rfl
  have faulted : ∀ (t : Station) (code : Option Nat), Moves t (t.coinFault code) := fun _ _ => .plain rfl
  unfold Station.takeStatus Station.coinReady
  exact (timed 0).trans (.ite (.ite ((ready _).trans (.masks (sendMasks_masks _))) (.refl _)) (faulted _ _))

theorem openDoor_moves : Moves s s.openDoor := by
  have ended : ∀ t : Station, Moves t t.doorEndsVend := by
    intro t
    unfold Station.doorEndsVend
    split
    · exact .ite (.refl t) (finishVend_moves t _ _)
    · exact .refl t
  have opened : Moves s { s with faults := { s.faults with doorOpen := true, doorTimer := 0 } } := .plain rfl
  have panel : ∀ (t : Station) (p : Panel), Moves t { t with panel := p } := fun _ _ => .plain rfl
  unfold Station.openDoor
  dsimp only
  refine .trans (.trans ?_ (panel _ _)) (.of_kept (countDoor_kept _) (countDoor_steady _) (by decide))
  refine .trans (.trans ?_ (payoutDoorOpens_moves _)) (.of_kept (clearBuffer_kept _) (clearBuffer_steady _) (by decide))
  refine .trans (.trans ?_ (pick_moves _)) (settleClaim_moves _)
  exact .trans (opened.trans (ended _)) (removeEntries_moves _ _ _ _)

theorem closeDoor_moves : Moves s s.closeDoor := by
  unfold Station.closeDoor
  refine .trans (.trans ?_ (payoutDoorCloses_moves _)) (pick_moves _)
  exact .plain rfl

/-- R63, R64: the value of a coin comes in. -/
theorem takeCoin_balanced (coinType : Nat) (path : CoinPath) (lawful : MoneyRecords s) :
    MoneyRecords (s.takeCoin coinType path) ∧ Balanced (s.coinTypeOf coinType).value s (s.takeCoin coinType path) := by
  have credited : Balanced (s.coinTypeOf coinType).value s (s.addCredit (s.coinTypeOf coinType).value) := addCredit_total _
  have counted : Moves (s.addCredit (s.coinTypeOf coinType).value) (s.creditCoin coinType) := .plain rfl
  have booked : Moves (s.creditCoin coinType) (s.takeCoin coinType path) := by
    have overcounted : ∀ (t : Station) (n : Nat), Moves t { t with audit := { t.audit with tubeOvercount := n } } :=
      fun _ _ => .plain rfl
    have cashed : ∀ (t : Station) (n : Nat), Moves t { t with audit := { t.audit with cashboxValue := n } } :=
      fun _ _ => .plain rfl
    unfold Station.takeCoin
    refine .ite ?_ ((cashed _ _).trans (writeJournal_moves _ _))
    exact .trans (.trans (.ite (.refl _) (overcounted _ _)) (setTube_moves _ _ _)) (writeJournal_moves _ _)
  obtain ⟨records, balanced⟩ := (counted.trans booked).money (addCredit_records lawful _)
  exact ⟨records, credited.trans balanced⟩

end Frames

section Service

variable (s : Station)

/-! ### The service commands (R192) -/

/-- R192: every service command but RESTART. -/
theorem runService_moves {c : ServiceCommand} (h : c ≠ .restart) : Moves s (s.runService c) := by
  have done : ∀ {t}, Moves s t → Moves s t.doneShown := fun h => h.trans (showService_moves _ _)
  have refused : Moves s s.refusedShown := showService_moves s _
  have takenIf : ∀ (b : Bool) (effect : Station → Station), Moves s (effect s) → Moves s (s.takenIf b effect) :=
    fun _ _ h => .ite (done h) refused
  cases c with
  | ackAttention => exact done (.of_kept (acknowledge_kept s) rfl (by decide))
  | ackHold => exact .ite refused (.ite (done (setCooling_moves s _)) (showService_moves s _))
  | fillTube tube count =>
    refine takenIf _ (fun s => s.fillTube tube count) ?_
    exact ((setTube_moves s tube _).trans (writeJournal_moves _ _)).trans (noteTubesChanged_moves _)
  | emptyTube tube =>
    refine takenIf _ (fun s => s.emptyTube tube) ?_
    exact ((writeJournal_moves s _).trans (setTube_moves _ tube _)).trans (noteTubesChanged_moves _)
  | clearTube tube =>
    refine takenIf _ (fun s => s.clearTube tube) ?_
    exact (setTube_moves s tube _).trans (noteTubesChanged_moves _)
  | refill => exact done (.of_kept (refill_kept s) (refill_steady s) (by decide))
  | clearSpiral position => exact takenIf _ _ (setSpiral_moves s _ _)
  | testVend position =>
    change Moves s (s.testVend position)
    unfold Station.testVend
    split
    · exact showService_moves s _
    · exact done (addTestEntry_moves s _)
  | manualDefrost => exact takenIf _ _ (requestDefrost_moves s)
  | clearCompressor => exact takenIf _ _ ((setCooling_moves s _).trans (enterRest_moves _))
  | forgetPeers => exact done (forgetPeers_moves s)
  | restart => exact absurd rfl h
  | showAudit item => exact .ite (.plain rfl) refused

end Service

end Sys2Proof.Proofs

/-! SUPPORT. The station at rest (R127, R168, R177, R198, R203), for O60: what an event can do while the station is OFFLINE or
HALTED, where most commands find their guard false, and what a start and the halt make of the money. -/

namespace Sys2Proof.Proofs

open Sys2Proof.Machine Sys2Proof.Laws

section AtRest

/-! ### A station that does not run -/

/-- What a lawful station that does not run holds nothing of. -/
structure Resting (s : Station) : Prop where
  still : s.running = false
  queue : s.queue = []
  vend : s.vend = none
  power : s.power = Power.blank
  payout : s.payout.state = .idle
  coin : s.payout.phase = .none
  asking : s.txn.state ≠ .asking
  committed : s.txn.state ≠ .committed
  compressor : s.cooling.compressor = .off
  phase : s.cooling.phase = .none

/-- What `Resting` speaks of. -/
def restBasis (s : Station) :
    Bool × List Entry × Option Vend × Power × PayoutState × CoinPhase × TxnState × Compressor × DefrostPhase :=
  (s.running, s.queue, s.vend, s.power, s.payout.state, s.payout.phase, s.txn.state, s.cooling.compressor, s.cooling.phase)

variable {s t : Station}

theorem Resting.of_law (h : MoneyLaw s) (still : s.running = false) : Resting s := by
  obtain ⟨records, -, rest⟩ := (moneyLaw_iff s).mp h
  obtain ⟨queue, vend, power, payout, asking, committed, compressor, phase⟩ := rest still
  refine ⟨still, queue, vend, power, payout, ?_, asking, committed, compressor, phase⟩
  by_contra coin
  exact PayoutState.noConfusion ((records.payout.coin coin).symm.trans payout)

theorem Resting.atRest (r : Resting s) : AtRest s :=
  ⟨fun _ => r.still, fun _ => ⟨r.queue, r.vend, r.power, r.payout, r.asking, r.committed, r.compressor, r.phase⟩⟩

theorem atRest_of_running (running : s.running = true) (start : s.start = .none) : AtRest s :=
  ⟨fun starting => absurd start starting, fun still => Bool.noConfusion (running.symm.trans still)⟩

theorem Resting.plain (r : Resting s) (h : restBasis t = restBasis s) : Resting t := by
  simp only [restBasis, Prod.mk.injEq] at h
  obtain ⟨running_eq, queue_eq, vend_eq, power_eq, payout_eq, coin_eq, txn_eq, compressor_eq, phase_eq⟩ := h
  exact ⟨running_eq.trans r.still, queue_eq.trans r.queue, vend_eq.trans r.vend, power_eq.trans r.power,
    payout_eq.trans r.payout, coin_eq.trans r.coin, txn_eq ▸ r.asking, txn_eq ▸ r.committed,
    compressor_eq.trans r.compressor, phase_eq.trans r.phase⟩

/-- An operation that keeps what a station at rest holds nothing of. -/
theorem Resting.of_kept {l : List Region} (r : Resting s) (h : Kept l s t)
    (hl : ∀ x ∈ [Region.line, .queue, .vend, .power, .payout, .txn, .cooling], x ∉ l) : Resting t := by
  have state_eq : t.line.state = s.line.state := state_of_kept h (hl _ (by decide))
  have queue_eq : t.queue = s.queue := h .queue (hl _ (by decide))
  have vend_eq : t.vend = s.vend := h .vend (hl _ (by decide))
  have power_eq : t.power = s.power := h .power (hl _ (by decide))
  have payout_eq : t.payout = s.payout := h .payout (hl _ (by decide))
  have txn_eq : t.txn = s.txn := h .txn (hl _ (by decide))
  have cooling_eq : t.cooling = s.cooling := h .cooling (hl _ (by decide))
  exact r.plain (by
    simp only [restBasis, Station.running, state_eq, queue_eq, vend_eq, power_eq, payout_eq, txn_eq, cooling_eq])

theorem Resting.ite {c : Prop} [Decidable c] {u : Station} (h : Resting t) (k : Resting u) : Resting (if c then t else u) := by
  split <;> assumption

/-- At rest a guard that is false there leaves the station as it is. -/
theorem Resting.guarded (r : Resting s) {c : Bool} (off : c = false) : Resting (if c then t else s) := by
  rwa [off, if_neg Bool.false_ne_true]

/-! ### What the guards read -/

theorem Resting.active (r : Resting s) : s.active = false := by
  have still := r.still
  unfold Station.running at still
  unfold Station.active
  cases state : s.line.state <;> simp_all [LineState.running]

theorem Resting.beats (r : Resting s) : s.line.state.beats = false := by
  have still := r.still
  unfold Station.running at still
  cases state : s.line.state <;> simp_all [LineState.running, LineState.beats]

theorem Resting.not_state (r : Resting s) {state : LineState} (h : state.running = true) : s.line.state ≠ state := by
  rintro rfl
  exact Bool.noConfusion (h.symm.trans r.still)

theorem Resting.coinUnit (r : Resting s) : s.coinUnitWorks = false := by simp [Station.coinUnitWorks, r.still]

theorem Resting.coolingOn (r : Resting s) : s.coolingOn = false := by simp [Station.coolingOn, r.compressor]

theorem Resting.motorOn (r : Resting s) : s.motorOn = false := by
  simp [Station.motorOn, Station.motorForward, Station.vendIn, r.vend]

theorem Resting.customerKeys (r : Resting s) : s.customerKeys = false := by simp [Station.customerKeys, r.still]

theorem Resting.serviceMode (r : Resting s) : s.serviceMode = false := by simp [Station.serviceMode, r.still]

theorem Resting.holdRuns (r : Resting s) : s.holdRuns = false := by simp [Station.holdRuns, Cooling.holdRuns, r.compressor]

theorem Resting.icing (r : Resting s) : s.cooling.icing = false := by simp [Cooling.icing, r.compressor]

/-! ### Operations on a station at rest -/

theorem Resting.advance (r : Resting s) (d : Nat) : Resting (s.advance d) := by
  have off : s.cooling.advance s.cfg.cooling d = s.cooling := if_pos r.compressor
  refine r.plain ?_
  unfold Station.advance
  split
  · rfl
  · simp [restBasis, off, r.queue, r.vend, r.power, Power.blank, Payout.advance, Txn.advance, Station.running, Line.advance]

theorem Resting.expires {runs : Bool} {length elapsed : Nat} {effect : Station → Station} (r : Resting s)
    (h : ∀ t, Resting t → Resting (effect t)) : Resting (expire runs length elapsed effect s) :=
  .ite (h _ (r.advance _)) r

/-- An expiry of a timer that does not run at rest. -/
theorem Resting.expire_off {runs : Bool} {length elapsed : Nat} {effect : Station → Station} (r : Resting s)
    (off : runs = false) : Resting (expire runs length elapsed effect s) := r.guarded off

theorem Resting.held {time held : Nat} {change : Station → Station} (r : Resting s) (h : Resting (change s)) :
    Resting (ifHeld time held change s) := .ite h r

theorem Resting.onVend (r : Resting s) (f : Vend → Station → Station) : Resting (s.onVend f) := by
  unfold Station.onVend
  rwa [r.vend]

theorem Resting.endVend (r : Resting s) (o : Outcome) : Resting (s.endVend o) := by
  unfold Station.endVend
  rwa [r.vend]

theorem Resting.energise (r : Resting s) : Resting s.energise := by
  unfold Station.energise
  rwa [r.vend]

theorem Resting.ifFound (r : Resting s) (currents : List Nat) (found : Station → Bool) {effect : Station → Station}
    (h : ∀ t, Resting t → Resting (effect t)) : Resting (s.ifFound currents found effect) := by
  have unread : s.assess currents = s := by simp [Station.assess, r.motorOn]
  unfold Station.ifFound
  rw [unread]
  exact .ite (h s r) r

theorem Resting.key (r : Resting s) (customer technician : Station → Station) : Resting (s.key customer technician) := by
  unfold Station.key
  simpa [r.customerKeys, r.serviceMode] using r

theorem Resting.takeFrame (r : Resting s) (ok : Bool) (src dst : Nat) (apply : Peer → Peer)
    (windowed handoff : Station → Station) : s.takeFrame ok src dst apply windowed handoff = s := by
  simp [Station.takeFrame, r.still]

theorem Resting.takeQuery (r : Resting s) (src dst block : Nat) : Resting (s.takeQuery src dst block) := by
  simpa [Station.takeQuery, r.still] using r

theorem Resting.requestIn (r : Resting s) (phase : RequestPhase) : s.requestIn phase = none := by
  simp [Station.requestIn, r.power, Power.blank]

theorem Resting.requestOf (r : Resting s) (cls : LoadClass) : s.requestOf cls = none := by
  simp [Station.requestOf, r.power, Power.blank]

theorem Resting.pick (r : Resting s) : Resting s.pick := by
  rwa [pick_of_none r.vend (by simp [r.queue])]

theorem Resting.settleClaim (r : Resting s) : Resting s.settleClaim := by
  have released : s.releaseSlot .vendMotor = s := by simp [Station.releaseSlot, Power.slot, r.power, Power.blank]
  unfold Station.settleClaim
  rw [r.vend]
  dsimp only
  rw [released]
  exact r.plain (by simp [restBasis, Station.withdrawRequest, Station.running, r.power, Power.blank])

theorem Resting.removeEntries (r : Resting s) (p : Entry → Bool) (reason : Reason) (o : Outcome) :
    Resting (s.removeEntries p reason o) :=
  r.plain (by simp [restBasis, Station.removeEntries, Station.running, r.queue])

theorem Resting.payoutDoorOpens (r : Resting s) : Resting s.payoutDoorOpens := by
  simpa [Station.payoutDoorOpens, r.payout] using r

theorem Resting.payoutDoorCloses (r : Resting s) : Resting s.payoutDoorCloses := by
  rw [payoutDoorCloses_of_not_stopped s (by simp [r.payout])]
  exact r.plain rfl

/-- R140: a request finds the cooling controller OFF. -/
theorem Resting.requestDefrost (r : Resting s) : Resting s.requestDefrost := by
  have asked : Resting (s.setCooling fun c => { c with defrostRequest := true }) := r.plain rfl
  unfold Station.requestDefrost
  dsimp only
  rwa [asked.compressor]

theorem Resting.countDoor (r : Resting s) : Resting s.countDoor := by
  have counted : Resting (s.setCooling fun c => { c with doorCounter := min 255 (c.doorCounter + 1) }) := r.plain rfl
  unfold Station.countDoor Station.doorCountMet Station.causeMet
  exact .ite (.ite (.ite counted.requestDefrost counted) counted) r

theorem Resting.doorEndsVend (r : Resting s) : Resting s.doorEndsVend := by
  unfold Station.doorEndsVend
  rwa [r.vend]

theorem Resting.openDoor (r : Resting s) : Resting s.openDoor := by
  have opened : Resting { s with faults := { s.faults with doorOpen := true, doorTimer := 0 } } := r.plain rfl
  have removed := (opened.doorEndsVend.removeEntries (fun e => e.state = .awaitCommit || (e.state = .committed && !e.test)) .service
    .service).pick.settleClaim.payoutDoorOpens
  unfold Station.openDoor
  refine Resting.countDoor ?_
  exact removed.plain rfl

theorem Resting.closeDoor (r : Resting s) : Resting s.closeDoor := by
  unfold Station.closeDoor
  refine Resting.pick (Resting.payoutDoorCloses ?_)
  exact r.plain rfl

theorem Resting.dropTaken (r : Resting s) : Resting s.dropTaken := by
  unfold Station.dropTaken
  rw [r.vend]
  exact r.of_kept (chuteActivity_kept s) (by decide)

theorem Resting.beamBlocks (r : Resting s) : Resting s.beamBlocks := by
  have blocked : Resting (s.setBeam true) := r.plain rfl
  unfold Station.beamBlocks
  exact .ite blocked.dropTaken blocked

theorem Resting.chuteFaultBegins (r : Resting s) : Resting s.chuteFaultBegins := by
  have faulted : Resting { s with chute := { s.chute with fault := true } } := r.plain rfl
  have raised := faulted.of_kept (raise_kept _ .chute) (by decide)
  unfold Station.chuteFaultBegins
  exact .ite (raised.removeEntries _ _ _) raised

theorem Resting.lineFault (r : Resting s) : Resting s.lineFault := by
  unfold Station.lineFault
  exact r.guarded r.beats

theorem Resting.transmitError (r : Resting s) : Resting s.transmitError := by
  have counted : Resting { s with line := { s.line with sending := false, errors := s.line.errors + 1 } } := r.plain rfl
  unfold Station.transmitError
  exact .ite counted.lineFault counted

theorem Resting.frameSent (r : Resting s) : Resting s.frameSent := by
  unfold Station.frameSent
  split
  · exact r
  · refine .ite ?_ (r.plain rfl)
    exact r.plain (by simp [restBasis, Station.running, r.power, Power.blank])

theorem Resting.pulseEnds (r : Resting s) : Resting s.pulseEnds := by
  have ended : Resting { s with payout := { s.payout with pulseOn := none } } := r.plain rfl
  unfold Station.pulseEnds
  exact ended.guarded (by simp [r.payout])

/-- The transaction in its resting state asks and holds nothing. -/
theorem Resting.toResting (r : Resting s) : Resting s.toResting := by
  have state_eq : s.toResting.txn.state = restingState s.txn.credit := rfl
  rcases restingState_cases s.txn.credit with ⟨state, -⟩ | ⟨state, -⟩ <;> rw [state] at state_eq <;>
    exact ⟨r.still, r.queue, r.vend, r.power, r.payout, r.coin, by simp [state_eq], by simp [state_eq], r.compressor, r.phase⟩

theorem Resting.forfeit (r : Resting s) : Resting s.forfeit := by
  unfold Station.forfeit
  refine Resting.toResting ?_
  exact r.plain rfl

/-! ### The end of an event -/

theorem line_state_of_same (h : Region.line.same s t) : t.line.state = s.line.state :=
  show t.line.owned.state = s.line.owned.state from congrArg Line.state h

/-- R157, R166: at rest no load waits that could be granted, and what keeps the regions keeps the rest. -/
theorem Resting.of_same (r : Resting s) (h : ∀ p : Region, p.same s t) : Resting t := by
  have settled : s.loadsSettled = true := by simp [Station.loadsSettled, r.power, Power.blank, bestReady]
  have state_eq := line_state_of_same (h .line)
  have queue_eq : t.queue = s.queue := h .queue
  have vend_eq : t.vend = s.vend := h .vend (.inl settled)
  have power_eq : t.power = s.power := h .power settled
  have payout_eq : t.payout = s.payout := h .payout
  have txn_eq : t.txn = s.txn := h .txn
  have cooling_eq : t.cooling.owned = s.cooling.owned := h .cooling (.inl settled)
  have compressor_eq : t.cooling.compressor = s.cooling.compressor :=
    show t.cooling.owned.compressor = s.cooling.owned.compressor from congrArg Cooling.compressor cooling_eq
  have phase_eq : t.cooling.phase = s.cooling.phase :=
    show t.cooling.owned.phase = s.cooling.owned.phase from congrArg Cooling.phase cooling_eq
  exact r.plain (by
    simp only [restBasis, Station.running, state_eq, queue_eq, vend_eq, power_eq, payout_eq, txn_eq, compressor_eq, phase_eq])

end AtRest

section Events

variable {s t u : Station} {m n : Nat}

/-! ### The law over an event -/

/-- What a body or an event makes of a lawful station: a lawful station, with the money that has been taken in. -/
def Carries (taken : Nat) (s t : Station) : Prop := MoneyLaw s → MoneyLaw t ∧ Balanced taken s t

theorem Carries.refl (s : Station) : Carries 0 s s := fun law => ⟨law, .of_eq rfl⟩

theorem Carries.trans (h : Carries m s t) (k : Carries n t u) : Carries (m + n) s u := fun law =>
  have first := h law
  have second := k first.1
  ⟨second.1, first.2.trans second.2⟩

theorem start_none_of_running (starting : s.start ≠ .none → s.running = false) (running : s.running = true) : s.start = .none := by
  by_contra started
  exact Bool.noConfusion (running.symm.trans (starting started))

/-- An operation on a station that runs: it goes on running, no start in progress. -/
theorem Carries.of_running (running : s.running = true) (moves : Moves s t) : Carries 0 s t := fun law => by
  obtain ⟨records, starting, -⟩ := (moneyLaw_iff s).mp law
  have no_start := start_none_of_running starting running
  obtain ⟨records', balanced⟩ := moves.money records
  exact ⟨(moneyLaw_iff t).mpr ⟨records', atRest_of_running (moves.running.trans running) (moves.start.trans no_start)⟩, balanced⟩

/-- A body is lawful when it moves the money lawfully and leaves a station at rest at rest. -/
theorem Carries.of_moves (moves : Moves s t) (rests : Resting s → Resting t) : Carries 0 s t := by
  cases running : s.running with
  | true => exact .of_running running moves
  | false =>
    intro law
    obtain ⟨records, balanced⟩ := moves.money ((moneyLaw_iff s).mp law).1
    exact ⟨(moneyLaw_iff t).mpr ⟨records, (rests (.of_law law running)).atRest⟩, balanced⟩

/-- What keeps the regions keeps the money. -/
theorem ledger_of_same (h : ∀ p : Region, p.same s t) : ledger t = ledger s := by
  have txn_eq : t.txn = s.txn := h .txn
  have payout_eq : t.payout = s.payout := h .payout
  have owned_eq : t.audit.owned = s.audit.owned := h .counters
  obtain ⟨start_eq, -⟩ := h .setup
  have state_eq := line_state_of_same (h .line)
  have gone_eq : t.gone = s.gone := by
    change t.audit.owned.salesValue + t.audit.owned.payoutValue + t.audit.owned.forfeitedValue = s.gone
    rw [owned_eq]
    rfl
  simp only [ledger, Station.running, txn_eq, payout_eq, start_eq, state_eq, gone_eq]

theorem finish_carries (o s : Station) : Carries 0 s (finish o s) :=
  .of_moves (.plain (ledger_of_same (finish_same o s))) fun r => r.of_same (finish_same o s)

theorem Carries.finished (h : Carries n s t) (o : Station) : Carries n s (finish o t) := h.trans (finish_carries o t)

end Events

section Starts

variable {s : Station}

/-! ### The halt and the starts (R125, R200, R201, R202) -/

theorem MoneyRecords.congr {t : Station} (h : MoneyRecords s) (txn : t.txn = s.txn) (payout : t.payout = s.payout) :
    MoneyRecords t :=
  ⟨txn ▸ h.txn, payout ▸ h.payout, txn ▸ payout ▸ h.paying⟩

theorem abandonPayout_balanced (s : Station) : Balanced 0 s s.abandonPayout := by
  intro small
  have emptied : moneyTotal { s with payout := Payout.blank } + (s.payout.amount - s.payout.paid) = moneyTotal s := by
    simp only [moneyTotal, Station.held, Station.gone, Payout.blank]
    omega
  exact (addCredit_total _ (by rw [emptied]; exact small)).trans emptied

/-- R125, R126: the escrow of a bound sale goes back, in doubt. -/
def doubtSale (s : Station) : Station :=
  if s.txn.state = .committed then
    { s.escrowBack with audit := { s.escrowBack.audit with inDoubt := rise32 s.escrowBack.audit.inDoubt 1 } }
  else s

theorem haltTransaction_eq (s : Station) : s.haltTransaction = (doubtSale s).toResting := rfl

theorem warmTransaction_eq (s : Station) : s.warmTransaction = { (doubtSale s).abandonPayout.toResting with
    txn := { (doubtSale s).abandonPayout.toResting.txn with answerTimer := 0, resultTimer := 0 }, panel := Panel.blank } := rfl

theorem doubtSale_balanced (s : Station) : Balanced 0 s (doubtSale s) := by
  unfold doubtSale
  split
  · exact (escrowBack_balanced s).trans (.of_eq rfl)
  · exact .of_eq rfl

theorem doubtSale_escrow (unsold : s.txn.state ≠ .committed → s.txn.escrow = 0) : (doubtSale s).txn.escrow = 0 := by
  unfold doubtSale
  split
  · rfl
  · exact unsold ‹_›

theorem doubtSale_payout (s : Station) : (doubtSale s).payout = s.payout := by
  unfold doubtSale
  split <;> rfl

theorem payoutSound_blank : PayoutSound Payout.blank := ⟨fun _ => rfl, fun coin => absurd rfl coin, Nat.le_refl 0⟩

/-- R125: the transaction and the payout at a warm restart. -/
theorem warmTransaction_settles (lawful : MoneyRecords s) : Settles s s.warmTransaction := by
  have unheld : Unheld (doubtSale s).abandonPayout := ⟨doubtSale_escrow lawful.txn.unsold, rfl, payoutSound_blank⟩
  have rested := unheld.toResting.after ((doubtSale_balanced s).trans (abandonPayout_balanced _))
  have cleared : ∀ (t : Station) (a r : Nat) (p : Panel),
      Moves t { t with txn := { t.txn with answerTimer := a, resultTimer := r }, panel := p } := fun _ _ _ _ => .plain rfl
  rw [warmTransaction_eq]
  exact ((cleared _ _ _ _).money rested.1).after rested.2

/-- R202: a warm restart leaves the station OFFLINE with the money as credit. -/
theorem warmReset_carries (s : Station) : Carries 0 s s.warmReset := by
  intro law
  have settled := warmTransaction_settles ((moneyLaw_iff s).mp law).1
  have masked : Moves s.warmTransaction s.warmTransaction.warmCoinUnit :=
    .trans (t := { s.warmTransaction with coin := { s.warmTransaction.coin with
      statusTimer := 0, faultStands := false, faultCode := none } }) (.plain rfl) (.masks (sendInhibit_masks _ _))
  obtain ⟨records, balanced⟩ := (masked.money settled.1).after settled.2
  have txn_eq : s.warmReset.txn = s.warmTransaction.txn := sendInhibit_kept _ _ .txn (by decide)
  have payout_eq : s.warmReset.payout = Payout.blank := sendInhibit_kept _ _ .payout (by decide)
  obtain ⟨-, unpaid⟩ := toResting_sound (s := (doubtSale s).abandonPayout)
    (doubtSale_escrow ((moneyLaw_iff s).mp law).1.txn.unsold)
  have resting : Resting s.warmReset := by
    have state : s.warmReset.txn.state = restingState (doubtSale s).abandonPayout.txn.credit := by rw [txn_eq]; rfl
    refine ⟨rfl, rfl, rfl, rfl, by rw [payout_eq]; rfl, by rw [payout_eq]; rfl, ?_, ?_, rfl, rfl⟩ <;> rw [state] <;>
      rcases restingState_cases (doubtSale s).abandonPayout.txn.credit with ⟨state, -⟩ | ⟨state, -⟩ <;> simp [state]
  exact ⟨(moneyLaw_iff _).mpr ⟨records.congr rfl rfl, resting.atRest⟩, balanced.trans (.of_eq rfl)⟩

/-- R51, R126: the vend in flight ends at a halt; a sale that was seen to drop is booked. -/
theorem haltVend_settles (lawful : MoneyRecords s) : Settles s s.haltVend := by
  unfold Station.haltVend
  split
  · exact Moves.money (.plain rfl) lawful
  · rename_i v _
    have emptied : ∀ t : Station, Moves t { t with vend := none, queue := [] } := fun _ => .plain rfl
    have ended := ((recordVendEnd_moves s v (interruptedOutcome v.drops)).trans (emptied _)).money lawful
    dsimp only
    split
    · split
      · rename_i sold
        simp only [Bool.and_eq_true, decide_eq_true_eq] at sold
        exact (bookSale_unheld ended.1 sold.1.2 _ _).toResting.after (ended.2.trans (bookSale_balanced _ _ _))
      · exact ended
    · exact ended

theorem haltVend_empties (s : Station) : s.haltVend.queue = [] ∧ s.haltVend.vend = none := by
  unfold Station.haltVend
  split
  · exact ⟨rfl, ‹_›⟩
  · dsimp only
    split
    · split <;> exact ⟨rfl, rfl⟩
    · exact ⟨rfl, rfl⟩

/-- An addition to credit binds no sale. -/
theorem addCredit_unsold (unsold : s.txn.state ≠ .committed → s.txn.escrow = 0) (n : Nat) :
    (s.addCredit n).txn.state ≠ .committed → (s.addCredit n).txn.escrow = 0 := by
  refine fun free => unsold fun committed => free ?_
  simp [Station.addCredit, committed]

theorem warningInhibit_masks (s : Station) : Masks s s.warningInhibit := by
  unfold Station.warningInhibit
  split
  · exact sendInhibit_masks s _
  · exact Masks.refl s

theorem masks_kept {t : Station} (h : Masks s t) : Kept [] s t := by
  obtain ⟨_, _, _, _, _, rfl⟩ := h
  intro r _
  cases r <;> rfl

theorem doubtSale_kept (s : Station) : Kept [.txn, .counters] s (doubtSale s) := by
  unfold doubtSale
  split
  · exact (escrowBack_kept s).trans (Kept.mono (l := [.counters]) (audit_kept _ _ rfl) (by decide))
  · exact Kept.refl _ s

/-- Vend queue and vend in flight are at a halt as the end of its vend has left them. -/
theorem halted_kept (s : Station) :
    Kept [.payout, .txn, .counters, .message, .buffer, .service, .cooling, .meters, .power, .line, .lineQueue, .setup] s.haltVend
      s.halt := by
  have rested := (((abandonPayout_kept s.haltVend).mono (m := [.payout, .txn, .counters]) (by decide)).trans
    ((doubtSale_kept _).mono (by decide))).trans ((toResting_kept _).mono (by decide))
  have masked := (rested.trans ((masks_kept (warningInhibit_masks _)).mono (by decide))).mono
    (m := [.payout, .txn, .counters, .message, .buffer, .service, .cooling, .meters, .power, .line, .lineQueue, .setup])
    (by decide)
  refine masked.trans fun r hr => ?_
  cases r <;> first | exact absurd (by decide) hr | rfl

/-- R200, R203: the halt leaves the station HALTED with the money as credit, but for a sale booked. -/
theorem halt_carries (s : Station) : Carries 0 s s.halt := by
  intro law
  have ended := haltVend_settles ((moneyLaw_iff s).mp law).1
  have kept := halted_kept s
  obtain ⟨queue_eq, vend_eq⟩ := haltVend_empties s
  have escrow := doubtSale_escrow (s := s.haltVend.abandonPayout)
    (addCredit_unsold (s := { s.haltVend with payout := Payout.blank }) ended.1.txn.unsold _)
  have unheld : Unheld (doubtSale s.haltVend.abandonPayout) :=
    ⟨escrow, by rw [doubtSale_payout]; rfl, by rw [doubtSale_payout]; exact payoutSound_blank⟩
  have rested := unheld.toResting.after ((ended.2.trans (abandonPayout_balanced _)).trans (doubtSale_balanced _))
  obtain ⟨records, balanced⟩ := (Moves.money (.masks (warningInhibit_masks _)) rested.1).after rested.2
  have payout_eq : s.halt.payout = Payout.blank :=
    (masks_kept (warningInhibit_masks s.haltVend.abandonPayout.haltTransaction) .payout (by decide)).trans
      (doubtSale_payout s.haltVend.abandonPayout)
  have state : s.halt.txn.state = restingState (doubtSale s.haltVend.abandonPayout).txn.credit :=
    congrArg Txn.state (masks_kept (warningInhibit_masks s.haltVend.abandonPayout.haltTransaction) .txn (by decide))
  have resting : Resting s.halt := by
    refine ⟨rfl, (kept .queue (by decide)).trans queue_eq, (kept .vend (by decide)).trans vend_eq, rfl, by rw [payout_eq]; rfl,
      by rw [payout_eq]; rfl, ?_, ?_, rfl, rfl⟩ <;> rw [state] <;>
      rcases restingState_cases (doubtSale s.haltVend.abandonPayout).txn.credit with ⟨state, -⟩ | ⟨state, -⟩ <;> simp [state]
  exact ⟨(moneyLaw_iff _).mpr ⟨records.congr rfl rfl, resting.atRest⟩, balanced.trans (.of_eq rfl)⟩

end Starts

end Sys2Proof.Proofs

/-! SUPPORT. The commands and the law of the money, for O60: the service commands, the starts, each command as an event, and the
step. -/

namespace Sys2Proof.Proofs

open Sys2Proof.Machine Sys2Proof.Laws

section Starts

variable {s : Station}

/-! ### The cold start and the load event (R198, R201) -/

theorem coldReset_law (s : Station) : MoneyLaw s.coldReset := reset_moneyLaw

/-- R125: the record that a start leaves. -/
theorem startTxn_sound (c : Settings) (lastTag credit : Nat) :
    TxnSound (startTxn c lastTag credit) ∧ (startTxn c lastTag credit).state ≠ .paying := by
  have state_eq : (startTxn c lastTag credit).state = restingState (startCredit c credit) := rfl
  rcases restingState_cases (startCredit c credit) with ⟨resting, nothing⟩ | ⟨resting, some_credit⟩ <;> rw [resting] at state_eq
  · exact ⟨⟨fun _ => rfl, by simp [state_eq], by simp [state_eq], fun _ => nothing, by simp [state_eq]⟩, by simp [state_eq]⟩
  · exact ⟨⟨fun _ => rfl, by simp [state_eq], by simp [state_eq], by simp [state_eq], fun _ => some_credit⟩, by simp [state_eq]⟩

theorem goLive_state (s : Station) (limitBefore : Nat) : (s.goLive limitBefore).line.state = .listen := by
  have entered : s.enterListen.line.state = .listen := by
    unfold Station.enterListen
    rw [(sendMasks_line_audit _).1]
    exact state_of_kept (queueDeclare_kept _) (by decide)
  exact (state_of_kept (startCooling_kept s.enterListen limitBefore) (by decide)).trans entered

theorem goLive_kept (s : Station) (limitBefore : Nat) :
    Kept [.line, .lineQueue, .coinLink, .cooling, .meters, .power] s (s.goLive limitBefore) := by
  have entered := ((enterListen_kept s).mono (m := [.line, .lineQueue, .coinLink, .cooling, .meters, .power]) (by decide)).trans
    ((startCooling_kept _ limitBefore).mono (by decide))
  refine entered.trans fun r _ => ?_
  cases r <;> rfl

/-- R127: a station that goes live runs; its records are those it had. -/
theorem goLive_law (records : MoneyRecords s) (start : s.start = .none) (limitBefore : Nat) : MoneyLaw (s.goLive limitBefore) := by
  have kept := goLive_kept s limitBefore
  have running : (s.goLive limitBefore).running = true := by
    unfold Station.running
    rw [goLive_state]
    rfl
  have start_eq : (s.goLive limitBefore).start = s.start := congrArg Prod.fst (kept .setup (by decide))
  exact (moneyLaw_iff _).mpr
    ⟨records.congr (kept .txn (by decide)) (kept .payout (by decide)), atRest_of_running running (start_eq.trans start)⟩

theorem buildCold_payout (s : Station) (c : Settings) (mem : Memory) (inp : LoadInputs) :
    (s.buildCold c mem inp).payout = s.payout := by
  unfold Station.buildCold
  split
  · rfl
  · exact raise_kept _ _ .payout (by decide)

/-- R198: the load event of a station at rest. -/
theorem load_law (law : MoneyLaw s) (still : s.running = false) (mem : Memory) (inp : LoadInputs) :
    MoneyLaw (s.load mem inp) := by
  have resting := Resting.of_law law still
  have records := ((moneyLaw_iff s).mp law).1
  unfold Station.load
  dsimp only
  split
  · refine goLive_law ?_ rfl _
    have payout_eq : ∀ c, (if s.readsBlock then s.buildCold c mem inp else s).payout = s.payout := by
      intro c
      split
      · exact buildCold_payout s c mem inp
      · rfl
    obtain ⟨sound, unpaid⟩ := startTxn_sound (settingsOf (Memory.readFrom mem 0 380))
      (if s.readsBlock then s.buildCold (settingsOf (Memory.readFrom mem 0 380)) mem inp else s).txn.lastTag
      (if s.readsBlock then s.buildCold (settingsOf (Memory.readFrom mem 0 380)) mem inp else s).txn.credit
    refine ⟨sound, ?_, ⟨fun _ => unpaid, fun _ => ?_⟩⟩
    · exact (payout_eq _).symm ▸ records.payout
    · exact (congrArg Payout.state (payout_eq _)).trans resting.payout
  · have invalid : Resting s.loadInvalid := resting.plain rfl
    exact (moneyLaw_iff _).mpr ⟨records.congr rfl rfl, invalid.atRest⟩

end Starts

section Submissions

variable {s : Station}

/-! ### Service commands (R192) -/

theorem running_of_serviceMode (mode : s.serviceMode = true) : s.running = true := by
  simp only [Station.serviceMode, Bool.and_eq_true] at mode
  exact mode.1

theorem runService_carries (running : s.running = true) (c : ServiceCommand) : Carries 0 s (s.runService c) := by
  by_cases restarts : c = .restart
  · rw [restarts]
    exact warmReset_carries s
  · exact .of_running running (runService_moves s restarts)

theorem Carries.after_moves {taken : Nat} {t u : Station} (running : s.running = true) (moves : Moves s t)
    (k : Carries taken t u) : Carries taken s u := by
  simpa using (Carries.of_running running moves).trans k

theorem submit_carries (s : Station) (c : ServiceCommand) : Carries 0 s (s.submit c) := by
  unfold Station.submit
  split
  · rename_i mode
    have running := running_of_serviceMode mode
    exact .after_moves running (.plain rfl) (runService_carries (s := s.serviceKey.submitted) running c)
  · exact .refl s

theorem restart_carries (s : Station) : Carries 0 s s.restart := by
  unfold Station.restart
  split
  · exact warmReset_carries s
  · exact submit_carries s _

theorem submitEntry_carries (running : s.running = true) : Carries 0 s s.submitEntry := by
  have submitted : Moves s s.submitted := .plain rfl
  unfold Station.submitEntry
  split
  · exact .after_moves running submitted (runService_carries (s := s.submitted) running _)
  · exact .of_running running (submitted.trans (showService_moves _ _))

theorem keyEnt_carries (s : Station) : Carries 0 s (s.key id Station.submitEntry) := by
  unfold Station.key
  split
  · exact .of_moves (.plain rfl) fun r => r.plain rfl
  · split
    · rename_i mode
      have running := running_of_serviceMode mode
      exact .after_moves running (.plain rfl) (submitEntry_carries (s := s.serviceKey) running)
    · exact .refl s

end Submissions

section Shapes

variable {s : Station}

/-! ### The shapes of the meanings -/

/-- A body that touches nothing of the money and nothing of what a station at rest is without. -/
theorem Carries.plain {t : Station} (money : ledger t = ledger s) (rest : restBasis t = restBasis s) : Carries 0 s t :=
  .of_moves (.plain money) fun r => r.plain rest

/-- An expiry of a timer that does not run at rest. -/
theorem Carries.expire_off {runs : Bool} {length elapsed : Nat} {effect : Station → Station}
    (moves : runs = true → Moves (s.advanceTo length elapsed) (effect (s.advanceTo length elapsed)))
    (off : Resting s → runs = false) : Carries 0 s (expire runs length elapsed effect s) :=
  .of_moves (expire_moves s moves) fun r => r.expire_off (off r)

/-- An expiry whose effect leaves a station at rest at rest. -/
theorem Carries.expire_on {runs : Bool} {length elapsed : Nat} {effect : Station → Station}
    (moves : runs = true → Moves (s.advanceTo length elapsed) (effect (s.advanceTo length elapsed)))
    (rests : ∀ t, Resting t → Resting (effect t)) : Carries 0 s (expire runs length elapsed effect s) :=
  .of_moves (expire_moves s moves) fun r => r.expires rests

/-- A body that acts where a condition holds that does not hold at rest. -/
theorem Carries.guarded {c : Bool} {t : Station} (moves : Moves s t) (off : Resting s → c = false) :
    Carries 0 s (if c then t else s) :=
  .of_moves (.ite moves (.refl s)) fun r => r.guarded (off r)

theorem takeFrame_carries (s : Station) (ok : Bool) (src dst : Nat) (apply : Peer → Peer) {windowed handoff : Station → Station}
    (hw : ∀ t, Moves t (windowed t)) (hh : ∀ t, Moves t (handoff t)) :
    Carries 0 s (s.takeFrame ok src dst apply windowed handoff) :=
  .of_moves (takeFrame_moves s ok src dst apply hw hh) fun r => by rwa [r.takeFrame]

theorem key_carries (s : Station) {customer technician : Station → Station} (hc : ∀ t, Moves t (customer t))
    (ht : ∀ t, Moves t (technician t)) : Carries 0 s (s.key customer technician) :=
  .of_moves (key_moves s hc ht) fun r => r.key _ _

theorem heartbeatSent_moves (l : Line) (same : l.state = s.line.state) : Moves s ({ s with line := l } : Station).queueHeartbeat := by
  refine .trans ?_ (hand_moves _ _ _)
  exact .plain (by simp [ledger, Station.running, Station.gone, same])

theorem declareSent_moves (l : Line) (same : l.state = s.line.state) : Moves s ({ s with line := l } : Station).queueDeclare := by
  refine .trans ?_ (hand_moves _ _ _)
  exact .plain (by simp [ledger, Station.running, Station.gone, same])

theorem Resting.vendIn (r : Resting s) (phase : VendPhase) : s.vendIn phase = false := by simp [Station.vendIn, r.vend]

theorem Resting.awaiting (r : Resting s) (payer : Payer) (tag : Nat) : s.awaiting payer tag = none := by
  simp [Station.awaiting, r.queue]

end Shapes

section Timers

variable {s : Station}

/-! ### The timers of the payout and of the transaction -/

theorem advance_payout_phase (s : Station) (d : Nat) : (s.advance d).payout.phase = s.payout.phase := by
  unfold Station.advance
  split <;> rfl

theorem advance_txn_state (s : Station) (d : Nat) : (s.advance d).txn.state = s.txn.state := by
  unfold Station.advance
  split <;> rfl

/-- R99: the confirmation window of a coin passes. -/
theorem missCoin_moves (coin : s.payout.phase = .pulse) : Moves s s.missCoin :=
  .of_settles (missCoin_kept s) (missCoin_steady s) (by decide) fun lawful =>
    missCoin_settles lawful (lawful.payout.coin (by simp [coin]))

/-- R96: the pause after a miss passes. -/
theorem pauseEnds_moves (coin : s.payout.phase = .pause) : Moves s s.nextCoin :=
  .of_settles (nextCoin_kept s) (nextCoin_steady s) (by decide) fun lawful =>
    (PayingOut.of_running lawful (lawful.payout.coin (by simp [coin]))).nextCoin

/-- R63: a COIN message of a station whose coin unit works. -/
theorem takeCoin_carries (works : s.coinUnitWorks = true) (coinType : Nat) (path : CoinPath) :
    Carries (s.coinTypeOf coinType).value s (s.takeCoin coinType path) := by
  intro law
  obtain ⟨records, starting, -⟩ := (moneyLaw_iff s).mp law
  obtain ⟨records', balanced⟩ := takeCoin_balanced s coinType path records
  have running : s.running = true := by
    simp only [Station.coinUnitWorks, Bool.and_eq_true] at works
    exact works.1
  obtain ⟨-, -, -, running_eq, -⟩ := (takeCoin_steady s coinType path).fields
  have start_eq : (s.takeCoin coinType path).start = s.start := congrArg Prod.fst (takeCoin_kept .setup (by decide))
  have no_start := start_none_of_running starting running
  exact ⟨(moneyLaw_iff _).mpr ⟨records', atRest_of_running (running_eq.trans running) (start_eq.trans no_start)⟩, balanced⟩

theorem coin_carries (s : Station) (coinType : Nat) (path : CoinPath) :
    Carries (s.takenValue (.coin coinType path)) s
      (if s.coinUnitWorks && coinTypeOk coinType then s.takeCoin coinType path else s) := by
  cases takes : s.coinUnitWorks && coinTypeOk coinType with
  | false =>
    have nothing : s.takenValue (.coin coinType path) = 0 := by simp only [Station.takenValue, takes]; rfl
    rw [nothing]
    exact .refl s
  | true =>
    have value : s.takenValue (.coin coinType path) = (s.coinTypeOf coinType).value := by
      simp only [Station.takenValue, takes]
      rfl
    rw [value]
    exact takeCoin_carries (Bool.and_eq_true_iff.mp takes).1 coinType path

end Timers

section Commands

/-! ### Each command (R109) -/

/-- No command but the starts and the halt: by the commands' own rules. -/
theorem exec_carries (c : Instr) (h : special c = false) (s : State) :
    ∃ b, exec c s = .next { s with station := finish s.station b } ∧ Carries (s.station.takenValue c) s.station b := by
  cases c with
  | powerOn => cases h
  | resetInput => cases h
  | loadEvent inp => cases h
  | powerFailWarning => cases h
  | savedBlockWritten complete => cases h
  | doorOpens held =>
    exact ⟨_, rfl, .of_moves (ifHeld_moves _ (.ite (openDoor_moves _) (.refl _))) fun r => r.held (.ite r.openDoor r)⟩
  | doorCloses held =>
    exact ⟨_, rfl, .of_moves (ifHeld_moves _ (.ite (closeDoor_moves _) (.refl _))) fun r => r.held (.ite r.closeDoor r)⟩
  | doorLeftOpen => exact ⟨_, rfl, .expire_on (fun _ => .plain rfl) fun _ r => r.plain rfl⟩
  | claimTimerExpiry => exact ⟨_, rfl, .expire_off (fun _ => endVend_moves _ _) fun r => r.vendIn _⟩
  | homeOpens held =>
    exact ⟨_, rfl, .of_moves (ifHeld_moves _ (.ite (onVend_moves _ fun v => homeOpens_moves _ v) (.refl _))) fun r =>
      r.held (r.guarded r.motorOn)⟩
  | homeCloses held =>
    exact ⟨_, rfl, .of_moves (ifHeld_moves _ (.ite (onVend_moves _ fun v => homeCloses_moves _ v) (.refl _))) fun r =>
      r.held (r.guarded r.motorOn)⟩
  | leaveHomeTimerExpiry => exact ⟨_, rfl, .expire_off (fun _ => endVend_moves _ _) fun r => r.vendIn _⟩
  | revolutionTimerExpiry => exact ⟨_, rfl, .expire_off (fun _ => endVend_moves _ _) fun r => r.vendIn _⟩
  | dropWindowExpiry =>
    exact ⟨_, rfl, .expire_off (fun _ => onVend_moves _ fun v => windowEnds_moves _ v) fun r => r.vendIn _⟩
  | jam currents =>
    exact ⟨_, rfl, .of_moves (ifFound_moves _ currents fun t => onVend_moves t fun v => jamTaken_moves t v) fun r =>
      r.ifFound _ _ fun _ k => k.onVend _⟩
  | shortCheck currents =>
    exact ⟨_, rfl, .of_moves (ifFound_moves _ currents fun t => endVend_moves t _) fun r => r.ifFound _ _ fun _ k => k.endVend _⟩
  | openCheck currents =>
    exact ⟨_, rfl, .of_moves (ifFound_moves _ currents fun t => endVend_moves t _) fun r => r.ifFound _ _ fun _ k => k.endVend _⟩
  | reversePauseEnd => exact ⟨_, rfl, .expire_off (fun _ => onVend_moves _ fun _ => vend_moves _ _) fun r => r.vendIn _⟩
  | reversingTimerExpiry => exact ⟨_, rfl, .expire_off (fun _ => onVend_moves _ fun _ => vend_moves _ _) fun r => r.vendIn _⟩
  | forwardPauseEnd => exact ⟨_, rfl, .expire_off (fun _ => energise_moves _) fun r => r.vendIn _⟩
  | dropEdge => exact ⟨_, rfl, .of_moves (.ite (beamBlocks_moves _) (.refl _)) fun r => .ite r.beamBlocks r⟩
  | beamClears => exact ⟨_, rfl, .of_moves (.ite (.plain rfl) (.refl _)) fun r => .ite (r.plain rfl) r⟩
  | chuteActivityRateEnd => exact ⟨_, rfl, .expire_on (fun _ => .plain rfl) fun _ r => r.plain rfl⟩
  | chuteFault => exact ⟨_, rfl, .expire_on (fun _ => chuteFaultBegins_moves _) fun _ r => r.chuteFaultBegins⟩
  | chuteFaultClear => exact ⟨_, rfl, .expire_on (fun _ => .plain rfl) fun _ r => r.plain rfl⟩
  | commitTimerExpiry payer tag =>
    refine ⟨_, rfl, ?_⟩
    dsimp only
    split
    · rename_i waiting
      exact .of_moves ((advance_moves _ _).trans (.plain rfl)) fun r => absurd ((r.awaiting _ _).symm.trans waiting) (Option.some_ne_none _).symm
    · exact .refl _
  | offer src dst tag tray column =>
    refine ⟨_, rfl, takeFrame_carries _ _ _ _ _ .refl fun t => ?_⟩
    have offered := queueOffer_moves t (.peer src) tag tray column
    unfold Station.takeOffer
    split <;> rename_i answered <;> rw [answered] at offered <;> exact offered.trans (hand_moves _ _ _)
  | commit src dst tag price =>
    refine ⟨_, rfl, takeFrame_carries _ _ _ _ _ .refl fun t => ?_⟩
    have committed := queueCommit_moves t (.peer src) tag price
    unfold Station.takeCommit
    split <;> rename_i answered <;> rw [answered] at committed
    · exact committed.trans (hand_moves _ _ _)
    · exact committed
  | withdraw src dst tag => exact ⟨_, rfl, takeFrame_carries _ _ _ _ _ .refl fun _ => .plain rfl⟩
  | accept src dst tag price queuePos =>
    exact ⟨_, rfl, takeFrame_carries _ _ _ _ _ .refl fun t => takeAccept_moves t _ _ _ _⟩
  | refuse src dst tag reason => exact ⟨_, rfl, takeFrame_carries _ _ _ _ _ .refl fun t => takeRefuse_moves t _ _ _⟩
  | result src dst tag outcome drops =>
    exact ⟨_, rfl, takeFrame_carries _ _ _ _ _ .refl fun t => takeResult_moves t _ _ _ _⟩
  | claim src dst cls rank value scale =>
    exact ⟨_, rfl, takeFrame_carries _ _ _ _ _ (fun t => recordClaim_moves t _ _ _) .refl⟩
  | release src dst cls => exact ⟨_, rfl, takeFrame_carries _ _ _ _ _ .refl .refl⟩
  | declare src dst fields =>
    have framed := takeFrame_moves s.station (declareOk src dst fields) src dst (applyDeclare fields) .refl .refl
    refine ⟨_, rfl, .of_moves (.ite (framed.trans (scheduleDeclare_moves _)) framed) fun r => ?_⟩
    dsimp only
    rw [r.takeFrame]
    exact r.guarded (by simp [Station.declareAnswered, r.still])
  | heartbeat src dst fields => exact ⟨_, rfl, takeFrame_carries _ _ _ _ _ .refl .refl⟩
  | audit src dst block content => exact ⟨_, rfl, takeFrame_carries _ _ _ _ _ .refl .refl⟩
  | auditQuery src dst block => exact ⟨_, rfl, .of_moves (takeQuery_moves _ _ _ _) fun r => r.takeQuery _ _ _⟩
  | auditQueryJournal src dst block => exact ⟨_, rfl, .of_moves (takeQuery_moves _ _ _ _) fun r => r.takeQuery _ _ _⟩
  | badFrame bits => exact ⟨_, rfl, .of_moves (.ite (.plain rfl) (.refl _)) fun r => .ite (r.plain rfl) r⟩
  | transmitStart recessive => exact ⟨_, rfl, .of_moves (.ite (.plain rfl) (.refl _)) fun r => .ite (r.plain rfl) r⟩
  | lostContention head => exact ⟨_, rfl, .of_moves (.ite (.plain rfl) (.refl _)) fun r => .ite (r.plain rfl) r⟩
  | transmitError => exact ⟨_, rfl, .of_moves (.ite (transmitError_moves _) (.refl _)) fun r => .ite r.transmitError r⟩
  | brxDominant held => exact ⟨_, rfl, .of_moves (ifHeld_moves _ lineFault_moves) fun r => r.held r.lineFault⟩
  | frameSent => exact ⟨_, rfl, .of_moves (.ite (frameSent_moves _) (.refl _)) fun r => .ite r.frameSent r⟩
  | listenTimerExpiry =>
    exact ⟨_, rfl, .expire_off
      (fun listens => endListen_moves (running_of_advance _ (by simp_all [Station.running, LineState.running])))
      fun r => decide_eq_false (r.not_state rfl)⟩
  | silenceTimerExpiry =>
    exact ⟨_, rfl, .expire_off
      (fun active => enterIsolated_moves (running_of_advance _ (by simp_all [Station.active, Station.running, LineState.running])) _)
      fun r => by simp [r.active]⟩
  | heartbeatTimerExpiry => exact ⟨_, rfl, .expire_off (fun _ => heartbeatSent_moves _ rfl) fun r => r.beats⟩
  | probeTimerExpiry =>
    exact ⟨_, rfl, .expire_off (fun _ => heartbeatSent_moves _ rfl) fun r => decide_eq_false (r.not_state rfl)⟩
  | declareTimerExpiry => exact ⟨_, rfl, .expire_off (fun _ => declareSent_moves _ rfl) fun r => r.beats⟩
  | declareDelayExpiry =>
    exact ⟨_, rfl, .expire_off (fun _ => declareSent_moves _ rfl) fun r => by simp [r.beats]⟩
  | peerSilent address =>
    refine ⟨_, rfl, ?_⟩
    dsimp only
    split
    · exact .expire_off (fun _ => agePeer_moves _ _ _ _) fun r => r.still
    · exact .refl _
  | peerGone address =>
    refine ⟨_, rfl, ?_⟩
    dsimp only
    split
    · exact .expire_off (fun _ => (agePeer_moves _ _ _ _).trans (raise_moves _ _)) fun r => r.still
    · exact .refl _
  | windowTimerExpiry =>
    refine ⟨_, rfl, ?_⟩
    dsimp only
    split
    · rename_i waiting
      refine .of_moves (expire_moves _ fun _ => ?_) fun r => absurd ((r.requestIn _).symm.trans waiting) (Option.some_ne_none _).symm
      unfold Station.windowEndsNow
      split
      · exact decideWindow_moves _ _
      · exact .refl _
    · exact .refl _
  | backoffTimerExpiry cls =>
    refine ⟨_, rfl, ?_⟩
    dsimp only
    split
    · rename_i waiting
      exact .of_moves (expire_moves _ fun _ => power_moves _ _) fun r =>
        absurd ((r.requestOf _).symm.trans waiting) (Option.some_ne_none _).symm
    · exact .refl _
  | starved cls =>
    refine ⟨_, rfl, ?_⟩
    dsimp only
    split
    · rename_i waiting
      exact .of_moves (expire_moves _ fun _ => power_moves _ _) fun r =>
        absurd ((r.requestOf _).symm.trans waiting) (Option.some_ne_none _).symm
    · exact .refl _
  | coin coinType path => exact ⟨_, rfl, coin_carries _ _ _⟩
  | reject => exact ⟨_, rfl, .guarded ((writeJournal_moves _ _).trans (.plain rfl)) fun r => r.coinUnit⟩
  | fault code => exact ⟨_, rfl, .guarded (.plain rfl) fun r => by simp [r.coinUnit]⟩
  | status condition => exact ⟨_, rfl, .guarded (takeStatus_moves _ _) fun r => by simp [r.coinUnit]⟩
  | statusTimerExpiry => exact ⟨_, rfl, .expire_off (fun _ => .ite (.refl _) (.plain rfl)) fun r => r.coinUnit⟩
  | transmitterFree => exact ⟨_, rfl, .plain rfl rfl⟩
  | tubeSensorChange tube sensor asserted held =>
    exact ⟨_, rfl, .of_moves (ifHeld_moves _ (.ite (setTube_moves _ _ _) (.refl _))) fun r =>
      r.held (r.guarded (by simp [r.coinUnit]))⟩
  | coutEdge held =>
    exact ⟨_, rfl, .of_moves (ifHeld_moves _ (.ite (coutEdge_moves _) (.refl _))) fun r => r.held (r.guarded r.still)⟩
  | pulseTimerExpiry => exact ⟨_, rfl, .expire_on (fun _ => pulseEnds_moves _) fun _ r => r.pulseEnds⟩
  | miss =>
    exact ⟨_, rfl, .expire_off
      (fun coin => missCoin_moves ((advance_payout_phase _ _).trans (of_decide_eq_true coin))) fun r => by simp [r.coin]⟩
  | pauseTimerExpiry =>
    exact ⟨_, rfl, .expire_off
      (fun coin => pauseEnds_moves ((advance_payout_phase _ _).trans (of_decide_eq_true coin))) fun r => by simp [r.coin]⟩
  | keyDigit digit =>
    have entered := key_moves s.station (customer := fun t => t.ifBufferOpen fun u => u.bufferDigit digit)
      (technician := fun t => { t with service := t.service.addDigit digit })
      (fun t => ifBufferOpen_moves t fun free => bufferDigit_moves free digit) fun _ => .plain rfl
    exact ⟨_, rfl, .of_moves (.ite entered (.refl _)) fun r => .ite (r.key _ _) r⟩
  | keyCab =>
    exact ⟨_, rfl, key_carries _ (fun t => .ite (ifBufferOpen_moves t fun _ => .plain rfl) (.refl t)) .refl⟩
  | keyClr => exact ⟨_, rfl, key_carries _ (fun t => ifBufferOpen_moves t fun _ => .plain rfl) fun _ => .plain rfl⟩
  | keyRet =>
    exact ⟨_, rfl, key_carries _
      (fun t => .ite ((ifBufferOpen_moves t fun _ => .plain rfl).trans (returnKey_moves _)) (.refl t)) .refl⟩
  | keyNext => exact ⟨_, rfl, key_carries _ .refl fun _ => .plain rfl⟩
  | keyPrev => exact ⟨_, rfl, key_carries _ .refl fun _ => .plain rfl⟩
  | keyEnt => exact ⟨_, rfl, keyEnt_carries _⟩
  | bufferTimeout => exact ⟨_, rfl, .expire_on (fun _ => .plain rfl) fun _ r => r.plain rfl⟩
  | entryTimeout => exact ⟨_, rfl, .expire_on (fun _ => .plain rfl) fun _ r => r.plain rfl⟩
  | answerTimerExpiry =>
    refine ⟨_, rfl, .expire_off (fun runs => answerTimer_moves ?_) fun r => by simp [r.asking]⟩
    simp only [Bool.and_eq_true, decide_eq_true_eq] at runs
    exact (advance_txn_state _ _).trans runs.1.2
  | resultTimerExpiry =>
    refine ⟨_, rfl, .expire_off (fun runs => resultTimer_moves ?_) fun r => by simp [r.committed]⟩
    simp only [Bool.and_eq_true, decide_eq_true_eq] at runs
    exact (advance_txn_state _ _).trans runs.1.2
  | inactivityTimeout =>
    refine ⟨_, rfl, .expire_on (fun runs => forfeit_moves ?_) fun _ r => r.forfeit⟩
    simp only [Bool.and_eq_true, decide_eq_true_eq] at runs
    exact (advance_txn_state _ _).trans runs.1.2
  | messageTimeEnd => exact ⟨_, rfl, .expire_on (fun _ => .plain rfl) fun _ r => r.plain rfl⟩
  | displayAlternation => exact ⟨_, rfl, .expire_on (fun _ => .plain rfl) fun _ r => r.plain rfl⟩
  | lampFlash => exact ⟨_, rfl, .expire_on (fun _ => .plain rfl) fun _ r => r.plain rfl⟩
  | sensorSample sensor code => exact ⟨_, rfl, .expire_off (fun _ => takeSample_moves _ _ _) fun r => by simp [r.coolingOn]⟩
  | minimumOffTimeEnd => exact ⟨_, rfl, .expire_off (fun _ => leaveRest_moves _) fun r => by simp [r.compressor]⟩
  | inrushEnd =>
    exact ⟨_, rfl, .expire_off (fun _ => (setCooling_moves _ _).trans (request_moves _ _ _)) fun r => by simp [r.compressor]⟩
  | minimumOnTimeEnd =>
    exact ⟨_, rfl, .expire_off (fun _ => .ite (normalStop_moves _) (.refl _)) fun r => by simp [r.compressor]⟩
  | runHour => exact ⟨_, rfl, .expire_off (fun _ => .plain rfl) fun r => by simp [r.compressor, r.coolingOn]⟩
  | lockoutTimerExpiry => exact ⟨_, rfl, .expire_off (fun _ => enterRest_moves _) fun r => by simp [r.compressor]⟩
  | dutyTimerExpiry => exact ⟨_, rfl, .expire_off (fun _ => changeDuty_moves _) fun r => by simp [r.coolingOn]⟩
  | runTime =>
    exact ⟨_, rfl, .expire_off (fun _ => (setCooling_moves _ _).trans (causeMet_moves _ _)) fun r => by
      simp [Station.runTimeDue, r.coolingOn]⟩
  | coilIce =>
    exact ⟨_, rfl, .expire_off (fun _ => (setCooling_moves _ _).trans (causeMet_moves _ _)) fun r => by simp [r.icing]⟩
  | heaterWaitTimerExpiry =>
    exact ⟨_, rfl, .expire_off (fun _ => (setCooling_moves _ _).trans (withdrawRequest_moves _ _)) fun r => by simp [r.phase]⟩
  | defrostTimerExpiry =>
    exact ⟨_, rfl, .expire_off (fun _ => terminateDefrost_moves _) fun r => by simp [r.phase, DefrostPhase.melting]⟩
  | dripTimerExpiry =>
    exact ⟨_, rfl, .expire_off (fun _ => (setCooling_moves _ _).trans (enterRest_moves _)) fun r => by simp [r.phase]⟩
  | coldHold => exact ⟨_, rfl, .expire_off (fun _ => beginColdHold_moves _) fun r => r.holdRuns⟩
  | ackAttention => exact ⟨_, rfl, submit_carries _ _⟩
  | ackHold => exact ⟨_, rfl, submit_carries _ _⟩
  | fillTube tube count => exact ⟨_, rfl, submit_carries _ _⟩
  | emptyTube tube => exact ⟨_, rfl, submit_carries _ _⟩
  | clearTube tube => exact ⟨_, rfl, submit_carries _ _⟩
  | refill => exact ⟨_, rfl, submit_carries _ _⟩
  | clearSpiral position => exact ⟨_, rfl, submit_carries _ _⟩
  | testVend position => exact ⟨_, rfl, submit_carries _ _⟩
  | manualDefrost => exact ⟨_, rfl, submit_carries _ _⟩
  | clearCompressor => exact ⟨_, rfl, submit_carries _ _⟩
  | forgetPeers => exact ⟨_, rfl, submit_carries _ _⟩
  | restart => exact ⟨_, rfl, restart_carries _⟩
  | showAudit item => exact ⟨_, rfl, submit_carries _ _⟩

theorem loadEvent_law (inp : LoadInputs) {s t : State} (law : MoneyLaw s.station) (h : exec (.loadEvent inp) s = .next t) :
    MoneyLaw t.station := by
  change execLoadEvent inp s = .next t at h
  unfold execLoadEvent at h
  split at h <;> obtain rfl := Host.Outcome.next.inj h
  · exact law
  · obtain ⟨-, starting, -⟩ := (moneyLaw_iff s.station).mp law
    exact (finish_carries s.station _ (load_law law (starting ‹_›) _ inp)).1

theorem coldStart_law (s : State) : MoneyLaw (coldStart s).station := by
  have station_eq : (coldStart s).station = finish s.station s.station.coldReset := by
    unfold coldStart
    rfl
  rw [station_eq]
  exact (finish_carries _ _ (coldReset_law _)).1

/-- The commands that are no start carry the money. -/
theorem command_carries (c : Instr) {s t : State} (power : c ≠ .powerOn) (reset : c ≠ .resetInput)
    (load : ∀ inp, c ≠ .loadEvent inp) (h : exec c s = .next t) : Carries (s.station.takenValue c) s.station t.station := by
  cases hs : special c with
  | false =>
    obtain ⟨b, executed, carries⟩ := exec_carries c hs s
    rw [executed] at h
    obtain rfl := Host.Outcome.next.inj h
    exact carries.finished s.station
  | true =>
    cases c with
    | powerOn => exact absurd rfl power
    | resetInput => exact absurd rfl reset
    | loadEvent inp => exact absurd rfl (load inp)
    | powerFailWarning =>
      rcases powerFailWarning_cases s with executed | executed | executed <;> rw [executed] at h <;>
        obtain rfl := Host.Outcome.next.inj h
      · exact .refl _
      · have counted : Carries 0 s.station.halt s.station.halt.countWrite := .plain rfl rfl
        exact ((halt_carries s.station).trans counted).finished s.station
      · rw [event_station]
        exact (halt_carries s.station).finished s.station
    | savedBlockWritten complete =>
      rcases savedBlockWritten_cases complete s with executed | ⟨_, _, executed⟩ <;> rw [executed] at h <;>
        obtain rfl := Host.Outcome.next.inj h <;> exact .refl _
    | _ => cases hs

/-- Every command leaves a lawful station lawful. -/
theorem command_law (c : Instr) {s t : State} (law : MoneyLaw s.station) (h : exec c s = .next t) : MoneyLaw t.station := by
  by_cases power : c = .powerOn
  · subst power
    obtain rfl := Host.Outcome.next.inj h
    exact coldStart_law s
  · by_cases reset : c = .resetInput
    · subst reset
      rcases resetInput_cases s with executed | executed <;> rw [executed] at h <;> obtain rfl := Host.Outcome.next.inj h
      · exact coldStart_law s
      · rw [event_station]
        exact ((warmReset_carries s.station).finished s.station law).1
    · by_cases load : ∃ inp, c = .loadEvent inp
      · obtain ⟨inp, rfl⟩ := load
        exact loadEvent_law inp law h
      · exact (command_carries c power reset (fun inp loaded => load ⟨inp, loaded⟩) h law).1

/-- Every step leaves a lawful station lawful: a command, or a millisecond that passes. -/
theorem step_law {s t : State} (law : MoneyLaw s.station) (h : step s = .next t) : MoneyLaw t.station := by
  cases waiting : s.pending with
  | nil =>
    rw [step_idle s waiting] at h
    obtain rfl := Host.Outcome.next.inj h
    rw [event_station]
    have passed : Carries 0 s.station (s.station.advance 1) := .of_moves (advance_moves _ 1) fun r => r.advance 1
    exact (passed.finished s.station law).1
  | cons c rest =>
    have executed : exec c (s.withPending rest) = .next t := by
      rw [← h, step, waiting]
    exact command_law c (s := s.withPending rest) law executed

/-- Settles O60: a plan draws on usable tubes within their estimates (`payoutPlan_sound`), every step keeps the law of the money
(`step_law`), and a command that is no start moves money without making or losing any (`command_carries`). -/
theorem payoutPlansAreSound : Obligations.PayoutPlansAreSound := by
  unfold Obligations.PayoutPlansAreSound
  refine ⟨payoutPlan_sound, fun s t law stepped => step_law law stepped, ?_⟩
  intro c s t law power reset load small executed
  exact (command_carries c power reset load executed law).2 small

end Commands

end Sys2Proof.Proofs

/-! SUPPORT. The payout unit's coin (O45, O46): the rules of its operations over the records (R95, R96, R97, R100), the end of a
payout over its event (R101, R122), and what a COUT edge and the three timers of a coin do, each over the event that it is. -/

namespace Sys2Proof.Proofs

open Sys2Proof.Machine Sys2Proof.Laws

section Ended

/-! ### The end of a payout over its event (R101, R122) -/

variable {s u w t : Station}

theorem finish_payout (o s : Station) : (finish o s).payout = s.payout := finish_same o s .payout

theorem finish_txn (o s : Station) : (finish o s).txn = s.txn := finish_same o s .txn

theorem finish_tubes (o s : Station) : (finish o s).coin.tubes = s.coin.tubes := finish_same o s .tubes

theorem payoutEnded_of_saleKept {remainder : Nat} (h : PayoutEnded u w remainder) (k : SaleKept w t) :
    PayoutEnded u t remainder := by
  unfold PayoutEnded at h ⊢
  rw [k.txn, k.payout, k.shortPays, k.active, k.pending]
  exact h

/-- R101, R122: a payout that ends in `w` has ended for `u`, where the credit, the counter and a free place of the latch are
those of `u`. -/
theorem finish_endPayout_ended (o : Station) (credit : w.txn.credit = u.txn.credit)
    (shortPays : w.audit.shortPayValue = u.audit.shortPayValue)
    (free : u.faults.active = none → u.faults.pendingNotice = none →
      w.faults.active = none ∨ w.faults.pendingNotice = none) :
    PayoutEnded u (finish o w.endPayout) (w.payout.amount - w.payout.paid) := by
  have origin : ReturnFrom { u with
      payout := w.payout, coin := w.coin, faults := { u.faults with doorOpen := w.faults.doorOpen } } w :=
    ⟨rfl, rfl, rfl, shortPays, free⟩
  exact payoutEnded_of_saleKept (endPayout_ended origin w.payout credit) (finish_saleKept o _)

/-- The counters of the coins paid out are among those of their blocks. -/
theorem coinOutCounters_of_owned {a b : Audit} (h : a.owned = b.owned) :
    a.payoutValue = b.payoutValue ∧ a.countUnderrun = b.countUnderrun :=
  ⟨(congrArg Audit.payoutValue h : a.owned.payoutValue = b.owned.payoutValue),
    (congrArg Audit.countUnderrun h : a.owned.countUnderrun = b.owned.countUnderrun)⟩

theorem raise_coinOutCounters (s : Station) (n : Notice) :
    (s.raise n).audit.payoutValue = s.audit.payoutValue ∧ (s.raise n).audit.countUnderrun = s.audit.countUnderrun :=
  coinOutCounters_of_owned (raise_kept s n .counters (by decide))

/-- R101, R122: what is not paid counts as short-paid, never as paid out. -/
theorem endPayout_coinOutCounters (s : Station) :
    s.endPayout.audit.payoutValue = s.audit.payoutValue ∧ s.endPayout.audit.countUnderrun = s.audit.countUnderrun := by
  unfold Station.endPayout Station.payoutDone
  dsimp only
  split
  · exact ⟨rfl, rfl⟩
  · exact raise_coinOutCounters _ _

/-- An active notice is still active after the end of a payout (R188). -/
theorem endPayout_active {n : Notice} (h : s.faults.active = some n) : s.endPayout.faults.active = some n := by
  rcases endPayout_mayShortPay s with kept | ⟨remainder, raised⟩
  · exact (congrArg Prod.fst kept).trans h
  · obtain ⟨-, occupied⟩ := raise_noticeTaken s (.shortPay remainder)
    obtain ⟨active, -⟩ := occupied (by simp [h])
    exact ((congrArg Prod.fst raised).trans active).trans h

end Ended

section Coin

/-! ### A run and a coin begun (R95, R96) -/

variable {s : Station} {run : PlanEntry} {tube : Nat}

/-- R95, R96: the tube of a coin. -/
def coinTube (s : Station) (run : PlanEntry) (tube : Nat) : Nat := if s.payout.attempt = 2 then tube else stepTube s run tube

theorem beginCoin_of_run (current : currentRun s.payout.plan = some run) (standing : s.payout.currentTube = some tube) :
    s.beginCoin = { s with payout := { s.payout with
      currentTube := some (coinTube s run tube), phase := .pulse, pulseOn := some (coinTube s run tube)
      pulseTimer := 0, windowTimer := 0 } } := by
  unfold Station.beginCoin
  rw [current, standing]
  rfl

theorem nextCoin_of_off (off : s.payout.pulseOn = none) : s.nextCoin = s.beginCoin := by
  unfold Station.nextCoin
  rw [off]

/-- The beginning of a run takes its current tube alone. -/
theorem beginRun_shape (s : Station) : ∃ tube, s.beginRun = { s with payout := { s.payout with currentTube := tube } } := by
  unfold Station.beginRun
  split <;> exact ⟨_, rfl⟩

/-- R80, R95, R100: the plan for the unpaid rest. -/
theorem takePlan_shape (s : Station) : ∃ tube, s.takePlan = { s with payout := { s.payout with
    plan := payoutPlan s.coin.tubes (s.payout.amount - s.payout.paid), attempt := 1, phase := .none
    currentTube := tube } } := beginRun_shape _

end Coin

section Confirmed

/-! ### A coin confirmed (R97) -/

variable {s : Station} {run : PlanEntry} {tube : Nat}

/-- R97 step 2: the tubes with the coin taken. -/
def tubesWithout (s : Station) (tube : Nat) : List Tube :=
  if (s.tube tube).estimate = 0 then s.coin.tubes
  else updateAt s.coin.tubes (tube - 1) fun r => { r with estimate := r.estimate - 1 }

/-- R97 step 2: the count of coins that came from a tube counted empty. -/
def underrunWith (s : Station) (tube : Nat) : Nat :=
  if (s.tube tube).estimate = 0 then rise32 s.audit.countUnderrun 1 else s.audit.countUnderrun

theorem tubeNumberOk_of_filled (filled : (s.tube tube).estimate ≠ 0) : tubeNumberOk tube = true := by
  by_contra unnumbered
  rw [tube_blank (Bool.eq_false_iff.mpr unnumbered)] at filled
  exact filled rfl

theorem takeCoinFrom_eq (s : Station) (tube : Nat) : s.takeCoinFrom tube = { s with
    coin := { s.coin with tubes := tubesWithout s tube }
    audit := { s.audit with countUnderrun := underrunWith s tube } } := by
  unfold Station.takeCoinFrom tubesWithout underrunWith
  by_cases empty : (s.tube tube).estimate = 0
  · simp only [if_pos empty]
  · simp only [if_neg empty]
    exact if_pos (tubeNumberOk_of_filled empty)

theorem writeJournal_eq (s : Station) (e : JournalEntry) : s.writeJournal e = { s with coin := { s.coin with
    journal := journalWith s.coin.journal e, overrun := overrunWith s.coin.journal s.coin.overrun } } := by
  unfold Station.writeJournal journalWith overrunWith
  split <;> rfl

/-- R97: the station with a coin confirmed. -/
def coinConfirmed (s : Station) (tube denomination : Nat) : Station := { s with
  payout := { s.payout with
    phase := .none, attempt := 1, paid := s.payout.paid + denomination, plan := payRun s.payout.plan }
  coin := { s.coin with
    tubes := tubesWithout s tube
    journal := journalWith s.coin.journal ⟨.out, some tube, denomination, s.txn.credit⟩
    overrun := overrunWith s.coin.journal s.coin.overrun }
  audit := { s.audit with
    countUnderrun := underrunWith s tube, payoutValue := rise32 s.audit.payoutValue denomination } }

theorem confirmCoin_eq (s : Station) (tube denomination : Nat) :
    s.confirmCoin tube denomination = coinConfirmed s tube denomination := by
  unfold Station.confirmCoin
  simp only [writeJournal_eq, takeCoinFrom_eq]
  rfl

theorem afterConfirm_of_none (paid : currentRun s.payout.plan = none) (runEnded : Bool) :
    s.afterConfirm runEnded = s.endPayout := by
  unfold Station.afterConfirm
  rw [paid]

/-- R95, R97, R102: with coins still to pay the payout alone goes on, its amounts and its plan as they are; a stop pending
holds it. -/
theorem afterConfirm_of_some (current : currentRun s.payout.plan = some run) (runEnded : Bool) :
    Kept [.payout] s (s.afterConfirm runEnded) ∧
      (s.afterConfirm runEnded).payout.paid = s.payout.paid ∧ (s.afterConfirm runEnded).payout.amount = s.payout.amount ∧
      (s.afterConfirm runEnded).payout.plan = s.payout.plan ∧
      (s.payout.stop = .door → (s.afterConfirm runEnded).payout.state = .stopped) := by
  have begun : ∃ c, (if runEnded then s.beginRun else s) = { s with payout := { s.payout with currentTube := c } } := by
    split
    · exact beginRun_shape s
    · exact ⟨_, rfl⟩
  obtain ⟨c, begun_eq⟩ := begun
  unfold Station.afterConfirm
  rw [current]
  dsimp only
  rw [begun_eq]
  have tubed := payout_kept s { s.payout with currentTube := c }
  split
  · exact ⟨tubed.trans (stopPayout_kept _), rfl, rfl, rfl, fun _ => rfl⟩
  · rename_i unstopped
    obtain ⟨-, amount_eq, paid_eq, -, plan_eq⟩ := nextCoin_ledger { s with payout := { s.payout with currentTube := c } }
    exact ⟨tubed.trans (nextCoin_kept _), paid_eq, amount_eq, plan_eq, fun pending => absurd pending unstopped⟩

theorem afterConfirm_coinOutCounters (s : Station) (runEnded : Bool) :
    (s.afterConfirm runEnded).audit.payoutValue = s.audit.payoutValue ∧
      (s.afterConfirm runEnded).audit.countUnderrun = s.audit.countUnderrun := by
  cases current : currentRun s.payout.plan with
  | none =>
    rw [afterConfirm_of_none current]
    exact endPayout_coinOutCounters s
  | some run =>
    obtain ⟨kept, -⟩ := afterConfirm_of_some current runEnded
    exact coinOutCounters_of_owned (kept .counters (by decide))

theorem coutEdge_of_pulse (pulse : s.payout.phase = .pulse) (current : currentRun s.payout.plan = some run)
    (standing : s.payout.currentTube = some tube) :
    s.coutEdge = (coinConfirmed s tube run.denomination).afterConfirm (run.count = 1) := by
  unfold Station.coutEdge
  rw [pulse, current, standing]
  exact congrArg (Station.afterConfirm · _) (confirmCoin_eq s tube run.denomination)

theorem coutEdge_of_not_pulse (idle : s.payout.phase ≠ .pulse) : s.coutEdge = s := by
  unfold Station.coutEdge
  split
  · exact absurd ‹_› idle
  · rfl

/-- R97: what a confirmation books stands at the end of its event, whatever follows it. -/
theorem finish_afterConfirm_books (s o : Station) (tube denomination : Nat) (runEnded : Bool) {t : Station}
    (ended : finish o ((coinConfirmed s tube denomination).afterConfirm runEnded) = t) :
    t.audit.payoutValue = rise32 s.audit.payoutValue denomination ∧ t.audit.countUnderrun = underrunWith s tube ∧
      t.coin.journal = journalWith s.coin.journal ⟨.out, some tube, denomination, s.txn.credit⟩ ∧
      t.coin.tubes = tubesWithout s tube := by
  have after := afterConfirm_kept (coinConfirmed s tube denomination) runEnded
  obtain ⟨value, underrun⟩ := afterConfirm_coinOutCounters (coinConfirmed s tube denomination) runEnded
  have same := finish_same o ((coinConfirmed s tube denomination).afterConfirm runEnded)
  rw [ended] at same
  obtain ⟨value_eq, underrun_eq⟩ := coinOutCounters_of_owned (same .counters)
  obtain ⟨journal_eq, -⟩ := same .journal
  have tubes_eq : t.coin.tubes = _ := same .tubes
  exact ⟨value_eq.trans value, underrun_eq.trans underrun,
    journal_eq.trans (congrArg Prod.fst (after .journal (by decide))), tubes_eq.trans (after .tubes (by decide))⟩

/-- R98: a blocked level of COUT held for a time, as COUT_EDGE takes it. -/
def coutHeld (held : Nat) : Station → Station := ifHeld Config.coutHold held fun o => if o.running then o.coutEdge else o

theorem exec_coutEdge (held : Nat) (s : State) : exec (.coutEdge held) s = .next (event s (coutHeld held)) := rfl

theorem coutHeld_taken {held : Nat} (running : s.running = true) (long : 2 ≤ held) : coutHeld held s = s.coutEdge :=
  (ifHeld_of_le (time := Config.coutHold) long _ _).trans (if_pos running)

/-- R98: an edge that is none: not held, at no coin in progress, or with the station not running. -/
theorem coutHeld_untaken {held : Nat} (untaken : held < 2 ∨ s.payout.phase ≠ .pulse ∨ s.running = false) :
    coutHeld held s = s := by
  rcases untaken with short | idle | resting
  · exact ifHeld_of_lt (time := Config.coutHold) short _ _
  · simp only [coutHeld, ifHeld, coutEdge_of_not_pulse idle, ite_self]
  · simp only [coutHeld, ifHeld, resting, Bool.false_eq_true, if_false, ite_self]

end Confirmed

/-- Settles O45: what the confirmation books (`finish_afterConfirm_books`), then the payout by whether the
plan has coins left. -/
theorem coutEdgeConfirmsTheCoin : Obligations.CoutEdgeConfirmsTheCoin := by
  unfold Obligations.CoutEdgeConfirmsTheCoin
  refine ⟨?taken, ?untaken⟩
  case taken =>
    intro s run tube held running pulse long current standing
    refine gives_of_event (coutHeld held) (exec_coutEdge held s) ?_
    have frame := keepsBut_of_kept s.station (coutEdge_kept s.station) (by decide)
    rw [coutHeld_taken running long]
    rw [coutEdge_of_pulse pulse current standing] at frame ⊢
    obtain ⟨value, underrun, journal, tubes⟩ :=
      finish_afterConfirm_books s.station s.station tube run.denomination (run.count = 1) rfl
    refine ⟨value, journal, fun filled => tubes.trans (if_neg filled),
      fun empty => ⟨tubes.trans (if_pos empty), underrun.trans (if_pos empty)⟩, ?further, ?last,
      fun r listed => frame r ((by decide : ∀ r ∈ _, r ∉ _) r listed)⟩
    case further =>
      intro left
      obtain ⟨next, next_eq⟩ := Option.isSome_iff_exists.mp left
      obtain ⟨kept, paid, amount, plan, stops⟩ := afterConfirm_of_some
        (s := coinConfirmed s.station tube run.denomination) next_eq (decide (run.count = 1))
      rw [finish_payout, finish_txn]
      exact ⟨paid, amount, plan, kept .txn (by decide), stops⟩
    case last =>
      intro none_left
      rw [afterConfirm_of_none (s := coinConfirmed s.station tube run.denomination) none_left]
      exact finish_endPayout_ended s.station (w := coinConfirmed s.station tube run.denomination) rfl rfl
        fun free _ => .inl free
  case untaken =>
    intro s held untaken
    refine gives_of_event (coutHeld held) (exec_coutEdge held s) ?_
    rw [coutHeld_untaken untaken]
    exact keepsBut_finish _ _

section Timers

/-! ### The timers of a coin (R96, R99, R100, R102) -/

variable {s : Station} {tube : Nat}

/-- A command that is the expiry of a timer that runs. -/
theorem gives_of_expiry {i : Instr} {s : State} {u : Station} {P : Station → Prop} {runs : Station → Bool} {length : Nat}
    {elapsed : Station → Nat} {effect : Station → Station}
    (executed : exec i s = .next (event s fun o => expire (runs o) length (elapsed o) effect o))
    (on : runs s.station = true) (advanced : u = s.station.advanceTo length (elapsed s.station))
    (h : P (finish s.station (effect u))) : Gives i s P := by
  refine gives_of_event _ executed ?_
  rwa [expire, if_pos on, ← advanced]

/-- R96, R101: a station whose actuator has been switched off. -/
def pulseOff (s : Station) : Station := { s with payout := { s.payout with pulseOn := none } }

theorem pulseEnds_of_waiting (idle : s.payout.phase = .none) (running : s.payout.state = .running) :
    s.pulseEnds = (pulseOff s).beginCoin := by
  simp [Station.pulseEnds, pulseOff, idle, running]

theorem pulseEnds_of_not_waiting (h : s.payout.phase ≠ .none ∨ s.payout.state ≠ .running) : s.pulseEnds = pulseOff s := by
  refine if_neg fun waits => ?_
  simp only [Bool.and_eq_true, decide_eq_true_eq] at waits
  rcases h with busy | held
  · exact busy waits.2
  · exact held waits.1

/-- R99: a first miss with no stop pending is tried again after the pause. -/
theorem missCoin_again (standing : s.payout.currentTube = some tube) (first : s.payout.attempt ≠ 2)
    (unstopped : s.payout.stop ≠ .door) : s.missCoin = { s with payout := { s.payout with
      pulseOn := none, phase := .pause, pauseTimer := 0, attempt := 2 } } := by
  unfold Station.missCoin
  rw [standing]
  exact (if_neg first).trans (if_neg unstopped)

/-- R102: a first miss with a stop pending holds the payout. -/
theorem missCoin_stops (standing : s.payout.currentTube = some tube) (first : s.payout.attempt ≠ 2)
    (pending : s.payout.stop = .door) : s.missCoin = (pulseOff s).stopPayout := by
  unfold Station.missCoin
  rw [standing]
  exact (if_neg first).trans (if_pos pending)

/-- R100: a second miss is the fault of the tube. -/
theorem missCoin_faults (standing : s.payout.currentTube = some tube) (second : s.payout.attempt = 2) :
    s.missCoin = (pulseOff s).tubeFault tube := by
  unfold Station.missCoin
  rw [standing]
  exact if_pos second

/-- R100: the station with a tube marked and its notice raised. -/
def tubeMarked (s : Station) (tube : Nat) : Station :=
  (s.setTube tube fun r => { r with status := .payoutFault }).raise (.tube tube)

theorem tubeMarked_tubes (s : Station) (tube : Nat) : (tubeMarked s tube).coin.tubes =
    if tubeNumberOk tube then updateAt s.coin.tubes (tube - 1) (fun r => { r with status := .payoutFault })
    else s.coin.tubes := by
  have raised : (tubeMarked s tube).coin.tubes = _ := raise_kept _ _ .tubes (by decide)
  rw [raised, Station.setTube]
  split <;> rfl

theorem tubeMarked_payout (s : Station) (tube : Nat) : (tubeMarked s tube).payout = s.payout := by simp [tubeMarked]

theorem tubeMarked_txn (s : Station) (tube : Nat) : (tubeMarked s tube).txn = s.txn := by simp [tubeMarked]

theorem tubeMarked_shortPayValue (s : Station) (tube : Nat) :
    (tubeMarked s tube).audit.shortPayValue = s.audit.shortPayValue := by simp [tubeMarked]

/-- R100, R188: the notice of the tube is active, or another was. -/
theorem tubeMarked_active (s : Station) (tube : Nat) : ∃ n, (tubeMarked s tube).faults.active = some n ∧
    (s.faults.active = none → n = .tube tube ∧ (tubeMarked s tube).faults.pendingNotice = s.faults.pendingNotice) := by
  have taken := raise_noticeTaken (s.setTube tube fun r => { r with status := .payoutFault }) (.tube tube)
  simp only [NoticeTaken, setTube_faults] at taken
  obtain ⟨free, occupied⟩ := taken
  cases active : s.faults.active with
  | none =>
    obtain ⟨marked, pending, -⟩ := free active
    exact ⟨_, marked, fun _ => ⟨rfl, pending⟩⟩
  | some n =>
    obtain ⟨marked, -⟩ := occupied (by simp [active])
    exact ⟨n, marked.trans active, fun none_active => absurd none_active (by simp)⟩

/-- What a new plan leaves of the payout record (R100). -/
theorem takePlan_payout (s : Station) :
    s.takePlan.payout.plan = payoutPlan s.coin.tubes (s.payout.amount - s.payout.paid) ∧ s.takePlan.payout.attempt = 1 ∧
      s.takePlan.payout.phase = .none ∧ s.takePlan.payout.amount = s.payout.amount ∧
      s.takePlan.payout.paid = s.payout.paid ∧ s.takePlan.payout.stop = s.payout.stop := by
  obtain ⟨_, planned⟩ := takePlan_shape s
  rw [planned]
  exact ⟨rfl, rfl, rfl, rfl, rfl, rfl⟩

/-- R100: the unpaid rest cannot be paid with the tube at fault. -/
theorem tubeFault_of_unpayable
    (unpayable : payoutPlan (tubeMarked s tube).coin.tubes (s.payout.amount - s.payout.paid) = []) :
    s.tubeFault tube = (tubeMarked s tube).takePlan.endPayout := by
  obtain ⟨plan_eq, -⟩ := takePlan_payout (tubeMarked s tube)
  rw [tubeMarked_payout] at plan_eq
  exact if_pos (plan_eq.trans unpayable)

/-- R100, R102: the unpaid rest has a plan over the other tubes; a stop pending holds it, else it waits out the pause. -/
theorem tubeFault_of_payable
    (payable : payoutPlan (tubeMarked s tube).coin.tubes (s.payout.amount - s.payout.paid) ≠ []) :
    Kept [.payout] (tubeMarked s tube) (s.tubeFault tube) ∧
      (s.tubeFault tube).payout.plan = payoutPlan (tubeMarked s tube).coin.tubes (s.payout.amount - s.payout.paid) ∧
      (s.tubeFault tube).payout.amount = s.payout.amount ∧ (s.tubeFault tube).payout.paid = s.payout.paid ∧
      (s.tubeFault tube).payout.attempt = 1 ∧
      (s.payout.stop = .door → (s.tubeFault tube).payout.state = .stopped ∧ (s.tubeFault tube).payout.phase = .none) ∧
      (s.payout.stop = .none → (s.tubeFault tube).payout.phase = .pause ∧ (s.tubeFault tube).payout.pauseTimer = 0) := by
  obtain ⟨plan_eq, -, -, amount_eq, paid_eq, stop_eq⟩ := takePlan_payout (tubeMarked s tube)
  rw [tubeMarked_payout] at plan_eq amount_eq paid_eq stop_eq
  have planned := takePlan_kept (tubeMarked s tube)
  have replanned : s.tubeFault tube = if (tubeMarked s tube).takePlan.payout.stop = .door
      then (tubeMarked s tube).takePlan.stopPayout
      else { (tubeMarked s tube).takePlan with payout := { (tubeMarked s tube).takePlan.payout with
        phase := .pause, pauseTimer := 0, attempt := 1 } } :=
    if_neg fun none_planned => payable (plan_eq.symm.trans none_planned)
  rw [replanned, stop_eq]
  split
  · rename_i pending
    exact ⟨planned.trans (stopPayout_kept _), plan_eq, amount_eq, paid_eq, rfl, fun _ => ⟨rfl, rfl⟩,
      fun unstopped => absurd (pending.symm.trans unstopped) (by decide)⟩
  · rename_i unstopped
    exact ⟨planned.trans (payout_kept _ _), plan_eq, amount_eq, paid_eq, rfl, fun pending => absurd pending unstopped,
      fun _ => ⟨rfl, rfl⟩⟩

/-- R100, R188: the tubes marked and the notice active stay so, whether the payout goes on or ends. -/
theorem tubeFault_marked {n : Notice} (active : (tubeMarked s tube).faults.active = some n) :
    (s.tubeFault tube).coin.tubes = (tubeMarked s tube).coin.tubes ∧ (s.tubeFault tube).faults.active = some n := by
  by_cases unpayable : payoutPlan (tubeMarked s tube).coin.tubes (s.payout.amount - s.payout.paid) = []
  · have planned := takePlan_kept (tubeMarked s tube)
    rw [tubeFault_of_unpayable unpayable]
    exact ⟨(endPayout_kept _ .tubes (by decide)).trans (planned .tubes (by decide)),
      endPayout_active ((congrArg Prod.fst (planned .latch (by decide))).trans active)⟩
  · obtain ⟨kept, -⟩ := tubeFault_of_payable unpayable
    exact ⟨kept .tubes (by decide), (congrArg Prod.fst (kept .latch (by decide))).trans active⟩

/-- R100, R101: the end of a payout that the fault of a tube leaves without a plan. -/
theorem finish_tubeFault_ended (o : Station)
    (unpayable : payoutPlan (tubeMarked s tube).coin.tubes (s.payout.amount - s.payout.paid) = []) :
    PayoutEnded s (finish o (s.tubeFault tube)) (s.payout.amount - s.payout.paid) := by
  have planned := takePlan_kept (tubeMarked s tube)
  have txn_eq : (tubeMarked s tube).takePlan.txn = s.txn := (planned .txn (by decide)).trans (tubeMarked_txn s tube)
  have shortPays : (tubeMarked s tube).takePlan.audit.shortPayValue = s.audit.shortPayValue :=
    (congrArg Audit.shortPayValue (planned .counters (by decide))).trans (tubeMarked_shortPayValue s tube)
  have latch_eq := Prod.mk.inj (planned .latch (by decide))
  obtain ⟨n, -, marked⟩ := tubeMarked_active s tube
  obtain ⟨-, -, -, amount_eq, paid_eq, -⟩ := takePlan_payout (tubeMarked s tube)
  rw [tubeMarked_payout] at amount_eq paid_eq
  rw [tubeFault_of_unpayable unpayable, ← amount_eq, ← paid_eq]
  refine finish_endPayout_ended o (congrArg Txn.credit txn_eq) shortPays fun free pending => .inr ?_
  exact ((Prod.mk.inj latch_eq.2).1.trans (marked free).2).trans pending

end Timers

/-- Settles O46: the pulse by whether a coin waits for its end, the miss by its attempt and the stop, the pause by the coin that
it lets begin. -/
theorem payoutTimersDriveTheCoin : Obligations.PayoutTimersDriveTheCoin := by
  unfold Obligations.PayoutTimersDriveTheCoin
  refine ⟨?pulse, ?miss, ?pause⟩
  case pulse =>
    intro s u on advanced
    refine gives_of_expiry (runs := fun o => o.payout.pulseOn.isSome) (elapsed := fun o => o.payout.pulseTimer)
      (effect := Station.pulseEnds) rfl on advanced ⟨?busy, ?waiting, keepsBut_of_kept _ (pulseEnds_kept u) (by decide)⟩
    case busy =>
      intro busy
      rw [finish_payout, pulseEnds_of_not_waiting busy]
      rfl
    case waiting =>
      intro run tube idle running current standing
      rw [finish_payout, pulseEnds_of_waiting idle running, beginCoin_of_run (s := pulseOff u) current standing]
      exact ⟨rfl, rfl⟩
  case miss =>
    intro s u tube coin advanced standing
    refine gives_of_expiry (runs := fun o => o.payout.phase = .pulse) (elapsed := fun o => o.payout.windowTimer)
      (effect := Station.missCoin) rfl (decide_eq_true coin) advanced ⟨?again, ?stops, ?faults⟩
    case again =>
      intro first unstopped
      rw [missCoin_again standing first (by simp [unstopped])]
      exact ⟨finish_payout _ _, keepsBut_of_kept _ (payout_kept u _) (by decide)⟩
    case stops =>
      intro first pending
      rw [missCoin_stops standing first pending]
      have held : Kept [.payout] u (pulseOff u).stopPayout := (payout_kept u _).trans (stopPayout_kept _)
      exact ⟨congrArg Payout.state (finish_payout _ _), keepsBut_of_kept _ held (by decide)⟩
    case faults =>
      intro second
      obtain ⟨n, active, marked⟩ := tubeMarked_active (pulseOff u) tube
      obtain ⟨tubes_eq, active_eq⟩ := tubeFault_marked active
      obtain ⟨latch, -⟩ := finish_same s.station ((pulseOff u).tubeFault tube) .latch
      rw [missCoin_faults standing second, finish_tubes, tubes_eq, latch, active_eq, finish_payout, finish_txn]
      refine ⟨tubeMarked_tubes (pulseOff u) tube, Option.some_ne_none n, fun free => congrArg some (marked free).1,
        finish_tubeFault_ended (s := pulseOff u) s.station, fun payable => ?_⟩
      obtain ⟨kept, plan, amount, paid, attempt, stops, pauses⟩ := tubeFault_of_payable (s := pulseOff u) payable
      exact ⟨plan, amount, paid, attempt, (kept .txn (by decide)).trans (tubeMarked_txn (pulseOff u) tube), stops, pauses⟩
  case pause =>
    intro s u run tube pause advanced off current standing
    refine gives_of_expiry (runs := fun o => o.payout.phase = .pause) (elapsed := fun o => o.payout.pauseTimer)
      (effect := Station.nextCoin) rfl (decide_eq_true pause) advanced ?_
    have frame := keepsBut_of_kept s.station (nextCoin_kept u) (by decide)
    rw [nextCoin_of_off off, beginCoin_of_run current standing] at frame ⊢
    rw [finish_payout]
    exact ⟨rfl, rfl, rfl, rfl, fun second => congrArg some (if_pos second), frame⟩

end Sys2Proof.Proofs

/-! SUPPORT. The answers of a peer that the line hands on (O28 to O31): what hearing one leaves of an open sale, what ACCEPT,
REFUSE and RESULT do to the credit record by whether they answer the current offer and by its state (R114 to R120), and the
messages that they show (R123). -/

namespace Sys2Proof.Proofs

open Sys2Proof.Machine Sys2Proof.Laws

section Heard

/-! ### A frame heard and an open sale -/

variable {s t u w : Station}

/-- The two notices of the latch. -/
theorem notices_of_kept (h : Region.kept .latch s t) :
    t.faults.active = s.faults.active ∧ t.faults.pendingNotice = s.faults.pendingNotice := by
  obtain ⟨active, rest⟩ := Prod.mk.inj h
  exact ⟨active, (Prod.mk.inj rest).1⟩

/-- The counters of the transaction among those of the blocks. -/
theorem txnCounters_of_owned {a b : Audit} (h : a.owned = b.owned) :
    a.salesCount = b.salesCount ∧ a.salesValue = b.salesValue ∧ a.shortPayValue = b.shortPayValue ∧
      a.doubleDrops = b.doubleDrops ∧ a.lateResult = b.lateResult ∧ a.lateDelivered = b.lateDelivered ∧
      a.inDoubt = b.inDoubt ∧ a.forfeitedValue = b.forfeitedValue :=
  ⟨(congrArg Audit.salesCount h :), (congrArg Audit.salesValue h :), (congrArg Audit.shortPayValue h :),
    (congrArg Audit.doubleDrops h :), (congrArg Audit.lateResult h :), (congrArg Audit.lateDelivered h :),
    (congrArg Audit.inDoubt h :), (congrArg Audit.forfeitedValue h :)⟩

/-- The end of an event leaves the counters of the blocks. -/
theorem finish_owned (o s : Station) : (finish o s).audit.owned = s.audit.owned := finish_same o s .counters

/-- R185, R188: the notice LETTER takes one place of an empty latch. -/
theorem noticeLetter_pending (active : s.faults.active = none) (pending : s.faults.pendingNotice = none) :
    s.noticeLetter.faults.pendingNotice = none := by
  unfold Station.noticeLetter
  split
  · exact pending
  · split
    · simpa [Station.raise, active] using pending
    · exact pending

/-- A frame heard leaves the sale open: of two free places of the latch it takes one at most. -/
theorem heardFrom_saleOpen (s : Station) (src : Nat) : SaleOpen s.heardPeer (heardFrom s src) := by
  have kept := heardFrom_kept s src
  obtain ⟨sales, value, shortPays, -⟩ := txnCounters_of_owned (kept .counters (by decide))
  have before := notices_of_kept (heardPeer_kept s .latch (by decide))
  have refreshed := notices_of_kept (refreshPeer_kept s src id .latch (by decide))
  have heard := notices_of_kept (heardPeer_kept (s.refreshPeer src id).noticeLetter .latch (by decide))
  refine { payout := kept .payout (by decide), tubes := kept .tubes (by decide)
           door := doorOpen_of_kept (kept .door (by decide)), shortPays := shortPays
           txn := kept .txn (by decide), cfg := cfg_of_kept (kept .setup (by decide))
           sales := sales, value := value
           free := fun active pending => .inr ?_ }
  exact heard.2.trans (noticeLetter_pending (refreshed.1.trans (before.1.symm.trans active))
    (refreshed.2.trans (before.2.symm.trans pending)))

end Heard

section Shown

/-! ### Messages to the customer (R123) -/

variable {s : Station}

theorem finish_message (o s : Station) : (finish o s).panel.message = s.panel.message := (finish_same o s .message).1

theorem showCustomer_message (closed : s.faults.doorOpen = false) (m : Message) (length : Nat) :
    (s.showCustomer m length).panel.message = some m := by
  simp [Station.showCustomer, closed]

/-- The message of a sale that fails outlasts the return of the credit. -/
theorem failSale_message (closed : s.faults.doorOpen = false) (m : Message) :
    (s.failSale (some m)).panel.message = some m := by
  have returned := afterFailedSale_kept (escrowShown s (some m)) .message (by decide)
  rw [failSale_eq, show (escrowShown s (some m)).afterFailedSale.panel.message = _ from congrArg Prod.fst returned]
  exact showCustomer_message (s := s.escrowBack) closed m Config.messageTime

/-- R123: every outcome but DELIVERED has a message. -/
theorem outcomeMessage_isSome {o : Outcome} (failed : o ≠ .delivered) : ∃ m, outcomeMessage o = some m := by
  cases o <;> first | exact absurd rfl failed | exact ⟨_, rfl⟩

end Shown

section Accept

/-! ### ACCEPT (R114, R116) -/

variable {s u w : Station} {src tag : Nat}

theorem answersOffer_iff {sender : Payer} :
    s.answersOffer sender tag = true ↔ ∃ o, s.txn.offer = some o ∧ o.owner = sender ∧ o.tag = tag := by
  cases h : s.txn.offer <;> simp [Station.answersOffer, h]

/-- R116: an ACCEPT that answers no current offer is withdrawn. -/
theorem takeAccept_of_other {sender : Payer} (other : s.answersOffer sender tag = false) (price queuePos : Nat) :
    s.takeAccept sender tag price queuePos = s.withdrawFrom sender tag := by
  unfold Station.takeAccept
  cases h : s.txn.offer with
  | none => rfl
  | some o =>
    have mismatch : ¬(o.owner = sender && o.tag = tag) = true := by simpa [Station.answersOffer, h] using other
    exact if_neg mismatch

/-- R114: the ACCEPT of the current offer is taken in ASKING alone. -/
theorem takeAccept_of_current {o : Offer} (offered : s.txn.offer = some o) (price queuePos : Nat) :
    s.takeAccept o.owner o.tag price queuePos =
      if s.txn.state = .asking then s.acceptCurrent o price queuePos else s := by
  simp [Station.takeAccept, offered]

/-- R114: the checks of an ACCEPT have failed with a message. -/
def Declines (s : Station) (owner : Payer) (price : Nat) (m : Message) : Prop :=
  (s.txn.credit < price ∧ m = .price price) ∨
    (price ≤ s.txn.credit ∧ owner ≠ .loc ∧ s.active = false ∧ m = .notAvail) ∨
    (price ≤ s.txn.credit ∧ (owner = .loc ∨ s.active = true) ∧ s.cfg.multiVend = false ∧
      payableExactly s.coin.tubes (s.txn.credit - price) = false ∧ m = .exact)

/-- R114: an ACCEPT of which a check fails shows its message, and is withdrawn. -/
theorem acceptCurrent_of_declines {o : Offer} {price : Nat} {m : Message} (declined : Declines s o.owner price m)
    (queuePos : Nat) : ∃ length, s.acceptCurrent o price queuePos = s.declineAccept o m length := by
  unfold Station.acceptCurrent
  obtain ⟨short, rfl⟩ | ⟨covered, peer, idle, rfl⟩ | ⟨covered, reached, single, unpayable, rfl⟩ := declined
  · exact ⟨_, if_pos short⟩
  · refine ⟨Config.messageTime, ?_⟩
    rw [if_neg (Nat.not_lt.mpr covered), if_pos (by simp [peer, idle])]
  · refine ⟨Config.exactMessageTime, ?_⟩
    rw [if_neg (Nat.not_lt.mpr covered), if_neg (by rcases reached with h | h <;> simp [h]),
      if_pos (by simp [single, unpayable])]

/-- R114: an ACCEPT that passes the checks binds the sale. -/
theorem acceptCurrent_of_covered {o : Offer} {price : Nat} (covered : price ≤ s.txn.credit)
    (reached : o.owner = .loc ∨ s.active = true)
    (payable : s.cfg.multiVend = true ∨ payableExactly s.coin.tubes (s.txn.credit - price) = true) (queuePos : Nat) :
    s.acceptCurrent o price queuePos = s.bindSale o price queuePos := by
  unfold Station.acceptCurrent
  rw [if_neg (Nat.not_lt.mpr covered), if_neg (by rcases reached with h | h <;> simp [h]),
    if_neg (by rcases payable with h | h <;> simp [h])]

/-- R114: the credit record of a sale that has been bound. -/
def boundTxn (x : Txn) (o : Offer) (price queuePos : Nat) : Txn :=
  { x with
    offer := some { o with quoted := some price }, escrow := price, credit := x.credit - price, state := .committed
    returnRequested := false, resultTimer := 0, shownPosition := queuePos }

theorem bindSale_eq (s : Station) (o : Offer) (price queuePos : Nat) :
    s.bindSale o price queuePos = ({ s with txn := boundTxn s.txn o price queuePos }).commitTo o.owner o.tag price := rfl

/-- A sale bound with a peer changes the credit record and the transmit queue alone. -/
theorem bindSale_peer_kept (s : Station) {o : Offer} {a : Nat} (peer : o.owner = .peer a) (price queuePos : Nat) :
    Kept [.txn, .lineQueue] s (s.bindSale o price queuePos) := by
  rw [bindSale_eq, peer]
  exact ((txn_kept s _).mono (by decide)).trans ((hand_kept _ a _).mono (by decide))

theorem withdrawFrom_peer_kept (s : Station) (a tag : Nat) : Kept [.lineQueue] s (s.withdrawFrom (.peer a) tag) :=
  hand_kept s a _

/-- A declined ACCEPT of a peer changes the message, the credit record and the transmit queue alone. -/
theorem declineAccept_peer_kept (s : Station) {o : Offer} {a : Nat} (peer : o.owner = .peer a) (m : Message) (length : Nat) :
    Kept [.message, .txn, .lineQueue] s (s.declineAccept o m length) := by
  unfold Station.declineAccept
  rw [peer]
  exact (((showCustomer_kept s m length).mono (by decide)).trans ((withdrawFrom_peer_kept _ a _).mono (by decide))).trans
    ((toResting_kept _).mono (by decide))

/-- R110, R114: the credit record of a declined ACCEPT. -/
theorem declineAccept_txn (s : Station) (o : Offer) (m : Message) (length : Nat) :
    (s.declineAccept o m length).txn = s.toResting.txn := by
  have shown : (s.showCustomer m length).txn = s.txn := showCustomer_kept s m length .txn (by decide)
  have withdrawn : ((s.showCustomer m length).withdrawFrom o.owner o.tag).txn = (s.showCustomer m length).txn :=
    withdrawFrom_kept _ o.owner o.tag .txn (by decide)
  unfold Station.declineAccept Station.toResting
  rw [withdrawn, shown]

theorem declineAccept_message (closed : s.faults.doorOpen = false) (o : Offer) (m : Message) (length : Nat) :
    (s.declineAccept o m length).panel.message = some m := by
  have withdrawn := withdrawFrom_kept (s.showCustomer m length) o.owner o.tag .message (by decide)
  exact (congrArg Prod.fst withdrawn).trans (showCustomer_message closed m length)

/-- The end of the event leaves a frame in the transmit queue. -/
theorem mem_lineQueue_finish (o : Station) {f : Frame} (h : f ∈ s.line.queue) : f ∈ (finish o s).line.queue :=
  (finish_admits o s).queue.subset h

/-- A frame handed is queued when the line state lets it and the queue had room (R173). -/
theorem mem_hand {body : FrameBody} (line_eq : w.line = u.line) (allowed : sendAllowed u.line.state body = true)
    (plain : body.isHeartbeat = false) (dst : Nat) (room : u.line.queue.length < 8) :
    (⟨dst, body, false⟩ : Frame) ∈ (w.hand dst body).line.queue := by
  rw [hand_queue (by rw [line_eq]; exact allowed) plain (by rw [line_eq]; exact room)]
  simp

theorem takeAccept_peer_kept (s : Station) (src tag price queuePos : Nat) :
    Kept [.message, .txn, .lineQueue] s (s.takeAccept (.peer src) tag price queuePos) := by
  cases current : s.answersOffer (.peer src) tag with
  | false =>
    rw [takeAccept_of_other current]
    exact (withdrawFrom_peer_kept s src tag).mono (by decide)
  | true =>
    obtain ⟨o, offered, peer, rfl⟩ := answersOffer_iff.mp current
    rw [← peer, takeAccept_of_current offered]
    split
    · unfold Station.acceptCurrent
      repeat' split
      · exact declineAccept_peer_kept s peer _ _
      · exact declineAccept_peer_kept s peer _ _
      · exact declineAccept_peer_kept s peer _ _
      · exact (bindSale_peer_kept s peer price queuePos).mono (by decide)
    · exact Kept.refl _ s

end Accept

/-- Settles O28: an ACCEPT is that of the current offer or not; in ASKING the current one is bound or declined by its checks. -/
theorem acceptBindsOrDeclines : Obligations.AcceptBindsOrDeclines := by
  unfold Obligations.AcceptBindsOrDeclines
  rintro s u src tag price queuePos rfl hear hok hsrc
  refine gives_of_handoff (fun t => t.takeAccept (.peer src) tag price queuePos) hear hok hsrc rfl ?_
  have kept := heardFrom_kept s.station src
  have line_eq := heardFrom_line s.station src
  have sale := heardFrom_saleOpen s.station src
  generalize heardFrom s.station src = w at *
  generalize s.station.heardPeer = u at *
  have answers_eq := answersOffer_congr sale.txn (.peer src) tag
  have withdraw_allowed : sendAllowed u.line.state (.withdraw tag) = true := sendAllowed_of_hears hear (.inr rfl)
  refine ⟨fun other => ?other, fun current settled => ?settled, fun current asking => ?asking, ?kept⟩
  case other =>
    rw [takeAccept_of_other (answers_eq.trans other), finish_txn]
    refine ⟨(withdrawFrom_peer_kept w src tag .txn (by decide)).trans sale.txn, fun room => mem_lineQueue_finish _ ?_⟩
    exact mem_hand line_eq withdraw_allowed rfl src room
  case settled =>
    obtain ⟨o, offered, owner, rfl⟩ := answersOffer_iff.mp current
    rw [← owner, takeAccept_of_current (by rw [sale.txn]; exact offered), if_neg (by rw [sale.txn]; exact settled), finish_txn]
    exact sale.txn
  case asking =>
    obtain ⟨o, offered, owner, rfl⟩ := answersOffer_iff.mp current
    rw [← owner, takeAccept_of_current (by rw [sale.txn]; exact offered), if_pos (by rw [sale.txn]; exact asking)]
    have active_eq := active_of_line line_eq
    refine ⟨fun covered active payable => ?binds, fun m declined => ?declines⟩
    case binds =>
      rw [← sale.txn, ← sale.cfg, ← sale.tubes] at payable
      rw [acceptCurrent_of_covered (by rw [sale.txn]; exact covered) (.inr (active_eq.trans active)) payable, bindSale_eq, owner,
        finish_txn]
      have txn_eq : (({ w with txn := boundTxn w.txn o price queuePos }).commitTo (.peer src) o.tag price).txn =
          boundTxn u.txn o price queuePos := by
        rw [← sale.txn]
        exact hand_kept _ src _ .txn (by decide)
      rw [txn_eq]
      refine ⟨rfl, rfl, rfl, rfl, rfl, rfl, fun room => mem_lineQueue_finish _ ?_⟩
      exact mem_hand (w := { w with txn := boundTxn w.txn o price queuePos }) (body := .commit o.tag price) line_eq
        (sendAllowed_of_hears hear (.inl active)) rfl src room
    case declines =>
      have declined_w : Declines w o.owner price m := by
        unfold Declines
        rw [sale.txn, sale.cfg, sale.tubes, active_eq, owner]
        simpa using declined
      obtain ⟨length, declines⟩ := acceptCurrent_of_declines declined_w queuePos
      rw [declines, finish_txn, finish_message, declineAccept_txn]
      unfold Station.toResting
      rw [sale.txn]
      refine ⟨rfl, rfl, rfl, fun closed => declineAccept_message (sale.door.trans closed) o m length,
        fun room => mem_lineQueue_finish _ ?_⟩
      unfold Station.declineAccept
      rw [owner]
      have shown := showCustomer_kept w m length
      exact mem_hand (w := w.showCustomer m length) ((line_of_kept (shown .line (by decide)) (shown .lineQueue (by decide))).trans
        line_eq) withdraw_allowed rfl src room
  case kept =>
    exact same_of_kept _ ((kept.mono (by decide)).trans ((takeAccept_peer_kept w src tag price queuePos).mono
      (m := [.peers, .power, .latch, .message, .txn, .lineQueue]) (by decide))) (by decide)

section Refuse

/-! ### REFUSE (R115, R116, R118) -/

variable {s : Station} {sender : Payer} {tag : Nat}

theorem takeRefuse_of_other (other : s.answersOffer sender tag = false) (r : Reason) : s.takeRefuse sender tag r = s :=
  if_neg (by simp [other])

theorem takeRefuse_of_asking (current : s.answersOffer sender tag = true) (asking : s.txn.state = .asking) (r : Reason) :
    s.takeRefuse sender tag r = (s.showCustomer (reasonMessage r) Config.messageTime).toResting := by
  simp [Station.takeRefuse, current, asking]

theorem takeRefuse_of_committed (current : s.answersOffer sender tag = true) (committed : s.txn.state = .committed)
    (r : Reason) : s.takeRefuse sender tag r = s.failSale (some (reasonMessage r)) := by
  simp [Station.takeRefuse, current, committed]

/-- R110: the credit record after a message and the return to the resting state. -/
theorem showCustomer_toResting_txn (s : Station) (m : Message) (length : Nat) :
    (s.showCustomer m length).toResting.txn = s.toResting.txn := by
  have shown : (s.showCustomer m length).txn = s.txn := showCustomer_kept s m length .txn (by decide)
  unfold Station.toResting
  rw [shown]

end Refuse

/-- Settles O29: a REFUSE is that of the current offer or not, and ends it by the transaction's state. -/
theorem refuseEndsTheOffer : Obligations.RefuseEndsTheOffer := by
  unfold Obligations.RefuseEndsTheOffer
  rintro s u src tag reason rfl hear hok hsrc
  refine gives_of_handoff (fun t => t.takeRefuse (.peer src) tag (reasonOf reason)) hear hok hsrc rfl ?_
  have kept := heardFrom_kept s.station src
  have sale := heardFrom_saleOpen s.station src
  generalize heardFrom s.station src = w at *
  generalize s.station.heardPeer = u at *
  have answers_eq := answersOffer_congr sale.txn (.peer src) tag
  refine ⟨fun other => ?other, fun current => ⟨fun asking => ?asking, fun committed => ?committed⟩, ?kept⟩
  case other =>
    rw [takeRefuse_of_other (answers_eq.trans other), finish_txn]
    exact sale.txn
  case asking =>
    rw [takeRefuse_of_asking (answers_eq.trans current) (by rw [sale.txn]; exact asking), finish_txn, finish_message,
      showCustomer_toResting_txn]
    unfold Station.toResting
    rw [sale.txn]
    exact ⟨rfl, rfl, rfl, fun closed => showCustomer_message (sale.door.trans closed) _ _⟩
  case committed =>
    rw [takeRefuse_of_committed (answers_eq.trans current) (by rw [sale.txn]; exact committed), finish_message]
    exact ⟨saleFailed_of_saleKept (failSale_failed sale _) (finish_saleKept _ _),
      fun closed => failSale_message (sale.door.trans closed) _⟩
  case kept =>
    exact same_of_kept _ ((kept.mono (by decide)).trans ((takeRefuse_kept w _ tag _).mono
      (m := [.peers, .power, .latch, .payout, .txn, .counters, .message]) (by decide))) (by decide)

section Result

/-! ### RESULT (R117, R120) -/

variable {s : Station} {sender : Payer} {tag : Nat} {o : Outcome}

theorem takeResult_of_delivered (current : s.answersOffer sender tag = true) (committed : s.txn.state = .committed)
    (drops : Nat) : s.takeResult sender tag .delivered drops = s.takeSale (sender != .loc) drops := by
  simp [Station.takeResult, current, committed]

theorem takeResult_of_failed (current : s.answersOffer sender tag = true) (committed : s.txn.state = .committed)
    (failed : o ≠ .delivered) (drops : Nat) : s.takeResult sender tag o drops = s.failSale (outcomeMessage o) := by
  simp [Station.takeResult, current, committed, failed]

/-- R120: a RESULT with no committed sale of its offer is late. -/
theorem takeResult_of_late
    (late : s.answersOffer sender tag = false ∨ s.txn.offer = none ∨ s.txn.state = .asking) (drops : Nat) :
    s.takeResult sender tag o drops = s.lateResult o := by
  refine if_neg fun settles => ?_
  obtain ⟨current, committed⟩ := Bool.and_eq_true_iff.mp settles
  obtain ⟨offer, offered, -⟩ := answersOffer_iff.mp current
  rcases late with other | none_offered | asking
  · simp [other] at current
  · simp [none_offered] at offered
  · simp [asking] at committed

/-- R117: the double drop of a peer's sale is counted with it. -/
theorem takeSale_doubleDrops (s : Station) (drops : Nat) :
    (s.takeSale true drops).audit.doubleDrops =
      if 2 ≤ drops then rise32 s.audit.doubleDrops 1 else s.audit.doubleDrops := by
  have returned : (s.bookSale true drops).returnAll.audit.doubleDrops = (s.bookSale true drops).audit.doubleDrops :=
    congrArg (fun c => c.2.1) (returnAll_aside (s.bookSale true drops)).counts
  have counted : (s.bookSale true drops).audit.doubleDrops =
      if 2 ≤ drops then rise32 s.audit.doubleDrops 1 else s.audit.doubleDrops := by
    simp [Station.bookSale]
  unfold Station.takeSale
  dsimp only
  split
  · exact returned.trans counted
  · exact counted

end Result

/-- Settles O30: the outcome DELIVERED takes the sale, any other fails it. -/
theorem resultSettlesTheSale : Obligations.ResultSettlesTheSale := by
  unfold Obligations.ResultSettlesTheSale
  rintro s u src tag outcome drops rfl hear hok hsrc current committed
  refine gives_of_handoff (fun t => t.takeResult (.peer src) tag (outcomeOf outcome) drops) hear hok hsrc rfl ?_
  have kept := heardFrom_kept s.station src
  have sale := heardFrom_saleOpen s.station src
  generalize heardFrom s.station src = w at *
  generalize s.station.heardPeer = u at *
  generalize outcomeOf outcome = o at *
  obtain ⟨-, -, -, drops_eq, -⟩ := txnCounters_of_owned (kept .counters (by decide))
  have current_w := (answersOffer_congr sale.txn (.peer src) tag).trans current
  have committed_w : w.txn.state = .committed := by rw [sale.txn]; exact committed
  have delivered : o = .delivered → SaleTaken u (finish s.station (w.takeResult (.peer src) tag o drops)) ∧
      (finish s.station (w.takeResult (.peer src) tag o drops)).audit.doubleDrops =
        if 2 ≤ drops then rise32 u.audit.doubleDrops 1 else u.audit.doubleDrops := by
    rintro rfl
    rw [takeResult_of_delivered current_w committed_w]
    obtain ⟨-, -, -, ended, -⟩ := txnCounters_of_owned (finish_owned s.station (w.takeSale true drops))
    refine ⟨saleTaken_of_saleKept (takeSale_taken sale true drops) (finish_saleKept _ _), ended.trans ?_⟩
    rw [takeSale_doubleDrops, drops_eq]
  have failed : o ≠ .delivered → SaleFailed u (finish s.station (w.takeResult (.peer src) tag o drops)) ∧
      (u.faults.doorOpen = false →
        (finish s.station (w.takeResult (.peer src) tag o drops)).panel.message = outcomeMessage o) := by
    intro failed
    obtain ⟨m, message⟩ := outcomeMessage_isSome failed
    rw [takeResult_of_failed current_w committed_w failed, message, finish_message]
    exact ⟨saleFailed_of_saleKept (failSale_failed sale _) (finish_saleKept _ _),
      fun closed => failSale_message (sale.door.trans closed) m⟩
  refine ⟨?_, delivered, failed, ?kept⟩
  · by_cases ho : o = .delivered
    · exact (delivered ho).1.1
    · exact (failed ho).1.1
  case kept =>
    exact same_of_kept _ ((kept.mono (by decide)).trans ((takeResult_kept w _ tag _ drops).mono
      (m := [.peers, .power, .latch, .payout, .txn, .counters, .message]) (by decide))) (by decide)

/-- Settles O31: a late RESULT raises its counters, and the end of the event adds CLAIMs alone to the transmit queue. -/
theorem lateResultIsOnlyCounted : Obligations.LateResultIsOnlyCounted := by
  unfold Obligations.LateResultIsOnlyCounted
  rintro s u src tag outcome drops rfl hear hok hsrc late
  refine gives_of_handoff (fun t => t.takeResult (.peer src) tag (outcomeOf outcome) drops) hear hok hsrc rfl ?_
  have kept := heardFrom_kept s.station src
  have line_eq := heardFrom_line s.station src
  have sale := heardFrom_saleOpen s.station src
  generalize heardFrom s.station src = w at *
  generalize s.station.heardPeer = u at *
  generalize outcomeOf outcome = o at *
  rw [← answersOffer_congr sale.txn, ← sale.txn] at late
  rw [takeResult_of_late late]
  obtain ⟨-, -, -, -, late_eq, delivered_eq, -⟩ := txnCounters_of_owned (kept .counters (by decide))
  obtain ⟨-, -, -, -, late_ended, delivered_ended, -⟩ := txnCounters_of_owned (finish_owned s.station (w.lateResult o))
  rw [← late_eq, ← delivered_eq]
  refine ⟨late_ended, fun delivered => delivered_ended.trans (if_pos delivered),
    fun failed => delivered_ended.trans (if_neg failed), (finish_txn _ _).trans sale.txn, ?frames, ?kept⟩
  case frames =>
    obtain ⟨⟨frames, queue_eq, claims⟩, -⟩ := finish_claims s.station (s := w.lateResult o)
      (by rw [show (w.lateResult o).line = u.line from line_eq]; exact not_isolated_of_hears hear)
    rw [queue_eq, show (w.lateResult o).line = u.line from line_eq]
    exact fun f hf => (List.mem_append.mp hf).imp_right (claims f)
  case kept =>
    exact keepsBut_of_kept _ ((kept.mono (by decide)).trans ((lateResult_kept w o).mono (by decide))) (by decide)

end Sys2Proof.Proofs

/-! SUPPORT. The idle millisecond and the customer's keys (O3, O47): what the passing of time leaves of the loads that
wait, and what a key does to the keypad buffer (R111, R112, R124). -/

namespace Sys2Proof.Proofs

open Sys2Proof.Machine Sys2Proof.Laws

section Idle

/-! ### A millisecond with no command waiting -/

/-- What the passing of time can change of the station. -/
theorem advance_kept (s : Station) (d : Nat) :
    Kept [.clock, .queue, .vend, .chute, .coinLink, .payout, .txn, .buffer, .message, .service, .meters, .cooling, .power,
      .line, .peers, .door] s (s.advance d) := by
  unfold Station.advance
  split <;> intro r hr <;> cases r <;> first | exact absurd (by decide) hr | rfl

/-- R203: in HALTED only the clock moves. -/
theorem advance_halted_kept {s : Station} (halted : s.line.state = .halted) (d : Nat) : Kept [.clock] s (s.advance d) := by
  rw [advance_halted d s halted]
  intro r hr
  cases r <;> first | exact absurd (by decide) hr | rfl

theorem advance_queue_length (s : Station) (d : Nat) : (s.advance d).queue.length = s.queue.length := by
  unfold Station.advance
  split
  · rfl
  · exact List.length_map _

/-- Time moves no money. -/
theorem advance_txn_money (s : Station) (d : Nat) :
    (s.advance d).txn.credit = s.txn.credit ∧ (s.advance d).txn.escrow = s.txn.escrow := by
  unfold Station.advance
  split <;> exact ⟨rfl, rfl⟩

theorem foldl_betterRequest_isSome (requests : List Request) (q : Request) :
    (requests.foldl betterRequest (some q)).isSome = true := by
  induction requests generalizing q with
  | nil => rfl
  | cons r rest ih =>
    rw [List.foldl_cons, betterRequest]
    split
    · exact ih r
    · exact ih q

/-- R157: none is to be checked exactly where none is READY. -/
theorem bestReady_eq_none_iff (requests : List Request) :
    bestReady requests = none ↔ ∀ r ∈ requests, r.phase ≠ .ready := by
  rw [show (∀ r ∈ requests, r.phase ≠ .ready) ↔ (requests.filter fun r => r.phase = .ready) = [] by
    simp [List.filter_eq_nil_iff]]
  unfold bestReady
  cases requests.filter fun r => r.phase = .ready with
  | nil => simp
  | cons r rest =>
    have found : (rest.foldl betterRequest (some r)).isSome = true := foldl_betterRequest_isSome rest r
    simp [betterRequest, Option.isSome_iff_ne_none.mp found]

/-- Time readies no waiting load, and opens and ends no window. -/
theorem loadsSettled_advance (s : Station) (d : Nat) : (s.advance d).loadsSettled = s.loadsSettled := by
  unfold Station.advance
  split
  · rfl
  · have ready : bestReady (s.power.requests.map (Request.advance s.cfg.address d)) = none ↔
        bestReady s.power.requests = none := by
      rw [bestReady_eq_none_iff, bestReady_eq_none_iff, List.forall_mem_map]
      rfl
    have held : windowHeld (s.power.requests.map (Request.advance s.cfg.address d)) = windowHeld s.power.requests := by
      unfold windowHeld
      rw [List.any_map]
      rfl
    unfold Station.loadsSettled
    dsimp only
    rw [held, decide_eq_decide.mpr ready]
    rfl

theorem vendIn_advance (s : Station) (d : Nat) (phase : VendPhase) : (s.advance d).vendIn phase = s.vendIn phase := by
  unfold Station.advance Station.vendIn
  split
  · rfl
  · cases s.vend with
    | none => rfl
    | some v => simp [(vend_advance_keeps s.cfg d v).2.1]

/-- The vend in flight after an idle millisecond in which no load is granted. -/
theorem idle_vend {s : Station} {v : Vend} (in_flight : s.vend = some v) (running : s.line.state ≠ .halted)
    (ungranted : s.loadsSettled = true ∨ v.phase ≠ .claiming) : (finish s (s.advance 1)).vend = some (v.advance s.cfg 1) := by
  have unchecked : (s.advance 1).loadsSettled = true ∨ (s.advance 1).vendIn .claiming = false := by
    rw [loadsSettled_advance, vendIn_advance]
    exact ungranted.imp_right fun phase => by simp [Station.vendIn, in_flight, phase]
  rw [finish_same s (s.advance 1) .vend unchecked, advance_vend 1 s running, in_flight]
  rfl

end Idle

/-- Settles O3: the regions that time leaves, the timers that it counts on, and HALTED, where none runs. -/
theorem idleStepLetsTimePass : Obligations.IdleStepLetsTimePass := by
  unfold Obligations.IdleStepLetsTimePass
  intro s idle
  refine ⟨event s (Station.advance 1), step_idle s idle, event_mem s _, event_saveWrite s _,
    (event_pending s _).trans idle, ?_⟩
  rw [event_station]
  generalize s.station = u
  have timers (running : u.line.state ≠ .halted) :
      (finish u (u.advance 1)).txn = u.txn.advance u.cfg u.faults.doorOpen 1 :=
    (finish_txn u (u.advance 1)).trans (advance_txn 1 u (by simpa [Station.timersRun] using running))
  obtain ⟨credit, escrow⟩ := advance_txn_money u 1
  refine ⟨?clock, same_of_kept u (advance_kept u 1) (by decide), ?credit, ?escrow, ?queue, ?vend, ?answer, ?inactivity,
    ?halted⟩
  case clock => exact (finish_same u (u.advance 1) .clock).trans (advance_keeps 1 u).1
  case credit => rw [finish_txn, credit]
  case escrow => rw [finish_txn, escrow]
  case queue => exact (congrArg List.length (finish_same u (u.advance 1) .queue)).trans (advance_queue_length u 1)
  case vend =>
    intro v in_flight running ungranted
    obtain ⟨entry, phase, turns, jams, drops, -, -, timer⟩ := vend_advance_keeps u.cfg 1 v
    exact ⟨_, idle_vend in_flight running ungranted, timer, phase, entry, turns, jams, drops⟩
  case answer =>
    intro running asking peer
    rw [timers running]
    simp [Txn.advance, count, asking, peer, Config.answerTime]
  case inactivity =>
    intro running credited closed
    rw [timers running]
    simp [Txn.advance, count, credited, closed]
  case halted => exact fun halted => keepsBut_of_kept u (advance_halted_kept halted 1) (by decide)

section Keys

/-! ### The customer's keys (R111, R112) -/

variable {s : State} {u : Station} {P : Station → Prop}

theorem customerKeys_closed (keys : u.customerKeys = true) : u.faults.doorOpen = false := by
  simpa using (Bool.and_eq_true_iff.mp keys).2

/-- What a key gives that the customer's side takes. -/
theorem gives_of_customerKey {c : Instr} {customer technician : Station → Station}
    (executed : exec c s = .next (event s fun o => o.key customer technician)) (keys : s.station.customerKeys = true)
    (h : P (finish s.station (customer s.station.keyTaken))) : Gives c s P := by
  refine gives_of_event _ executed ?_
  rwa [Station.key, if_pos keys]

theorem ifBufferOpen_of_open (opened : u.bufferOpen = true) (effect : Station → Station) :
    u.ifBufferOpen effect = effect u := if_pos opened

theorem ifBufferOpen_of_shut (shut : u.bufferOpen = false) (effect : Station → Station) : u.ifBufferOpen effect = u :=
  if_neg (ne_true_of_eq_false shut)

theorem exec_keyDigit {digit : Nat} (ok : digit ≤ 9) (s : State) :
    exec (.keyDigit digit) s = .next (event s fun o =>
      o.key (fun t => t.ifBufferOpen fun v => v.bufferDigit digit)
        fun t => { t with service := t.service.addDigit digit }) := by
  change Host.Outcome.next (event s fun o => if digitOk digit then _ else o) = _
  simp [digitOk, ok]

/-- A digit that enters the buffer. -/
theorem keyDigit_gives {digit : Nat} (keys : s.station.customerKeys = true) (ok : digit ≤ 9)
    (opened : s.station.bufferOpen = true) (h : P (finish s.station (s.station.keyTaken.bufferDigit digit))) :
    Gives (.keyDigit digit) s P := by
  refine gives_of_customerKey (exec_keyDigit ok s) keys ?_
  rwa [ifBufferOpen_of_open (u := s.station.keyTaken) opened]

variable {digit : Nat}

/-- R112: the first digit after the letter. -/
theorem bufferDigit_of_untrayed (untrayed : ∀ b, u.panel.buffer = some b → b.tray = none) :
    u.bufferDigit digit =
      if 1 ≤ digit ∧ digit ≤ 6 then
        { u with panel := { u.panel with buffer := some ⟨u.bufferLetter, some digit⟩, bufferTimer := 0 } }
      else u.clearBuffer.showCustomer .notAvail Config.messageTime := by
  unfold Station.bufferDigit
  split
  · rename_i letter tray buffered
    exact absurd (untrayed _ buffered) (Option.some_ne_none tray)
  · simp

/-- R112: the digit after the tray completes the selection. -/
theorem bufferDigit_of_tray {letter tray : Nat} (buffered : u.panel.buffer = some ⟨letter, some tray⟩) :
    u.bufferDigit digit = u.clearBuffer.selection letter tray digit := by
  simp [Station.bufferDigit, buffered]

/-- R111, R121: what the event of a customer's key leaves, where its effect leaves the credit record alone. -/
theorem finish_keyed {l m : List Region} {w : Station} (h : Kept l u.keyTaken w) (unsold : .txn ∉ l)
    (listed : ∀ r ∈ Region.txn :: .buffer :: l, r ∈ m) (alone : .power ∉ m ∧ .line ∉ m) :
    (finish u w).txn = { u.txn with inactivityTimer := 0 } ∧ KeepsBut m u (finish u w) := by
  have keyed : Kept m u w := ((keyTaken_kept u).mono fun r hr => listed r (by simp at hr ⊢; tauto)).trans
    (h.mono fun r hr => listed r (by simp [hr]))
  exact ⟨(finish_txn u w).trans (h .txn unsold), keepsBut_of_kept u keyed (.inl alone)⟩

theorem finish_buffer (o w : Station) :
    (finish o w).panel.buffer = w.panel.buffer ∧ (finish o w).panel.bufferTimer = w.panel.bufferTimer :=
  finish_same o w .buffer

/-- A message leaves the buffer. -/
theorem showCustomer_buffer (w : Station) (m : Message) (length : Nat) :
    (w.showCustomer m length).panel.buffer = w.panel.buffer ∧
      (w.showCustomer m length).panel.bufferTimer = w.panel.bufferTimer :=
  Prod.mk.inj (showCustomer_kept w m length .buffer (by decide))

/-- A buffer cleared with a message. -/
theorem clearBuffer_showCustomer_kept (w : Station) (m : Message) (length : Nat) :
    Kept [.buffer, .message] w (w.clearBuffer.showCustomer m length) :=
  ((clearBuffer_kept w).mono (by decide)).trans ((showCustomer_kept _ m length).mono (by decide))

/-- R111, R124: CAB steps the letter at a payment station, where the buffer is open. -/
theorem cabKey_eq (u : Station) :
    (if isPayment u.keyTaken.cfg then u.keyTaken.ifBufferOpen Station.stepLetter else u.keyTaken) =
      if isPayment u.cfg = true ∧ u.bufferOpen = true then u.keyTaken.stepLetter else u.keyTaken := by
  rw [ite_and]
  rfl

/-- Only the keypad buffer changed. -/
theorem buffer_kept (w : Station) (b : Option KeyBuffer) (timer : Nat) :
    Kept [.buffer] w { w with panel := { w.panel with buffer := b, bufferTimer := timer } } := by
  intro r hr
  cases r <;> first | exact absurd (by decide) hr | rfl

end Keys

/-- Settles O47: each key by whether the buffer is open, a digit also by what the buffer holds. -/
theorem customerKeysFillTheBuffer : Obligations.CustomerKeysFillTheBuffer := by
  unfold Obligations.CustomerKeysFillTheBuffer
  rintro s letter keyed keys rfl rfl
  have closed : s.station.keyTaken.clearBuffer.faults.doorOpen = false := customerKeys_closed keys
  have untouched := finish_keyed (m := [.buffer, .txn]) (Kept.refl [] s.station.keyTaken) (by decide) (by decide) (by decide)
  have untouched_buffer := (finish_buffer s.station s.station.keyTaken).1
  refine ⟨?first, ?panel, ?shut, ?cab, ?clr, ?others⟩
  case first =>
    intro digit ok opened untrayed
    refine keyDigit_gives keys ok opened ?_
    rw [bufferDigit_of_untrayed (u := s.station.keyTaken) untrayed]
    split
    case isTrue names =>
      obtain ⟨txn_eq, kept⟩ := finish_keyed (m := [.buffer, .txn])
        (buffer_kept s.station.keyTaken (some ⟨s.station.keyTaken.bufferLetter, some digit⟩) 0) (by decide) (by decide)
        (by decide)
      obtain ⟨buffer, timer⟩ := finish_buffer s.station { s.station.keyTaken with panel := { s.station.keyTaken.panel with
        buffer := some ⟨s.station.keyTaken.bufferLetter, some digit⟩, bufferTimer := 0 } }
      exact ⟨txn_eq, timer, fun _ _ => ⟨buffer, kept⟩, fun unnamed => by omega⟩
    case isFalse unnamed =>
      obtain ⟨txn_eq, kept⟩ := finish_keyed (m := [.buffer, .txn, .message])
        (clearBuffer_showCustomer_kept s.station.keyTaken .notAvail Config.messageTime) (by decide) (by decide) (by decide)
      obtain ⟨buffer, timer⟩ := finish_buffer s.station
        (s.station.keyTaken.clearBuffer.showCustomer .notAvail Config.messageTime)
      obtain ⟨cleared, restarted⟩ := showCustomer_buffer s.station.keyTaken.clearBuffer .notAvail Config.messageTime
      exact ⟨txn_eq, timer.trans restarted, fun low high => absurd ⟨low, high⟩ unnamed,
        fun _ => ⟨buffer.trans cleared, (finish_message _ _).trans (showCustomer_message closed _ _), kept⟩⟩
  case panel =>
    intro digit tray ok opened buffered vend_only
    refine keyDigit_gives keys ok opened ?_
    rw [bufferDigit_of_tray (u := s.station.keyTaken) buffered, Station.selection,
      if_neg (show ¬isPayment s.station.keyTaken.clearBuffer.cfg = true from ne_true_of_eq_false vend_only)]
    obtain ⟨txn_eq, kept⟩ := finish_keyed (m := [.buffer, .txn, .message])
      (clearBuffer_showCustomer_kept s.station.keyTaken (s.station.keyTaken.clearBuffer.panelMessage tray digit)
        Config.messageTime) (by decide) (by decide) (by decide)
    exact ⟨txn_eq, (finish_buffer _ _).1.trans (showCustomer_buffer _ _ _).1,
      (finish_message _ _).trans (showCustomer_message closed _ _), kept⟩
  case shut =>
    intro digit ok shut
    refine gives_of_customerKey (exec_keyDigit ok s) keys ?_
    rw [ifBufferOpen_of_shut (u := s.station.keyTaken) shut]
    exact ⟨untouched.1, untouched_buffer, untouched.2⟩
  case cab =>
    refine gives_of_customerKey (technician := id)
      (customer := fun t => if isPayment t.cfg then t.ifBufferOpen Station.stepLetter else t) rfl keys ?_
    rw [cabKey_eq]
    split
    case isTrue steps =>
      obtain ⟨payment, opened⟩ := steps
      obtain ⟨txn_eq, kept⟩ := finish_keyed (m := [.buffer, .txn]) (stepLetter_kept s.station.keyTaken) (by decide)
        (by decide) (by decide)
      refine ⟨txn_eq, kept, fun _ _ => (finish_buffer _ _).1, fun ignored => ?_⟩
      simp [payment, opened] at ignored
    case isFalse ignored =>
      exact ⟨untouched.1, untouched.2, fun payment opened => absurd ⟨payment, opened⟩ ignored, fun _ => untouched_buffer⟩
  case clr =>
    refine gives_of_customerKey (customer := fun t => t.ifBufferOpen Station.clearBuffer) rfl keys ?_
    cases opened : s.station.bufferOpen with
    | true =>
      rw [ifBufferOpen_of_open (u := s.station.keyTaken) opened]
      obtain ⟨txn_eq, kept⟩ := finish_keyed (m := [.buffer, .txn]) (clearBuffer_kept s.station.keyTaken) (by decide)
        (by decide) (by decide)
      exact ⟨txn_eq, kept, fun _ => (finish_buffer _ _).1, fun shut => absurd shut (by decide)⟩
    | false =>
      rw [ifBufferOpen_of_shut (u := s.station.keyTaken) opened]
      exact ⟨untouched.1, untouched.2, fun opened => absurd opened (by decide), fun _ => untouched_buffer⟩
  case others =>
    have ignored {c : Instr} {technician : Station → Station}
        (executed : exec c s = .next (event s fun o => o.key id technician)) :
        Gives c s fun t => t.txn = { s.station.txn with inactivityTimer := 0 } ∧
          t.panel.buffer = s.station.panel.buffer ∧ KeepsBut [.buffer, .txn] s.station t := by
      refine gives_of_customerKey executed keys ?_
      rw [id_eq]
      exact ⟨untouched.1, untouched_buffer, untouched.2⟩
    rintro c (rfl | rfl | rfl)
    · exact ignored rfl
    · exact ignored rfl
    · exact ignored rfl

end Sys2Proof.Proofs

/-! SUPPORT. The timers of the panel, the lamp and the door (O51): what the end of an event leaves of the flags, the lamp and
the alternation where no source of theirs changed (R186, R187, R191), and the effect of each expiry. -/

namespace Sys2Proof.Proofs

open Sys2Proof.Machine Sys2Proof.Laws

section Stages

/-! ### The end of an event that changes no source of the flags -/

/-- What the conditions of R186 read of the cooling controller. -/
def coolingConditions (c : Cooling) : Bool × Bool × Bool × Bool := (c.coldHold, c.air.fault, c.cond.fault, c.isLatched)

variable {o s t : Station}

theorem coolingConditions_of_kept {l : List Region} (h : Kept l s t) (hl : Region.cooling ∉ l) :
    coolingConditions t.cooling = coolingConditions s.cooling :=
  congrArg coolingConditions (h .cooling hl)

/-- A grant starts a compressor that waits, and no such one is LATCHED. -/
theorem handGrant_coolingConditions (s : Station) (cls : LoadClass) :
    coolingConditions (s.handGrant cls).cooling = coolingConditions s.cooling := by
  have released (c : LoadClass) : coolingConditions (s.releaseSlot c).cooling = coolingConditions s.cooling :=
    coolingConditions_of_kept (releaseSlot_kept s c) (by decide)
  cases cls with
  | vendMotor =>
    change coolingConditions s.vendMotorGranted.cooling = _
    unfold Station.vendMotorGranted
    repeat' split
    · exact coolingConditions_of_kept (energise_kept s) (by decide)
    · exact released _
    · exact released _
  | compressor =>
    change coolingConditions s.compressorGranted.cooling = _
    unfold Station.compressorGranted
    split
    · rename_i waits
      simp [coolingConditions, Cooling.isLatched, waits]
    · exact released _
  | defrostHeater =>
    change coolingConditions s.heaterGranted.cooling = _
    unfold Station.heaterGranted
    split
    · rfl
    · exact released _

theorem checkOne_coolingConditions (h : s.checkOne = some t) :
    coolingConditions t.cooling = coolingConditions s.cooling := by
  obtain ⟨r, -, -, ⟨-, rfl⟩ | ⟨-, rfl⟩⟩ := checkOne_cases h
  · exact coolingConditions_of_kept (checkActive_loads s r).kept (by decide)
  · unfold Station.checkIsolated
    dsimp only
    split
    · exact handGrant_coolingConditions _ r.cls
    · rfl

theorem admitLoads_coolingConditions (s : Station) :
    coolingConditions s.admitLoads.cooling = coolingConditions s.cooling :=
  admitFor_induct (R := fun s t => coolingConditions t.cooling = coolingConditions s.cooling) (fun _ => rfl)
    (fun _ _ _ h k => k.trans h) (fun _ _ => checkOne_coolingConditions) 12 s

/-- The end of an event up to the masks. -/
def beforeFlags (o s : Station) : Station := ((s.evaluateIfChanged o).admitLoads).resetIce.sendChangedMasks

theorem finish_eq_flags (o s : Station) : finish o s = (beforeFlags o s).updateConditions.driveOutputs := rfl

theorem evaluateIfChanged_same (tubes : s.coin.tubes = o.coin.tubes) : s.evaluateIfChanged o = s := by
  simp [Station.evaluateIfChanged, tubes]

/-- With the tubes as they were, loads, masks and the ice timer are all that changes before the flags are taken. -/
theorem beforeFlags_shape (tubes : s.coin.tubes = o.coin.tubes) : ∃ q n p v c li lr tr wi wr,
    beforeFlags o s = { s with
      line := { s.line with queue := q }, audit := { s.audit with txOverflow := n }, power := p, vend := v, cooling := c
      coin := { s.coin with
        lastInhibit := li, lastRoute := lr, onTransmitter := tr, waitingInhibit := wi, waitingRoute := wr } } ∧
      coolingConditions c = coolingConditions s.cooling := by
  unfold beforeFlags
  rw [evaluateIfChanged_same tubes]
  have conditions := admitLoads_coolingConditions s
  obtain ⟨q, n, p, v, _, admitted, -⟩ := admit_grants s
  obtain ⟨c, iced, owned⟩ := resetIce_shape s.admitLoads
  have ice : coolingConditions c = coolingConditions s.admitLoads.cooling :=
    (congrArg coolingConditions owned : coolingConditions c.owned = coolingConditions s.admitLoads.cooling.owned)
  obtain ⟨li, lr, tr, wi, wr, masked⟩ := sendChangedMasks_masks s.admitLoads.resetIce
  rw [masked, iced]
  refine ⟨q, n, p, v, c, li, lr, tr, wi, wr, ?_, ice.trans conditions⟩
  rw [admitted]

/-- R186: the sources of the conditions stand as before. -/
theorem beforeFlags_holds (tubes : s.coin.tubes = o.coin.tubes) (k : Condition) :
    (beforeFlags o s).holds k = s.holds k := by
  obtain ⟨q, n, p, v, c, li, lr, tr, wi, wr, shape, same⟩ := beforeFlags_shape tubes
  obtain ⟨cold, rest⟩ := Prod.mk.inj same
  obtain ⟨air, rest⟩ := Prod.mk.inj rest
  obtain ⟨cond, latched⟩ := Prod.mk.inj rest
  rw [shape]
  cases k with
  | condenserSensorFault => exact cond
  | coldHold => exact cold
  | compressorLatched => exact latched
  | airSensorFault => exact air
  | noSpiralAvailable =>
    change (!s.spirals.any fun r => available r c.coldHold s.faults.doorOpen s.chuteStops) = _
    rw [cold]
    rfl
  | _ => rfl

/-- The flags taken and the lamp driven leave the display to alternate what it did. -/
theorem driveAlternation_of_same (same : s.alternates = s.panel.alternation) : s.driveAlternation = s := if_pos same

theorem driveLamp_of_same (same : s.lampMode = s.faults.lamp) : s.driveLamp = s := if_pos same

/-- R123, R191: an alternation that goes on keeps its phase and its timer over the end of an event. -/
theorem finish_panel_of_alternating (tubes : s.coin.tubes = o.coin.tubes) (goes_on : s.alternates = s.panel.alternation) :
    (finish o s).panel = s.panel := by
  obtain ⟨_, _, _, _, _, _, _, _, _, _, shape, -⟩ := beforeFlags_shape tubes
  obtain ⟨_, _, flags⟩ := updateConditions_shape (beforeFlags o s)
  obtain ⟨_, _, _, lamp⟩ := driveLamp_shape (beforeFlags o s).updateConditions
  have same : (beforeFlags o s).updateConditions.driveLamp.alternates =
      (beforeFlags o s).updateConditions.driveLamp.panel.alternation := by
    rw [lamp, flags, shape]
    exact goes_on
  rw [finish_eq_flags, Station.driveOutputs, driveAlternation_of_same same, lamp, flags, shape]
  rfl

theorem mem_allConditions (k : Condition) : k ∈ allConditions := by
  cases k <;> decide

/-- R186: where the conditions stand as their sources hold them, none begins and the lamp's mode is as it was. -/
theorem takeConditions_lampMode (standing : s.faults.standing = allConditions.filter s.holds) :
    s.takeConditions.lampMode = s.lampMode := by
  have noticed (p : Condition → Bool) : s.takeConditions.faults.noticed.any p = s.faults.noticed.any p := by
    rw [Bool.eq_iff_iff]
    simp [Station.takeConditions, ← standing, mem_allConditions]
  unfold Station.lampMode
  rw [noticed, show s.takeConditions.faults.standing = s.faults.standing from standing.symm]
  rfl

/-- R187: a lamp whose mode stays keeps its phase and its timer over the end of an event. -/
theorem finish_lamp_of_same (tubes : s.coin.tubes = o.coin.tubes) (keeps : s.keepsConditions = true)
    (standing : s.faults.standing = allConditions.filter s.holds) (goes_on : s.lampMode = s.faults.lamp) :
    (finish o s).faults.lamp = s.faults.lamp ∧ (finish o s).faults.flashOn = s.faults.flashOn ∧
      (finish o s).faults.flashTimer = s.faults.flashTimer := by
  have held : allConditions.filter (beforeFlags o s).holds = allConditions.filter s.holds :=
    holds_congr (beforeFlags_holds tubes)
  obtain ⟨_, _, _, _, _, _, _, _, _, _, shape, -⟩ := beforeFlags_shape tubes
  have faults_eq : (beforeFlags o s).faults = s.faults := by rw [shape]
  have kept : (beforeFlags o s).keepsConditions = true := by rw [shape]; exact keeps
  have mode : (beforeFlags o s).lampMode = s.lampMode := by rw [shape]; rfl
  have same : (beforeFlags o s).takeConditions.lampMode = (beforeFlags o s).takeConditions.faults.lamp := by
    rw [takeConditions_lampMode (by rw [faults_eq, held]; exact standing), mode, goes_on, ← faults_eq]
    rfl
  obtain ⟨_, _, _, alternation⟩ := driveAlternation_shape (beforeFlags o s).takeConditions
  rw [finish_eq_flags, Station.updateConditions, if_pos kept, Station.driveOutputs, driveLamp_of_same same, alternation,
    ← faults_eq]
  exact ⟨rfl, rfl, rfl⟩

end Stages

section Expiries

/-! ### The timers (R111, R123, R187, R190, R191) -/

/-- A command that is the expiry of a timer that runs, of a length that the station holds. -/
theorem gives_of_expiry_of {i : Instr} {s : State} {u : Station} {P : Station → Prop} {runs : Station → Bool}
    {length elapsed : Station → Nat} {effect : Station → Station}
    (executed : exec i s = .next (event s fun o => expire (runs o) (length o) (elapsed o) effect o))
    (on : runs s.station = true) (advanced : u = s.station.advanceTo (length s.station) (elapsed s.station))
    (h : P (finish s.station (effect u))) : Gives i s P := by
  refine gives_of_event _ executed ?_
  rwa [expire, if_pos on, ← advanced]

theorem advanceTo_tubes (s : Station) (length elapsed : Nat) : (s.advanceTo length elapsed).coin.tubes = s.coin.tubes :=
  advance_kept s _ .tubes (by decide)

theorem advanceTo_lamp (s : Station) (length elapsed : Nat) : (s.advanceTo length elapsed).faults.lamp = s.faults.lamp := by
  unfold Station.advanceTo Station.advance
  split <;> rfl

/-- R191: the service command entry times out, the item shown stays. -/
theorem timeOutEntry_kept (s : Station) : Kept [.service] s s.timeOutEntry := by
  intro r hr
  cases r <;> first | exact absurd (by decide) hr | rfl

/-- R123: the message has been shown for its time. -/
def messageEnded (s : Station) : Station := { s with panel := { s.panel with message := none } }

theorem messageEnded_kept (s : Station) : Kept [.message] s (messageEnded s) := by
  intro r hr
  cases r <;> first | exact absurd (by decide) hr | rfl

/-- R123, R191, R193: the other of two displays is shown. -/
def alternated (s : Station) : Station :=
  { s with panel := { s.panel with secondShown := !s.panel.secondShown, alternationTimer := 0 } }

theorem alternated_kept (s : Station) : Kept [] s (alternated s) := by
  intro r _
  cases r <;> rfl

/-- R187: the lamp turned on or off in its flashing. -/
def flashed (s : Station) : Station :=
  { s with faults := { s.faults with flashOn := !s.faults.flashOn, flashTimer := 0 } }

theorem flashed_kept (s : Station) : Kept [] s (flashed s) := by
  intro r _
  cases r <;> rfl

theorem flashed_holds (s : Station) : allConditions.filter (flashed s).holds = allConditions.filter s.holds :=
  holds_congr fun k => by cases k <;> rfl

/-- R187: a lamp that flashes is driven by its phase. -/
theorem finish_lsv_of_flashing {o s : Station} (flashing : s.lampMode = .flashing)
    (lamp : (finish o s).faults.lamp = .flashing) : (finish o s).pins.lsv = (finish o s).faults.flashOn := by
  have running : s.running = true := by
    by_contra still
    simp [Station.lampMode, eq_false_of_ne_true still] at flashing
  have driven : (finish o s).pins = (finish o s).outputs := driveOutputs_pins _
  rw [driven, Station.outputs, if_pos ((finish_running o s).trans running)]
  change (finish o s).faults.lsv = _
  rw [FaultUnit.lsv, lamp]

/-- R190: the door has been open for its time. -/
def leftOpen (s : Station) : Station := { s with faults := { s.faults with doorLeftOpen := true } }

theorem leftOpen_kept (s : Station) : Kept [.door] s (leftOpen s) := by
  intro r hr
  cases r <;> first | exact absurd (by decide) hr | rfl

end Expiries

/-- Settles O51: one timer a clause, each with the region that its effect changes. -/
theorem displayEntryAndDoorTimers : Obligations.DisplayEntryAndDoorTimers := by
  unfold Obligations.DisplayEntryAndDoorTimers
  refine ⟨?buffer, ?entry, ?message, ?alternation, ?flash, ?door⟩
  case buffer =>
    intro s u holds advanced
    exact gives_of_expiry (runs := fun o => o.panel.buffer.isSome) (elapsed := fun o => o.panel.bufferTimer) rfl holds advanced
      ⟨(finish_buffer _ _).1, keepsBut_of_kept _ (clearBuffer_kept u) (by decide)⟩
  case entry =>
    intro s u holds advanced
    have shown : (finish s.station u.timeOutEntry).service = u.timeOutEntry.service := finish_same _ _ .service
    refine gives_of_expiry (runs := fun o => !o.service.isEmpty) (elapsed := fun o => o.service.timer)
      (effect := Station.timeOutEntry) rfl (by simp [holds]) advanced ?_
    rw [shown]
    exact ⟨rfl, rfl, rfl, keepsBut_of_kept _ (timeOutEntry_kept u) (by decide)⟩
  case message =>
    intro s u shown advanced
    exact gives_of_expiry_of (runs := fun o => o.panel.message.isSome) (length := fun o => o.panel.messageLength)
      (elapsed := fun o => o.panel.messageTimer) (effect := messageEnded) rfl shown advanced
      ⟨finish_message _ _, keepsBut_of_kept _ (messageEnded_kept u) (by decide)⟩
  case alternation =>
    intro s u alternates advanced goes_on
    have tubes : (alternated u).coin.tubes = s.station.coin.tubes := by rw [advanced]; exact advanceTo_tubes _ _ _
    refine gives_of_expiry (runs := fun o => o.panel.alternation.isSome) (elapsed := fun o => o.panel.alternationTimer)
      (effect := alternated) rfl alternates advanced ?_
    rw [finish_panel_of_alternating tubes goes_on]
    exact ⟨rfl, rfl, rfl, keepsBut_of_kept _ (alternated_kept u) (by decide)⟩
  case flash =>
    intro s u flashing advanced mode keeps standing
    have tubes : (flashed u).coin.tubes = s.station.coin.tubes := by rw [advanced]; exact advanceTo_tubes _ _ _
    have lamp : u.faults.lamp = .flashing := by rw [advanced, advanceTo_lamp]; exact flashing
    obtain ⟨lamp_eq, on_eq, timer_eq⟩ := finish_lamp_of_same tubes keeps (standing.trans (flashed_holds u).symm)
      (mode.trans lamp.symm)
    have lsv := finish_lsv_of_flashing (o := s.station) (s := flashed u) mode (lamp_eq.trans lamp)
    exact gives_of_expiry (runs := fun o => o.faults.lamp = .flashing) (elapsed := fun o => o.faults.flashTimer)
      (effect := flashed) rfl (by simp [flashing]) advanced
      ⟨lamp_eq.trans lamp, on_eq, timer_eq, lsv.trans on_eq, keepsBut_of_kept _ (flashed_kept u) (by decide)⟩
  case door =>
    intro s u read opened advanced
    have runs : (s.station.line.state != .halted && s.station.faults.doorOpen) = true := by
      rw [(Bool.and_eq_true_iff.mp read).1, opened]
      rfl
    have still_open : u.faults.doorOpen = true := by
      obtain ⟨-, -, -, -, -, -, -, -, -, -, -, -, -, -, -, door⟩ :=
        advance_keeps (600000 - s.station.faults.doorTimer) s.station
      rw [advanced]
      exact door.trans opened
    obtain ⟨door_eq, -, left_eq⟩ := finish_same s.station (leftOpen u) .door
    exact gives_of_expiry (runs := fun o => o.line.state != .halted && o.faults.doorOpen)
      (elapsed := fun o => o.faults.doorTimer) (effect := leftOpen) rfl runs advanced
      ⟨left_eq, door_eq.trans still_open, keepsBut_of_kept _ (leftOpen_kept u) (by decide)⟩

end Sys2Proof.Proofs

/-! SUPPORT. RET and the timers of the transaction (O49): what a settlement leaves of the tag and of the doubts, RET by the
state of the transaction (R121, R122), and the sale that is given up (R119). -/

namespace Sys2Proof.Proofs

open Sys2Proof.Machine Sys2Proof.Laws

section TagAndDoubts

/-! ### What the settlement of a sale leaves of the tag and of the doubts -/

variable {s t : Station}

/-- The tag of the last offer and the count of the sales in doubt, which an offer and a sale given up alone change. -/
def tagAndDoubts (s : Station) : Nat × Nat := (s.txn.lastTag, s.audit.inDoubt)

theorem tagAndDoubts_of_kept {l : List Region} (h : Kept l s t) (ht : Region.txn ∉ l) (hc : Region.counters ∉ l) :
    tagAndDoubts t = tagAndDoubts s := by
  have txn_eq : t.txn = s.txn := h .txn ht
  obtain ⟨-, -, -, -, -, -, doubts, -⟩ := txnCounters_of_owned (h .counters hc)
  exact Prod.ext (congrArg Txn.lastTag txn_eq) doubts

theorem showCustomer_tagAndDoubts (s : Station) (m : Message) (length : Nat) :
    tagAndDoubts (s.showCustomer m length) = tagAndDoubts s :=
  tagAndDoubts_of_kept (showCustomer_kept s m length) (by decide) (by decide)

theorem withdrawFrom_tagAndDoubts (s : Station) (owner : Payer) (tag : Nat) :
    tagAndDoubts (s.withdrawFrom owner tag) = tagAndDoubts s :=
  tagAndDoubts_of_kept (withdrawFrom_kept s owner tag) (by decide) (by decide)

theorem endPayout_tagAndDoubts (s : Station) : tagAndDoubts s.endPayout = tagAndDoubts s := by
  unfold Station.endPayout Station.payoutDone
  dsimp only
  split
  · rfl
  · exact (tagAndDoubts_of_kept (raise_kept _ _) (by decide) (by decide)).trans rfl

theorem startPayout_tagAndDoubts (s : Station) (amount : Nat) : tagAndDoubts (s.startPayout amount) = tagAndDoubts s := by
  by_cases idle : s.payout.state = .idle
  · rw [startPayout_of_idle idle]
    split
    · exact endPayout_tagAndDoubts _
    · split
      · rfl
      · exact (tagAndDoubts_of_kept (nextCoin_kept { s with payout := plannedPayout s amount }) (by decide)
          (by decide)).trans rfl
  · unfold Station.startPayout
    rw [if_neg idle]

theorem returnAll_tagAndDoubts (s : Station) : tagAndDoubts s.returnAll = tagAndDoubts s := by
  unfold Station.returnAll
  split
  · rfl
  · exact startPayout_tagAndDoubts (creditHanded s) s.txn.credit

theorem failSale_tagAndDoubts (s : Station) (m : Option Message) : tagAndDoubts (s.failSale m) = tagAndDoubts s := by
  have shown : tagAndDoubts (escrowShown s m) = tagAndDoubts s.escrowBack :=
    tagAndDoubts_of_kept (escrowShown_kept s m) (by decide) (by decide)
  rw [failSale_eq]
  unfold Station.afterFailedSale
  split
  · exact (returnAll_tagAndDoubts _).trans shown
  · exact shown

end TagAndDoubts

section Returns

/-! ### RET and the sale that is given up (R119, R121, R122) -/

variable {s : Station}

theorem returnKey_of_credit (credit : s.txn.state = .credit) : s.returnKey = s.returnAll := by
  simp [Station.returnKey, credit]

theorem returnKey_of_asking {o : Offer} (asking : s.txn.state = .asking) (offered : s.txn.offer = some o) :
    s.returnKey = (s.withdrawFrom o.owner o.tag).returnAll := by
  simp [Station.returnKey, asking, offered]

theorem returnKey_of_committed (committed : s.txn.state = .committed) :
    s.returnKey = { s with txn := { s.txn with returnRequested := true } } := by
  simp [Station.returnKey, committed]

theorem returnKey_of_idle_or_paying (h : s.txn.state = .idle ∨ s.txn.state = .paying) : s.returnKey = s := by
  rcases h with h | h <;> simp [Station.returnKey, h]

/-- R122: the station whose key RET has been taken, before the key acts. -/
def returnTaken (s : Station) : Station := s.keyTaken.ifBufferOpen Station.clearBuffer

theorem returnTaken_kept (s : Station) : Kept [.txn, .buffer] s (returnTaken s) := by
  unfold returnTaken Station.ifBufferOpen
  split
  · exact (keyTaken_kept s).trans ((clearBuffer_kept _).mono (by decide))
  · exact keyTaken_kept s

theorem returnTaken_txn (s : Station) : (returnTaken s).txn = { s.txn with inactivityTimer := 0 } := by
  unfold returnTaken Station.ifBufferOpen
  split <;> rfl

theorem returnTaken_buffer (opened : s.bufferOpen = true) : (returnTaken s).panel.buffer = none := by
  rw [returnTaken, ifBufferOpen_of_open (u := s.keyTaken) opened]
  rfl

theorem keyRet_gives {s : State} {P : Station → Prop} (keys : s.station.customerKeys = true)
    (payment : isPayment s.station.cfg = true) (h : P (finish s.station (returnTaken s.station).returnKey)) :
    Gives .keyRet s P := by
  refine gives_of_customerKey (technician := id)
    (customer := fun t => if isPayment t.cfg then (t.ifBufferOpen Station.clearBuffer).returnKey else t) rfl keys ?_
  rwa [if_pos (show isPayment s.station.keyTaken.cfg = true from payment)]

/-- The settlement of a sale rests on regions that are kept. -/
theorem SaleOpen.of_kept {u w : Station} {l : List Region} (h : Kept l u w)
    (hl : ∀ r ∈ [Region.payout, .tubes, .door, .counters, .latch, .txn, .setup], r ∉ l) : SaleOpen u w := by
  have origin := (ReturnFrom.refl u).of_kept h fun r hr => hl r (by simp at hr ⊢; tauto)
  obtain ⟨sales, value, -⟩ := txnCounters_of_owned (h .counters (hl .counters (by decide)))
  exact { origin with
    txn := h .txn (hl .txn (by decide)), cfg := cfg_of_kept (h .setup (hl .setup (by decide))), sales := sales, value := value }

/-- R119: the sale that is given up is counted in doubt. -/
def doubted (s : Station) : Station := { s with audit := { s.audit with inDoubt := rise32 s.audit.inDoubt 1 } }

theorem SaleOpen.doubted {u w : Station} (h : SaleOpen u w) : SaleOpen u (doubted w) :=
  { h with }

/-- R119: a sale given up fails as any other, and is counted in doubt. -/
theorem giveUpSale_eq (s : Station) : s.giveUpSale = (doubted s).failSale (some .noAnswer) := rfl

theorem giveUpSale_inDoubt (s : Station) : s.giveUpSale.audit.inDoubt = rise32 s.audit.inDoubt 1 := by
  rw [giveUpSale_eq]
  exact congrArg Prod.snd (failSale_tagAndDoubts (doubted s) (some .noAnswer))

theorem withdrawSale_kept (s : Station) : Kept [.queue, .lineQueue] s s.withdrawSale := by
  unfold Station.withdrawSale
  split
  · exact withdrawFrom_kept s _ _
  · exact Kept.refl _ s

theorem withdrawSale_of_offer {o : Offer} (offered : s.txn.offer = some o) :
    s.withdrawSale = s.withdrawFrom o.owner o.tag := by
  simp [Station.withdrawSale, offered]

/-- R175: the WITHDRAW handed to a peer stands in the transmit queue over what leaves that queue alone. -/
theorem queued_withdraw {u w t : Station} {l : List Region} (o : Station) (taken : Kept l u w) (unqueued : .lineQueue ∉ l)
    (line_kept : .line ∉ l) {a tag : Nat} (allowed : sendAllowed u.line.state (.withdraw tag) = true) {m : List Region}
    (after : Kept m (w.withdrawFrom (.peer a) tag) t) (kept : .lineQueue ∉ m) :
    Queued u (finish o t) a (.withdraw tag) := by
  intro room
  refine mem_lineQueue_finish o ?_
  have queue_eq : t.line.queue = (w.withdrawFrom (.peer a) tag).line.queue := congrArg Prod.fst (after .lineQueue kept)
  rw [queue_eq]
  exact mem_hand (w := w) (body := .withdraw tag) (line_of_kept (taken .line line_kept) (taken .lineQueue unqueued))
    allowed rfl a room

theorem forfeit_forfeitedValue (s : Station) :
    s.forfeit.audit.forfeitedValue = rise32 s.audit.forfeitedValue s.txn.credit := rfl

end Returns

/-- Settles O49: RET by the state of the transaction, and one timer a clause. -/
theorem returnsAndTransactionTimers : Obligations.ReturnsAndTransactionTimers := by
  unfold Obligations.ReturnsAndTransactionTimers
  refine ⟨?ret, ?vendOnly, ?answer, ?result, ?inactivity⟩
  case ret =>
    intro s keys payment
    refine keyRet_gives keys payment ?_
    have taken := returnTaken_kept s.station
    have origin := (ReturnFrom.refl s.station).of_kept taken (by decide)
    have txn_eq := returnTaken_txn s.station
    have credit_eq : (returnTaken s.station).txn.credit = s.station.txn.credit := by rw [txn_eq]
    have buffer_eq := fun opened => returnTaken_buffer (s := s.station) opened
    generalize returnTaken s.station = w at *
    refine ⟨fun opened => ?buffer, fun committed => ?committed, fun credit idle => ?credit,
      fun o asking offered idle => ?asking, fun resting => ?resting⟩
    case buffer =>
      have kept : w.returnKey.panel.buffer = w.panel.buffer := congrArg Prod.fst (returnKey_kept w .buffer (by decide))
      exact (finish_buffer _ _).1.trans (kept.trans (buffer_eq opened))
    case committed =>
      rw [returnKey_of_committed (by rw [txn_eq]; exact committed), finish_txn, txn_eq]
    case credit =>
      rw [returnKey_of_credit (by rw [txn_eq]; exact credit), ← credit_eq]
      exact returned_of_saleKept (returnAll_returned origin idle) (finish_saleKept _ _)
    case asking =>
      rw [returnKey_of_asking (by rw [txn_eq]; exact asking) (by rw [txn_eq]; exact offered)]
      have withdrawn := withdrawFrom_kept w o.owner o.tag
      have returned := returnAll_kept (w.withdrawFrom o.owner o.tag)
      refine ⟨?_, fun a peer allowed => ?_, fun own => ?_⟩
      · rw [← credit_eq, ← show (w.withdrawFrom o.owner o.tag).txn.credit = w.txn.credit from
          congrArg Txn.credit (withdrawn .txn (by decide))]
        exact returned_of_saleKept (returnAll_returned (origin.of_kept withdrawn (by decide)) idle) (finish_saleKept _ _)
      · rw [peer] at returned ⊢
        exact queued_withdraw s.station taken (by decide) (by decide) allowed returned (by decide)
      · rw [own] at returned ⊢
        have queue_eq : w.queue = s.station.queue := taken .queue (by decide)
        rw [← queue_eq]
        exact (finish_same _ _ .queue).trans (returned .queue (by decide))
    case resting =>
      rw [returnKey_of_idle_or_paying (by rw [txn_eq]; exact resting), finish_txn, txn_eq]
  case vendOnly =>
    intro s keys vend_only
    refine gives_of_customerKey (technician := id)
      (customer := fun t => if isPayment t.cfg then (t.ifBufferOpen Station.clearBuffer).returnKey else t) rfl keys ?_
    rw [if_neg (show ¬isPayment s.station.keyTaken.cfg = true from ne_true_of_eq_false vend_only)]
    exact keepsBut_of_kept _ ((keyTaken_kept s.station).mono (by decide)) (by decide)
  case answer =>
    intro s u running asking peer advanced
    refine gives_of_expiry (runs := fun o => o.timersRun && o.txn.state = .asking && o.txn.peerOwner)
      (elapsed := fun o => o.txn.answerTimer)
      (effect := fun t => (t.showCustomer .noAnswer Config.messageTime).toResting) rfl
      (by simp [Station.timersRun, running, asking, peer]) advanced ?_
    rw [finish_txn, finish_message, showCustomer_toResting_txn]
    exact ⟨rfl, rfl, rfl, fun closed => showCustomer_message closed _ _, keepsBut_of_kept _
      (((showCustomer_kept u _ _).mono (by decide)).trans ((toResting_kept _).mono (by decide))) (by decide)⟩
  case result =>
    intro s u running committed peer advanced
    refine gives_of_expiry_of (runs := fun o => o.timersRun && o.txn.state = .committed && o.txn.peerOwner)
      (length := fun o => Config.resultTime o.cfg.timeoutCode) (elapsed := fun o => o.txn.resultTimer)
      (effect := fun t => t.withdrawSale.giveUpSale) rfl (by simp [Station.timersRun, running, committed, peer]) advanced ?_
    have withdrawn := withdrawSale_kept u
    have sale := SaleOpen.of_kept withdrawn (by decide)
    have given_up := giveUpSale_kept u.withdrawSale
    obtain ⟨-, -, -, -, -, -, doubts, -⟩ := txnCounters_of_owned (withdrawn .counters (by decide))
    obtain ⟨-, -, -, -, -, -, doubts_ended, -⟩ := txnCounters_of_owned (finish_owned s.station u.withdrawSale.giveUpSale)
    refine ⟨?failed, ?inDoubt, fun closed => ?message, fun o a offered owner allowed => ?withdraw⟩
    case failed =>
      rw [giveUpSale_eq]
      exact saleFailed_of_saleKept (failSale_failed sale.doubted _) (finish_saleKept _ _)
    case inDoubt => rw [doubts_ended, giveUpSale_inDoubt, doubts]
    case message =>
      rw [finish_message, giveUpSale_eq]
      exact failSale_message (s := doubted u.withdrawSale) (sale.door.trans closed) _
    case withdraw =>
      rw [withdrawSale_of_offer offered, owner] at given_up ⊢
      exact queued_withdraw s.station (Kept.refl [] u) (by decide) (by decide) allowed given_up (by decide)
  case inactivity =>
    intro s u running credit closed advanced
    obtain ⟨-, -, -, -, -, -, -, forfeited⟩ := txnCounters_of_owned (finish_owned s.station u.forfeit)
    refine gives_of_expiry_of (runs := fun o => o.timersRun && o.txn.state = .credit && !o.faults.doorOpen)
      (length := fun o => 1000 * o.cfg.inactivitySec) (elapsed := fun o => o.txn.inactivityTimer)
      (effect := Station.forfeit) rfl (by simp [Station.timersRun, running, credit, closed]) advanced ?_
    rw [finish_txn]
    exact ⟨rfl, rfl, forfeited.trans (forfeit_forfeitedValue u), keepsBut_of_kept _ (forfeit_kept u) (by decide)⟩

end Sys2Proof.Proofs

/-! SUPPORT. The completed selection (O48): the offer to a peer and to the own letter (R113), and the own letter's answer,
which binds the sale or ends the offer in the same event (R114). -/

namespace Sys2Proof.Proofs

open Sys2Proof.Machine Sys2Proof.Laws

section Selections

/-! ### The offer of a selection (R113) -/

variable {w : Station} {letter tray column a : Nat}

/-- R113: the tag of the next offer. -/
def nextTag (s : Station) : Nat := (s.txn.lastTag + 1) % 16

theorem makeOffer_of_unowned (unowned : w.ownerOf letter = none) :
    w.makeOffer letter tray column = w.showCustomer .notAvail Config.messageTime := by
  simp [Station.makeOffer, unowned]

theorem makeOffer_of_unreached (owner : w.ownerOf letter = some (.peer a)) (unreached : w.offerReaches a = false) :
    w.makeOffer letter tray column = w.showCustomer .notAvail Config.messageTime := by
  simp [Station.makeOffer, owner, unreached]

theorem makeOffer_of_reached (owner : w.ownerOf letter = some (.peer a)) (reached : w.offerReaches a = true) :
    w.makeOffer letter tray column =
      (w.recordOffer (.peer a) tray column).hand a (.offer (nextTag w) tray column) := by
  simp only [Station.makeOffer, owner, reached, if_true]
  rfl

theorem makeOffer_of_own (owner : w.ownerOf letter = some .loc) :
    w.makeOffer letter tray column = w.offerLocal tray column := by
  simp [Station.makeOffer, owner]

/-- R113: a peer is reached in ACTIVE alone, where every frame may be sent. -/
theorem sendAllowed_of_offerReaches (reached : w.offerReaches a = true) (body : FrameBody) :
    sendAllowed w.line.state body = true := by
  have active : w.line.state = .active := by
    simpa [Station.active] using (Bool.and_eq_true_iff.mp reached).1
  simp [sendAllowed, active]

/-- R113: an offer to a peer that is reached. -/
theorem makeOffer_reached (owner : w.ownerOf letter = some (.peer a)) (reached : w.offerReaches a = true) :
    (w.makeOffer letter tray column).txn = (w.recordOffer (.peer a) tray column).txn ∧
      (w.line.queue.length < 8 →
        (⟨a, .offer (nextTag w) tray column, false⟩ : Frame) ∈ (w.makeOffer letter tray column).line.queue) := by
  rw [makeOffer_of_reached owner reached]
  refine ⟨hand_kept _ a _ .txn (by decide), fun room => ?_⟩
  exact mem_hand (u := w) (w := w.recordOffer (.peer a) tray column) (body := .offer (nextTag w) tray column) rfl
    (sendAllowed_of_offerReaches reached _) rfl a room

end Selections

section OwnTag

/-! ### The tag of an offer to the own letter (R113) -/

theorem takeRefuse_tagAndDoubts (s : Station) (sender : Payer) (tag : Nat) (r : Reason) :
    tagAndDoubts (s.takeRefuse sender tag r) = tagAndDoubts s := by
  unfold Station.takeRefuse
  split
  · split
    · exact showCustomer_tagAndDoubts s _ _
    · split
      · exact failSale_tagAndDoubts s _
      · rfl
  · rfl

theorem commitTo_tagAndDoubts (s : Station) (owner : Payer) (tag price : Nat) :
    tagAndDoubts (s.commitTo owner tag price) = tagAndDoubts s := by
  unfold Station.commitTo
  split
  · have committed : tagAndDoubts (s.queueCommit .loc tag price).1 = tagAndDoubts s :=
      tagAndDoubts_of_kept (queueCommit_kept s .loc tag price) (by decide) (by decide)
    split <;> rename_i answered <;> rw [answered] at committed
    · exact (takeRefuse_tagAndDoubts _ _ _ _).trans committed
    · exact committed
  · exact tagAndDoubts_of_kept (hand_kept s _ _) (by decide) (by decide)

theorem declineAccept_tagAndDoubts (s : Station) (o : Offer) (m : Message) (length : Nat) :
    tagAndDoubts (s.declineAccept o m length) = tagAndDoubts s :=
  (withdrawFrom_tagAndDoubts _ _ _).trans (showCustomer_tagAndDoubts s m length)

theorem acceptCurrent_tagAndDoubts (s : Station) (o : Offer) (price queuePos : Nat) :
    tagAndDoubts (s.acceptCurrent o price queuePos) = tagAndDoubts s := by
  unfold Station.acceptCurrent
  repeat' split
  · exact declineAccept_tagAndDoubts s o _ _
  · exact declineAccept_tagAndDoubts s o _ _
  · exact declineAccept_tagAndDoubts s o _ _
  · exact commitTo_tagAndDoubts { s with txn := boundTxn s.txn o price queuePos } _ _ _

theorem takeAccept_tagAndDoubts (s : Station) (sender : Payer) (tag price queuePos : Nat) :
    tagAndDoubts (s.takeAccept sender tag price queuePos) = tagAndDoubts s := by
  cases current : s.answersOffer sender tag with
  | false =>
    rw [takeAccept_of_other current]
    exact withdrawFrom_tagAndDoubts s sender tag
  | true =>
    obtain ⟨o, offered, rfl, rfl⟩ := answersOffer_iff.mp current
    rw [takeAccept_of_current offered]
    split
    · exact acceptCurrent_tagAndDoubts s o price queuePos
    · rfl

theorem offerLocal_lastTag (s : Station) (tray column : Nat) : (s.offerLocal tray column).txn.lastTag = nextTag s := by
  refine congrArg Prod.fst (?_ : tagAndDoubts (s.offerLocal tray column) = (nextTag s, s.audit.inDoubt))
  have offered : tagAndDoubts ((s.recordOffer .loc tray column).queueOffer .loc
      (s.recordOffer .loc tray column).txn.lastTag tray column).1 = (nextTag s, s.audit.inDoubt) :=
    tagAndDoubts_of_kept (queueOffer_kept (s.recordOffer .loc tray column) .loc _ tray column) (by decide) (by decide)
  unfold Station.offerLocal
  dsimp only
  split <;> rename_i answered <;> rw [answered] at offered
  · exact (takeAccept_tagAndDoubts _ _ _ _ _).trans offered
  · exact (takeRefuse_tagAndDoubts _ _ _ _).trans offered

end OwnTag

section OwnLetter

/-! ### The own letter's answer (R113, R114) -/

variable {w s : Station} {tray column : Nat} {payer : Payer} {tag : Nat} {e : Entry}

/-- R113: an own offer that is not admitted is refused at once. -/
theorem offerLocal_of_refusal {r : Reason} (unknown : w.queue.find? (entryIs .loc (nextTag w)) = none)
    (refused : w.offerRefusal tray column = some r) :
    w.offerLocal tray column =
      ((w.recordOffer .loc tray column).showCustomer (reasonMessage r) Config.messageTime).toResting := by
  have answered : (w.recordOffer .loc tray column).queueOffer .loc (nextTag w) tray column =
      (w.recordOffer .loc tray column, .refuse r) := queueOffer_of_refusal unknown refused
  have current : (w.recordOffer .loc tray column).answersOffer .loc (nextTag w) = true :=
    answersOffer_iff.mpr ⟨_, rfl, rfl, rfl⟩
  have taken := takeRefuse_of_asking current rfl r
  unfold Station.offerLocal
  change (match (w.recordOffer .loc tray column).queueOffer .loc (nextTag w) tray column with
    | (s2, .accept price queuePos) => s2.takeAccept .loc (nextTag w) price queuePos
    | (s2, .refuse r) => s2.takeRefuse .loc (nextTag w) r) = _
  rw [answered]
  exact taken

/-- R20, R113: the station with its own offer recorded and admitted. -/
def ownOffer (s : Station) (tray column : Nat) : Station :=
  admitted (s.recordOffer .loc tray column) .loc (nextTag s) tray column

/-- R113: the offer recorded for the own letter. -/
def ownRecord (s : Station) (tray column : Nat) : Offer := ⟨.loc, nextTag s, positionNumber tray column, none⟩

/-- R20: the entry of an own offer. -/
def ownEntry (s : Station) (tray column : Nat) : Entry := s.newEntry .loc (nextTag s) tray column

theorem ownOffer_kept (s : Station) (tray column : Nat) : Kept [.txn, .queue, .spirals] s (ownOffer s tray column) :=
  (((recordOffer_kept s .loc tray column).mono (by decide)).trans ((queue_kept _ _).mono (by decide))).trans
    ((applyNaming_kept _ _).mono (by decide))

theorem ownOffer_txn (s : Station) (tray column : Nat) :
    (ownOffer s tray column).txn = (s.recordOffer .loc tray column).txn :=
  applyNaming_kept _ _ .txn (by decide)

theorem ownOffer_queue (s : Station) (tray column : Nat) :
    (ownOffer s tray column).queue = s.queue ++ [ownEntry s tray column] :=
  admitted_queue _ _ _ _ _

/-- R114: an own offer that is admitted has its ACCEPT in the same event. -/
theorem offerLocal_of_admission (unknown : w.queue.find? (entryIs .loc (nextTag w)) = none)
    (admits : w.offerRefusal tray column = none) :
    w.offerLocal tray column =
      (ownOffer w tray column).acceptCurrent (ownRecord w tray column) (w.spiral (positionNumber tray column)).price
        (w.queue.length + 1) := by
  have answered : (w.recordOffer .loc tray column).queueOffer .loc (nextTag w) tray column =
      (ownOffer w tray column, .accept (w.spiral (positionNumber tray column)).price (w.queue.length + 1)) :=
    queueOffer_of_admission unknown admits
  have txn_eq := ownOffer_txn w tray column
  have offered : (ownOffer w tray column).txn.offer = some (ownRecord w tray column) := congrArg Txn.offer txn_eq
  have asking : (ownOffer w tray column).txn.state = .asking := congrArg Txn.state txn_eq
  have taken := takeAccept_of_current offered (w.spiral (positionNumber tray column)).price (w.queue.length + 1)
  rw [if_pos asking] at taken
  unfold Station.offerLocal
  change (match (w.recordOffer .loc tray column).queueOffer .loc (nextTag w) tray column with
    | (s2, .accept price queuePos) => s2.takeAccept .loc (nextTag w) price queuePos
    | (s2, .refuse r) => s2.takeRefuse .loc (nextTag w) r) = _
  rw [answered]
  exact taken

/-- R22: a COMMIT to the own queue with the price of the entry that waits for it. -/
theorem commitTo_own (found : s.queue.find? (entryIs .loc tag) = some e) (waiting : e.state = .awaitCommit) :
    s.commitTo .loc tag e.price = (boundAt s .loc tag).pick := by
  simp [Station.commitTo, Station.queueCommit, found, waiting]
  rfl

/-- R24: the entry bound stands in the queue after the pick, COMMITTED or picked itself. -/
theorem find?_boundAt_pick_entry (found : s.queue.find? (entryIs payer tag) = some e) :
    ∃ f, (boundAt s payer tag).pick.queue.find? (entryIs payer tag) = some f ∧ f.position = e.position ∧
      f.price = e.price ∧ f.test = e.test ∧ (f.state = .committed ∨ f.state = .vending) := by
  have bound : (boundAt s payer tag).queue.find? (entryIs payer tag) = some (boundEntry e) :=
    (find?_updateFirst_self (f := boundEntry) (fun _ => rfl) s.queue).trans (by rw [found]; rfl)
  rcases pick_queue (boundAt s payer tag) with picked | picked <;> rw [picked]
  · exact ⟨_, bound, rfl, rfl, rfl, .inl rfl⟩
  · rcases find?_updateFirst (boundAt s payer tag).pickable (f := fun e => { e with state := .vending })
      (fun _ => rfl) bound with unpicked | itself
    · exact ⟨_, unpicked, rfl, rfl, rfl, .inl rfl⟩
    · exact ⟨_, itself, rfl, rfl, rfl, .inr rfl⟩

theorem boundAt_pick_queue_length (s : Station) (payer : Payer) (tag : Nat) :
    (boundAt s payer tag).pick.queue.length = s.queue.length :=
  (pick_queue_length _).trans (updateFirst_length _ _ _)

theorem ownEntry_is (s : Station) (tray column : Nat) : entryIs .loc (nextTag s) (ownEntry s tray column) = true := by
  simp [entryIs, ownEntry, Station.newEntry]

theorem find?_ownEntry (unknown : w.queue.find? (entryIs .loc (nextTag w)) = none) (tray column : Nat) :
    (w.queue ++ [ownEntry w tray column]).find? (entryIs .loc (nextTag w)) = some (ownEntry w tray column) := by
  rw [List.find?_append, unknown, List.find?_cons_of_pos (ownEntry_is w tray column)]
  rfl

theorem removeFirst_append_of_absent {α : Type} {p : α → Bool} {l : List α} {b : α} (absent : ∀ x ∈ l, p x = false)
    (present : p b = true) : removeFirst p (l ++ [b]) = l := by
  induction l with
  | nil => simp [removeFirst, present]
  | cons x rest ih =>
    rw [List.cons_append, removeFirst, if_neg (by simp [absent x (by simp)]), ih fun y hy => absent y (by simp [hy])]

/-- R23: the WITHDRAW of an own offer takes its entry out again. -/
theorem removeFirst_ownEntry (unknown : w.queue.find? (entryIs .loc (nextTag w)) = none) (tray column : Nat) :
    removeFirst (fun e => entryIs .loc (nextTag w) e && e.state != .vending) (w.queue ++ [ownEntry w tray column]) =
      w.queue := by
  refine removeFirst_append_of_absent (fun x hx => ?_) ?_
  · rw [eq_false_of_ne_true (List.find?_eq_none.mp unknown x hx), Bool.false_and]
  · rw [ownEntry_is]
    rfl

/-- R114: an own sale that is bound: the record and the entry. -/
theorem bindSale_own (unknown : w.queue.find? (entryIs .loc (nextTag w)) = none) (tray column queuePos : Nat) :
    let price := (w.spiral (positionNumber tray column)).price
    let t := (ownOffer w tray column).bindSale (ownRecord w tray column) price queuePos
    t.txn = boundTxn (ownOffer w tray column).txn (ownRecord w tray column) price queuePos ∧
      t.queue.length = w.queue.length + 1 ∧
      ∃ e, t.queue.find? (entryIs .loc (nextTag w)) = some e ∧ e.position = positionNumber tray column ∧
        e.price = price ∧ e.test = false ∧ (e.state = .committed ∨ e.state = .vending) := by
  intro price t
  have queue_eq := ownOffer_queue w tray column
  generalize booked_eq : { ownOffer w tray column with
    txn := boundTxn (ownOffer w tray column).txn (ownRecord w tray column) price queuePos } = b
  have booked_queue : b.queue = w.queue ++ [ownEntry w tray column] := by rw [← booked_eq]; exact queue_eq
  have found : b.queue.find? (entryIs .loc (nextTag w)) = some (ownEntry w tray column) := by
    rw [booked_queue]
    exact find?_ownEntry unknown tray column
  have bound : t = (boundAt b .loc (nextTag w)).pick := by
    rw [← commitTo_own found rfl, ← booked_eq]
    rfl
  rw [bound, boundAt_pick_queue_length, booked_queue]
  refine ⟨?_, by simp, find?_boundAt_pick_entry found⟩
  rw [show (boundAt b .loc (nextTag w)).pick.txn = b.txn from pick_kept _ .txn (by decide), ← booked_eq]

/-- R114: an own offer whose ACCEPT is declined has left the queue as it was. -/
theorem declineAccept_own (unknown : w.queue.find? (entryIs .loc (nextTag w)) = none) (tray column : Nat) (m : Message)
    (length : Nat) :
    ((ownOffer w tray column).declineAccept (ownRecord w tray column) m length).queue = w.queue := by
  have shown : ((ownOffer w tray column).showCustomer m length).queue = w.queue ++ [ownEntry w tray column] :=
    (showCustomer_kept _ m length .queue (by decide)).trans (ownOffer_queue w tray column)
  change removeFirst (fun e => entryIs .loc (nextTag w) e && e.state != .vending)
    ((ownOffer w tray column).showCustomer m length).queue = w.queue
  rw [shown]
  exact removeFirst_ownEntry unknown tray column

/-- R114: what the checks of an ACCEPT read is at an own offer as before it. -/
theorem ownOffer_checks (s : Station) (tray column : Nat) :
    (ownOffer s tray column).txn.credit = s.txn.credit ∧ (ownOffer s tray column).cfg = s.cfg ∧
      (ownOffer s tray column).coin.tubes = s.coin.tubes ∧
      (ownOffer s tray column).faults.doorOpen = s.faults.doorOpen :=
  have kept := ownOffer_kept s tray column
  ⟨(congrArg Txn.credit (ownOffer_txn s tray column) :), cfg_of_kept (kept .setup (by decide)), kept .tubes (by decide),
    doorOpen_of_kept (kept .door (by decide))⟩

theorem ownOffer_binds {price : Nat} (covered : price ≤ w.txn.credit)
    (payable : w.cfg.multiVend = true ∨ payableExactly w.coin.tubes (w.txn.credit - price) = true) (queuePos : Nat) :
    (ownOffer w tray column).acceptCurrent (ownRecord w tray column) price queuePos =
      (ownOffer w tray column).bindSale (ownRecord w tray column) price queuePos := by
  obtain ⟨credit, cfg, tubes, -⟩ := ownOffer_checks w tray column
  rw [← credit, ← cfg, ← tubes] at payable
  exact acceptCurrent_of_covered (by rw [credit]; exact covered) (.inl rfl) payable queuePos

theorem ownOffer_declines {price : Nat} (declined : w.txn.credit < price ∨
      (w.cfg.multiVend = false ∧ payableExactly w.coin.tubes (w.txn.credit - price) = false)) (tray column : Nat) :
    Declines (ownOffer w tray column) .loc price (if w.txn.credit < price then .price price else .exact) := by
  obtain ⟨credit, cfg, tubes, -⟩ := ownOffer_checks w tray column
  unfold Declines
  rw [credit, cfg, tubes]
  by_cases short : w.txn.credit < price
  · exact .inl ⟨short, if_pos short⟩
  · obtain ⟨single, unpayable⟩ := declined.resolve_left short
    exact .inr (.inr ⟨Nat.le_of_not_lt short, .inl rfl, single, unpayable, if_neg short⟩)

/-- R113: an own offer refused leaves the resting state and the refusal's message. -/
theorem offerLocal_refused {r : Reason} (closed : w.faults.doorOpen = false)
    (unknown : w.queue.find? (entryIs .loc (nextTag w)) = none) (refused : w.offerRefusal tray column = some r) :
    (w.offerLocal tray column).txn = (w.recordOffer .loc tray column).toResting.txn ∧
      (w.offerLocal tray column).queue = w.queue ∧
      (w.offerLocal tray column).panel.message = some (reasonMessage r) := by
  rw [offerLocal_of_refusal unknown refused]
  exact ⟨showCustomer_toResting_txn _ _ _,
    showCustomer_kept (w.recordOffer .loc tray column) (reasonMessage r) Config.messageTime .queue (by decide),
    showCustomer_message (s := w.recordOffer .loc tray column) closed _ _⟩

/-- R114: an own offer whose ACCEPT passes the checks is a bound sale. -/
theorem offerLocal_bound {price : Nat} (price_eq : price = (w.spiral (positionNumber tray column)).price)
    (unknown : w.queue.find? (entryIs .loc (nextTag w)) = none) (admits : w.offerRefusal tray column = none)
    (covered : price ≤ w.txn.credit)
    (payable : w.cfg.multiVend = true ∨ payableExactly w.coin.tubes (w.txn.credit - price) = true) :
    (w.offerLocal tray column).txn =
        boundTxn (w.recordOffer .loc tray column).txn (ownRecord w tray column) price (w.queue.length + 1) ∧
      (w.offerLocal tray column).queue.length = w.queue.length + 1 ∧
      ∃ e, (w.offerLocal tray column).queue.find? (entryIs .loc (nextTag w)) = some e ∧
        e.position = positionNumber tray column ∧ e.price = price ∧ e.test = false ∧
        (e.state = .committed ∨ e.state = .vending) := by
  subst price_eq
  rw [offerLocal_of_admission unknown admits, ownOffer_binds covered payable, ← ownOffer_txn]
  exact bindSale_own unknown tray column (w.queue.length + 1)

/-- R114: an own offer whose ACCEPT is declined leaves the resting state and the message of the check. -/
theorem offerLocal_declined {price : Nat} (price_eq : price = (w.spiral (positionNumber tray column)).price)
    (closed : w.faults.doorOpen = false)
    (unknown : w.queue.find? (entryIs .loc (nextTag w)) = none) (admits : w.offerRefusal tray column = none)
    (declined : w.txn.credit < price ∨
      (w.cfg.multiVend = false ∧ payableExactly w.coin.tubes (w.txn.credit - price) = false)) :
    (w.offerLocal tray column).txn = (w.recordOffer .loc tray column).toResting.txn ∧
      (w.offerLocal tray column).queue = w.queue ∧
      (w.offerLocal tray column).panel.message = some (if w.txn.credit < price then .price price else .exact) := by
  obtain ⟨-, -, -, door⟩ := ownOffer_checks w tray column
  obtain ⟨length, declines⟩ := acceptCurrent_of_declines (o := ownRecord w tray column)
    (ownOffer_declines declined tray column) (w.queue.length + 1)
  rw [offerLocal_of_admission unknown admits, ← price_eq, declines, declineAccept_txn, declineAccept_own unknown]
  refine ⟨?_, rfl, declineAccept_message (door.trans closed) _ _ _⟩
  unfold Station.toResting
  rw [ownOffer_txn]

end OwnLetter

section SelectionKey

/-! ### The digit that completes a selection -/

/-- R112: the station whose digit has been taken, with the buffer cleared. -/
def selectionTaken (s : Station) : Station := s.keyTaken.clearBuffer

theorem selectionTaken_kept (s : Station) : Kept [.txn, .buffer] s (selectionTaken s) :=
  (keyTaken_kept s).trans ((clearBuffer_kept _).mono (by decide))

/-- R113: what an offer reads of the station is at the selection as before the key. -/
structure SelectionFrom (u w : Station) : Prop where
  owner : ∀ letter, w.ownerOf letter = u.ownerOf letter
  reaches : ∀ a, w.offerReaches a = u.offerReaches a
  refusal : ∀ tray column, w.offerRefusal tray column = u.offerRefusal tray column
  spiral : ∀ position, w.spiral position = u.spiral position
  queue : w.queue = u.queue
  cfg : w.cfg = u.cfg
  tubes : w.coin.tubes = u.coin.tubes
  line : w.line = u.line
  door : w.faults.doorOpen = u.faults.doorOpen
  txn : w.txn = { u.txn with inactivityTimer := 0 }

theorem selectionTaken_from (s : Station) : SelectionFrom s (selectionTaken s) :=
  ⟨fun _ => rfl, fun _ => rfl, fun _ _ => rfl, fun _ => rfl, rfl, rfl, rfl, rfl, rfl, rfl⟩

theorem SelectionFrom.credit {u w : Station} (h : SelectionFrom u w) : w.txn.credit = u.txn.credit := by
  rw [h.txn]

theorem SelectionFrom.nextTag {u w : Station} (h : SelectionFrom u w) : nextTag w = nextTag u := by
  unfold Sys2Proof.Proofs.nextTag
  rw [h.txn]

theorem selection_gives {s : State} {P : Station → Prop} {letter tray digit : Nat} (keys : s.station.customerKeys = true)
    (ok : digit ≤ 9) (opened : s.station.bufferOpen = true) (payment : isPayment s.station.cfg = true)
    (buffered : s.station.panel.buffer = some ⟨letter, some tray⟩)
    (h : P (finish s.station ((selectionTaken s.station).makeOffer letter tray digit))) : Gives (.keyDigit digit) s P := by
  refine keyDigit_gives keys ok opened ?_
  rw [bufferDigit_of_tray (u := s.station.keyTaken) buffered, Station.selection,
    if_pos (show isPayment s.station.keyTaken.clearBuffer.cfg = true from payment)]
  exact h

/-- R113: a selection with no owner that is reached shows NOT AVAIL and ends. -/
theorem finish_notAvail {o w : Station} {letter tray column : Nat} (taken : Kept [.txn, .buffer] o w)
    (closed : w.faults.doorOpen = false)
    (shown : w.makeOffer letter tray column = w.showCustomer .notAvail Config.messageTime) :
    (finish o (w.makeOffer letter tray column)).panel.message = some .notAvail ∧
      KeepsBut [.buffer, .txn, .message] o (finish o (w.makeOffer letter tray column)) ∧
      (finish o (w.makeOffer letter tray column)).txn = w.txn := by
  rw [shown, finish_message, finish_txn]
  have message := showCustomer_kept w .notAvail Config.messageTime
  exact ⟨showCustomer_message closed _ _, keepsBut_of_kept o ((taken.mono (by decide)).trans (message.mono (by decide)))
    (by decide), message .txn (by decide)⟩

end SelectionKey

/-- The end of an event leaves the vend queue. -/
theorem finish_queue (o s : Station) : (finish o s).queue = s.queue := finish_same o s .queue

/-- Settles O48: the selection by the owner of its letter, the own one by its answer and by the checks of the ACCEPT. -/
theorem selectionMakesAnOffer : Obligations.SelectionMakesAnOffer := by
  unfold Obligations.SelectionMakesAnOffer
  intro s letter tray digit tag price keys ok opened payment buffered tag_eq price_eq
  refine selection_gives keys ok opened payment buffered ?_
  have taken := selectionTaken_kept s.station
  have same := selectionTaken_from s.station
  have unbuffered : (selectionTaken s.station).panel.buffer = none := rfl
  generalize selectionTaken s.station = w at *
  have closed : w.faults.doorOpen = false := same.door.trans (customerKeys_closed keys)
  have tag_next : nextTag w = tag := same.nextTag.trans tag_eq.symm
  have price_here : price = (w.spiral (positionNumber tray digit)).price := by rw [same.spiral]; exact price_eq
  have kept := makeOffer_kept w letter tray digit
  have frame := same_of_kept s.station (rs := [.clock, .setup, .home, .chute, .tubes, .journal, .coinLink, .service, .peers,
    .line, .door]) ((taken.mono (by decide)).trans (kept.mono
      (m := [.queue, .vend, .power, .lineQueue, .payout, .txn, .counters, .latch, .message, .spirals, .buffer]) (by decide)))
    (by decide)
  have buffer_eq : (finish s.station (w.makeOffer letter tray digit)).panel.buffer = none :=
    (finish_buffer _ _).1.trans ((congrArg Prod.fst (kept .buffer (by decide))).trans unbuffered)
  have notAvail := finish_notAvail (letter := letter) (tray := tray) (column := digit) taken closed
  have txn_eq := finish_txn s.station (w.makeOffer letter tray digit)
  have queue_eq := finish_queue s.station (w.makeOffer letter tray digit)
  have message_eq := finish_message s.station (w.makeOffer letter tray digit)
  have sent := fun f => mem_lineQueue_finish s.station (f := f) (s := w.makeOffer letter tray digit)
  generalize finish s.station (w.makeOffer letter tray digit) = t at *
  rw [← same.txn]
  simp only [← same.owner, ← same.reaches, ← same.refusal, ← same.queue, ← same.cfg, ← same.tubes, ← same.credit]
  refine ⟨buffer_eq, fun unowned => notAvail (makeOffer_of_unowned unowned), fun a owner unreached => ?unreached,
    fun a owner reached => ?reached, fun own => ?tag, fun r own unknown refused => ?refused,
    fun own unknown admits => ⟨fun covered payable => ?binds, fun declined => ?declines⟩, frame⟩
  case unreached =>
    obtain ⟨message, -, resting⟩ := notAvail (makeOffer_of_unreached owner unreached)
    exact ⟨message, resting⟩
  case reached =>
    obtain ⟨offered, queued⟩ := makeOffer_reached (tray := tray) (column := digit) owner reached
    rw [tag_next, same.line] at queued
    rw [txn_eq, offered]
    exact ⟨by rw [← tag_next]; rfl, rfl, tag_next, rfl, rfl, fun room => sent _ (queued room)⟩
  all_goals rw [makeOffer_of_own own] at txn_eq queue_eq message_eq
  case tag => rw [txn_eq, offerLocal_lastTag, tag_next]
  all_goals rw [← tag_next] at unknown
  case refused =>
    obtain ⟨txn, queue, message⟩ := offerLocal_refused closed unknown refused
    rw [txn_eq, txn, queue_eq, queue, message_eq]
    exact ⟨rfl, rfl, rfl, rfl, message⟩
  case binds =>
    obtain ⟨txn, length, entry⟩ := offerLocal_bound price_here unknown admits covered payable
    rw [txn_eq, txn, queue_eq, length, ← tag_next]
    exact ⟨rfl, rfl, rfl, rfl, rfl, rfl, rfl, entry⟩
  case declines =>
    obtain ⟨txn, queue, message⟩ := offerLocal_declined price_here closed unknown admits declined
    rw [txn_eq, txn, queue_eq, queue, message_eq]
    exact ⟨rfl, rfl, rfl, rfl, message⟩

end Sys2Proof.Proofs

/-! SUPPORT. The refutation of O8. Its second part asks `LoadLaw` to be kept from every station that meets it, and the clause
`AtRest` of that law asks a station in OFFLINE to hold an IDLE payout, though not to have no coin in progress: the coin's miss
(R102) holds the payout there. -/

namespace Sys2Proof.Proofs

open Sys2Proof.Machine Sys2Proof.Laws

section RestingLoads

/-- The station at rest whose IDLE payout has a coin in progress runs no load and asks for none. -/
theorem restingCoin_loadLaw : LoadLaw restingCoin := by
  unfold LoadLaw AtRest
  refine ⟨?_, by decide, by decide, by decide, by decide, fun _ _ => rfl, by decide⟩
  constructor
  · intro standing
    cases standing
  · rintro ⟨v, in_flight, -⟩
    cases in_flight

end RestingLoads

/-- Refutes O8: from `restingCoin`, which meets the law of the loads, a miss leaves a STOPPED payout in OFFLINE. -/
theorem not_stepNeverHeatsAndCools : ¬ Obligations.StepNeverHeatsAndCools := by
  unfold Obligations.StepNeverHeatsAndCools
  rintro ⟨-, keepsLoadLaw, -, -⟩
  obtain ⟨t, stepped, not_running, stopped⟩ := step_restingCoin
  obtain ⟨-, -, -, -, -, -, -, resting⟩ := keepsLoadLaw restingCoinMachine t restingCoin_loadLaw stepped
  obtain ⟨-, -, -, idle, -⟩ := resting not_running
  rw [stopped] at idle
  cases idle

end Sys2Proof.Proofs

/-! SUPPORT. What the admission of loads at the end of an event leaves of the cooling controller and of the power budget unit
(O52 to O54, O58): a grant starts a compressor or a heater that waits, of a class that is asked for, and nothing else. -/

namespace Sys2Proof.Proofs

open Sys2Proof.Machine Sys2Proof.Laws

section Served

/-! ### Slots and requests -/

variable {s t u : Station} {cls : LoadClass}

/-- Each request comes from one of its class and is as withdrawn as that one. -/
def Derived (before after : List Request) : Prop :=
  ∀ r ∈ after, ∃ q ∈ before, r.cls = q.cls ∧ r.withdrawn = q.withdrawn

theorem Derived.refl (l : List Request) : Derived l l := fun r hr => ⟨r, hr, rfl, rfl⟩

theorem Derived.trans {l m n : List Request} (h : Derived l m) (k : Derived m n) : Derived l n := fun r hr => by
  obtain ⟨q, hq, cls_eq, withdrawn_eq⟩ := k r hr
  obtain ⟨p, hp, cls_eq', withdrawn_eq'⟩ := h q hq
  exact ⟨p, hp, cls_eq.trans cls_eq', withdrawn_eq.trans withdrawn_eq'⟩

/-- A list that names no request of a class gets none. -/
theorem Derived.hasRequest {l m : List Request} (h : Derived l m) (free : hasRequest l cls = false) :
    hasRequest m cls = false := by
  unfold Machine.hasRequest at *
  rw [List.any_eq_false] at *
  intro r hr
  obtain ⟨q, hq, cls_eq, -⟩ := h r hr
  rw [cls_eq]
  exact free q hq

theorem updateFirst_derived (p : Request → Bool) {g : Request → Request}
    (hg : ∀ r, (g r).cls = r.cls ∧ (g r).withdrawn = r.withdrawn) (l : List Request) : Derived l (updateFirst p g l) := by
  intro r hr
  rcases mem_updateFirst hr with inside | ⟨q, hq, -, rfl⟩
  · exact ⟨r, inside, rfl, rfl⟩
  · exact ⟨q, hq, hg q⟩

theorem readyHeld_derived (l : List Request) : Derived l (readyHeld l) := by
  intro r hr
  obtain ⟨q, hq, rfl⟩ := List.mem_map.mp hr
  refine ⟨q, hq, ?_⟩
  split <;> exact ⟨rfl, rfl⟩

/-- The loads as they were, but for the slot of one class and for what becomes of the requests that wait. -/
structure Serves (cls : LoadClass) (s t : Station) : Prop where
  slots : ∀ other, other ≠ cls → t.power.slot other = s.power.slot other
  requests : Derived s.power.requests t.power.requests

theorem Serves.trans (h : Serves cls s t) (k : Serves cls t u) : Serves cls s u :=
  ⟨fun other ne => (k.slots other ne).trans (h.slots other ne), h.requests.trans k.requests⟩

theorem Serves.of_power (h : t.power = s.power) : Serves cls s t := by
  constructor
  · intro _ _
    rw [h]
  · rw [h]
    exact .refl _

theorem Serves.of_kept {l : List Region} (h : Kept l s t) (hp : Region.power ∉ l) : Serves cls s t := .of_power (h .power hp)

/-- Only the waiting list changed. -/
theorem Serves.of_requests {l : List Request} (h : Derived s.power.requests l) :
    Serves cls s { s with power := { s.power with requests := l } } :=
  ⟨fun other _ => by cases other <;> rfl, h⟩

theorem setSlot_serves (s : Station) (cls : LoadClass) (f : Option Fig) :
    Serves cls s { s with power := s.power.setSlot cls f } :=
  ⟨fun other ne => setSlot_slot_other s.power cls other f ne, by rw [setSlot_requests]; exact .refl _⟩

theorem setRequest_serves (s : Station) (asked : LoadClass) {g : Request → Request}
    (hg : ∀ r, (g r).cls = r.cls ∧ (g r).withdrawn = r.withdrawn) : Serves cls s (s.setRequest asked g) :=
  .of_requests (updateFirst_derived _ hg _)

theorem dropRequest_serves (s : Station) (asked : LoadClass) : Serves cls s (s.dropRequest asked) :=
  .of_requests fun r hr => ⟨r, (removeFirst_sublist _ _).subset hr, rfl, rfl⟩

theorem roomMade_serves (s : Station) : Serves cls s s.roomMade := by
  unfold Station.roomMade
  split
  · exact .of_requests (readyHeld_derived _)
  · exact .of_power rfl

theorem releaseSlot_serves (s : Station) (cls : LoadClass) : Serves cls s (s.releaseSlot cls) := by
  unfold Station.releaseSlot
  split
  · exact .of_power rfl
  · have cleared := (setSlot_serves s cls none).trans (roomMade_serves _)
    dsimp only
    split
    · exact cleared.trans (.of_kept (hand_kept _ _ _) (by decide))
    · exact cleared

/-- R154, R162: a standing slot lowered to a power within it. -/
theorem request_of_standing {f power : Fig} (standing : s.power.slot cls = some f) (within : watts power ≤ watts f) :
    s.request cls power =
      ({ s with power := s.power.setSlot cls (some power) }).roomMade.hand 0 (.claim cls (classRank cls) power) := by
  simp only [Station.request, standing, if_pos within]

theorem handGrant_serves (s : Station) (cls : LoadClass) : Serves cls s (s.handGrant cls) := by
  cases cls with
  | vendMotor =>
    change Serves _ s s.vendMotorGranted
    unfold Station.vendMotorGranted
    repeat' split
    · exact .of_kept (energise_kept s) (by decide)
    · exact releaseSlot_serves s _
    · exact releaseSlot_serves s _
  | compressor =>
    change Serves _ s s.compressorGranted
    unfold Station.compressorGranted
    split
    · exact .of_power rfl
    · exact releaseSlot_serves s _
  | defrostHeater =>
    change Serves _ s s.heaterGranted
    unfold Station.heaterGranted
    split
    · exact .of_power rfl
    · exact releaseSlot_serves s _

theorem grant_serves (s : Station) (r : Request) : Serves r.cls s (s.grant r) :=
  ((setSlot_serves s r.cls _).trans (dropRequest_serves _ _)).trans (handGrant_serves _ _)

theorem claim_serves (s : Station) (r : Request) : Serves cls s (s.claim r) := by
  have handed : Serves cls s (s.handFrame ⟨0, .claim r.cls r.rank r.power, true⟩).1 := by
    obtain ⟨_, _, h⟩ := handFrame_hands s ⟨0, .claim r.cls r.rank r.power, true⟩
    exact .of_power (by rw [h])
  unfold Station.claim
  split <;> rename_i answered <;> rw [answered] at handed
  · exact handed.trans (setRequest_serves _ _ fun _ => ⟨rfl, rfl⟩)
  · exact handed.trans (setRequest_serves _ _ fun _ => ⟨rfl, rfl⟩)

theorem checkActive_serves (s : Station) (r : Request) : Serves cls s (s.checkActive r) := by
  have checked : Serves cls s (s.setRequest r.cls Request.check) := setRequest_serves s _ fun _ => ⟨rfl, rfl⟩
  unfold Station.checkActive
  dsimp only
  split
  · exact checked.trans (claim_serves _ _)
  · exact checked.trans (setRequest_serves _ _ fun _ => ⟨rfl, rfl⟩)

theorem checkIsolated_serves (s : Station) (r : Request) : Serves r.cls s (s.checkIsolated r) := by
  have checked : Serves r.cls s (s.setRequest r.cls Request.check) := setRequest_serves s _ fun _ => ⟨rfl, rfl⟩
  unfold Station.checkIsolated
  dsimp only
  split
  · exact checked.trans (grant_serves _ _)
  · exact checked.trans (setRequest_serves _ _ fun _ => ⟨rfl, rfl⟩)

/-- The slot of a class that no request waits for stays, and no request is added or taken back. -/
structure Served (s t : Station) : Prop where
  slots : ∀ cls, hasRequest s.power.requests cls = false → t.power.slot cls = s.power.slot cls
  requests : Derived s.power.requests t.power.requests

theorem Served.refl (s : Station) : Served s s := ⟨fun _ _ => rfl, .refl _⟩

theorem Served.trans (h : Served s t) (k : Served t u) : Served s u :=
  ⟨fun cls free => (k.slots cls (h.requests.hasRequest free)).trans (h.slots cls free), h.requests.trans k.requests⟩

theorem checkOne_served (h : s.checkOne = some t) : Served s t := by
  obtain ⟨r, inside, -, checked⟩ := checkOne_cases h
  have serves : Serves r.cls s t := by
    rcases checked with ⟨-, rfl⟩ | ⟨-, rfl⟩
    · exact checkActive_serves s r
    · exact checkIsolated_serves s r
  refine ⟨fun cls free => serves.slots cls ?_, serves.requests⟩
  rintro rfl
  simp only [hasRequest, List.any_eq_false] at free
  exact free r inside (by simp)

theorem admitLoads_served (s : Station) : Served s s.admitLoads :=
  admitFor_induct Served.refl (fun _ _ _ => Served.trans) (fun _ _ => checkOne_served) 12 s

/-- R157, R166: what the end of an event leaves of the loads. -/
theorem finish_served (o s : Station) : Served s (finish o s) := by
  obtain ⟨lit, evaluated⟩ := evaluateIfChanged_shape s o
  have power_eq : (s.evaluateIfChanged o).power = s.power := by rw [evaluated]
  obtain ⟨slots, requests⟩ := admitLoads_served (s.evaluateIfChanged o)
  rw [← finish_power o s, power_eq] at slots requests
  exact ⟨slots, requests⟩

end Served

section Granted

/-! ### The cooling controller -/

variable {o s t u : Station}

/-- What a grant can make of the cooling controller: a compressor or a heater that waits is started, where the station is
ISOLATED, and nothing else is written but what is measured from that start. -/
structure Granted (s t : Station) : Prop where
  measured : t.cooling.measured = s.cooling.measured
  isolated : t.line.state.isIsolated = s.line.state.isIsolated
  compressor : t.cooling.compressor = s.cooling.compressor ∧ t.cooling.inrushDone = s.cooling.inrushDone ∨
    s.cooling.compressor = .waitPower ∧ t.cooling.compressor = .run ∧ s.line.state.isIsolated = true
  phase : t.cooling.phase = s.cooling.phase ∨ s.cooling.phase = .heaterWait ∧ t.cooling.phase = .heater

theorem Granted.of_cooling (h : t.cooling = s.cooling) (state : t.line.state = s.line.state) : Granted s t := by
  constructor
  · rw [h]
  · rw [state]
  · exact .inl (by rw [h]; exact ⟨rfl, rfl⟩)
  · exact .inl (by rw [h])

theorem Granted.of_kept {l : List Region} (h : Kept l s t) (hc : Region.cooling ∉ l) (hl : Region.line ∉ l) : Granted s t :=
  .of_cooling (h .cooling hc) (state_of_kept h hl)

theorem Granted.trans (h : Granted s t) (k : Granted t u) : Granted s u := by
  refine ⟨k.measured.trans h.measured, k.isolated.trans h.isolated, ?_, ?_⟩
  · rcases h.compressor with ⟨same, inrush⟩ | ⟨waits, runs, isolated⟩
    · have later := k.compressor
      rw [same, inrush, h.isolated] at later
      exact later
    · rcases k.compressor with ⟨same, -⟩ | ⟨waits', -⟩
      · exact .inr ⟨waits, same.trans runs, isolated⟩
      · rw [runs] at waits'
        cases waits'
  · rcases h.phase with same | ⟨waits, heats⟩
    · have later := k.phase
      rw [same] at later
      exact later
    · rcases k.phase with same | ⟨waits', -⟩
      · exact .inr ⟨waits, same.trans heats⟩
      · rw [heats] at waits'
        cases waits'

theorem handGrant_granted (isolated : s.line.state.isIsolated = true) (cls : LoadClass) : Granted s (s.handGrant cls) := by
  have released (c : LoadClass) : Granted s (s.releaseSlot c) := .of_kept (releaseSlot_kept s c) (by decide) (by decide)
  cases cls with
  | vendMotor =>
    change Granted s s.vendMotorGranted
    unfold Station.vendMotorGranted
    repeat' split
    · exact .of_kept (energise_kept s) (by decide) (by decide)
    · exact released _
    · exact released _
  | compressor =>
    change Granted s s.compressorGranted
    unfold Station.compressorGranted
    split
    · rename_i waits
      exact ⟨rfl, rfl, .inr ⟨waits, rfl, isolated⟩, .inl rfl⟩
    · exact released _
  | defrostHeater =>
    change Granted s s.heaterGranted
    unfold Station.heaterGranted
    split
    · rename_i waits
      exact ⟨rfl, rfl, .inl ⟨rfl, rfl⟩, .inr ⟨waits, rfl⟩⟩
    · exact released _

theorem grant_granted (isolated : s.line.state.isIsolated = true) (r : Request) : Granted s (s.grant r) := by
  have handed := handGrant_granted
    (s := ({ s with power := s.power.setSlot r.cls (some r.power) }).dropRequest r.cls) isolated r.cls
  refine Granted.trans ?_ handed
  exact .of_cooling rfl rfl

theorem checkOne_granted (h : s.checkOne = some t) : Granted s t := by
  obtain ⟨r, -, -, ⟨-, rfl⟩ | ⟨isolated, rfl⟩⟩ := checkOne_cases h
  · exact .of_kept (checkActive_loads s r).kept (by decide) (by decide)
  · unfold Station.checkIsolated
    dsimp only
    split
    · exact Granted.trans (t := s.setRequest r.cls Request.check) (.of_cooling rfl rfl)
        (grant_granted (s := s.setRequest r.cls Request.check) isolated r)
    · exact .of_cooling rfl rfl

/-- What the end of an event derives after the admission of loads leaves the cooling controller alone, but for the ice timer. -/
theorem finish_cooling (o s : Station) : (finish o s).cooling = (s.evaluateIfChanged o).admitLoads.resetIce.cooling := by
  have masks (a : Station) : a.sendChangedMasks.cooling = a.cooling := by
    obtain ⟨_, _, _, _, _, h⟩ := sendChangedMasks_masks a
    rw [h]
  have conditions (a : Station) : a.updateConditions.cooling = a.cooling := by
    obtain ⟨_, _, h⟩ := updateConditions_shape a
    rw [h]
  have lamp (a : Station) : a.driveLamp.cooling = a.cooling := by
    obtain ⟨_, _, _, h⟩ := driveLamp_shape a
    rw [h]
  have alternation (a : Station) : a.driveAlternation.cooling = a.cooling := by
    obtain ⟨_, _, _, h⟩ := driveAlternation_shape a
    rw [h]
  have pins (a : Station) : a.drivePins.cooling = a.cooling := rfl
  simp only [finish, Station.driveOutputs, masks, conditions, lamp, alternation, pins]

theorem admitLoads_granted (s : Station) : Granted s s.admitLoads :=
  admitFor_induct (R := Granted) (fun _ => .of_cooling rfl rfl) (fun _ _ _ => Granted.trans) (fun _ _ => checkOne_granted) 12 s

theorem resetIce_granted (s : Station) : Granted s s.resetIce := by
  unfold Station.resetIce
  split
  · exact .of_cooling rfl rfl
  · exact ⟨rfl, rfl, .inl ⟨rfl, rfl⟩, .inl rfl⟩

/-- R134, R144: what the end of an event leaves of the cooling controller. -/
theorem finish_granted (o s : Station) : Granted s (finish o s) := by
  obtain ⟨lit, evaluated⟩ := evaluateIfChanged_shape s o
  have lit_granted : Granted s (s.evaluateIfChanged o) := by
    rw [evaluated]
    exact .of_cooling rfl rfl
  have iced := (lit_granted.trans (admitLoads_granted _)).trans (resetIce_granted _)
  have isolated : (finish o s).line.state.isIsolated = s.line.state.isIsolated := by rw [(finish_admits o s).state]
  obtain ⟨measured, -, compressor, phase⟩ := iced
  rw [← finish_cooling] at measured compressor phase
  exact ⟨measured, isolated, compressor, phase⟩

/-- What belongs to no grant is as the body of the event left it. -/
theorem finish_meter {α : Type} (meter : Cooling → α) (o s : Station)
    (measures : ∀ c : Cooling, meter c.measured = meter c) : meter (finish o s).cooling = meter s.cooling := by
  rw [← measures (finish o s).cooling, finish_same o s .meters, measures]

/-- R134: only a compressor that waits is started. -/
theorem finish_compressor (o : Station) (h : s.cooling.compressor ≠ .waitPower) :
    (finish o s).cooling.compressor = s.cooling.compressor :=
  (finish_granted o s).compressor.elim And.left fun waits => absurd waits.1 h

/-- R134, R166: one that waits is started in the same event at an ISOLATED station, or waits on. -/
theorem finish_waitPower (o : Station) (h : s.cooling.compressor = .waitPower) :
    (finish o s).cooling.compressor = .waitPower ∨
      ((finish o s).line.state.isIsolated = true ∧ (finish o s).cooling.compressor = .run) := by
  obtain ⟨-, state, compressor, -⟩ := finish_granted o s
  exact compressor.imp (fun same => same.1.trans h) fun ⟨_, runs, isolated⟩ => ⟨state.trans isolated, runs⟩

/-- R144: only a heater that waits is started. -/
theorem finish_phase (o : Station) (h : s.cooling.phase ≠ .heaterWait) : (finish o s).cooling.phase = s.cooling.phase :=
  (finish_granted o s).phase.elim id fun waits => absurd waits.1 h

/-- R144, R145: a defrost that melts goes on melting. -/
theorem finish_melting (o : Station) (h : s.cooling.phase.melting = true) : (finish o s).cooling.phase.melting = true := by
  rcases (finish_granted o s).phase with same | ⟨-, heats⟩
  · rw [same]
    exact h
  · rw [heats]
    rfl

/-- R134: the compressor's relay is off unless the compressor runs. -/
theorem finish_cmp_off (h : (finish o s).cooling.compressor ≠ .run) : (finish o s).pins.cmp = false := by
  have driven : (finish o s).pins = (finish o s).outputs := driveOutputs_pins _
  rw [driven, Station.outputs]
  split
  · exact decide_eq_false h
  · rfl

/-- R144: the heater's relay is off outside phase HEATER. -/
theorem finish_dfh_off (h : (finish o s).cooling.phase ≠ .heater) : (finish o s).pins.dfh = false := by
  have driven : (finish o s).pins = (finish o s).outputs := driveOutputs_pins _
  rw [driven, Station.outputs]
  split
  · exact decide_eq_false h
  · rfl

end Granted

end Sys2Proof.Proofs

/-! SUPPORT. The operations of the compressor (R133 to R138, R142) over the cooling controller's record, and its timers (O53). -/

namespace Sys2Proof.Proofs

open Sys2Proof.Machine Sys2Proof.Laws

section Compressor

/-! ### REST and the stops (R133 to R135, R142) -/

variable {o s t w : Station} {c : Cooling} {heater : Bool}

/-- R142: the record as a defrost begins by the method with or without the heater. -/
def defrosting (heater : Bool) (c : Cooling) : Cooling :=
  if heater then { c with
    defrostRequest := false, compressor := .defrost, defrostTimer := 0, phase := .heaterWait, heaterWaitTimer := 0 }
  else { c with defrostRequest := false, compressor := .defrost, defrostTimer := 0, phase := .offCycle }

/-- R133: the record as REST is left. -/
def restLeft (heater : Bool) (c : Cooling) : Cooling :=
  if c.defrostRequest then defrosting heater c
  else if c.demand then { c with compressor := .waitPower }
  else { c with compressor := .idle }

/-- R133: the record as REST is entered. -/
def restEntered (heater : Bool) (c : Cooling) : Cooling :=
  if 180000 ≤ c.sinceStop then restLeft heater { c with compressor := .rest } else { c with compressor := .rest }

/-- R135: the record after a normal stop. -/
def normallyStopped (heater : Bool) (c : Cooling) : Cooling :=
  if c.defrostRequest then defrosting heater c.stop else { c.stop with compressor := .rest }

theorem request_cooling (s : Station) (cls : LoadClass) (power : Fig) : (s.request cls power).cooling = s.cooling :=
  request_kept s cls power .cooling (by decide)

theorem releaseSlot_cooling (s : Station) (cls : LoadClass) : (s.releaseSlot cls).cooling = s.cooling :=
  releaseSlot_kept s cls .cooling (by decide)

theorem releaseSlot_cfg (s : Station) (cls : LoadClass) : (s.releaseSlot cls).cfg = s.cfg :=
  cfg_of_kept (releaseSlot_kept s cls .setup (by decide))

theorem raise_cooling (s : Station) (n : Notice) : (s.raise n).cooling = s.cooling := raise_kept s n .cooling (by decide)

theorem beginDefrost_cooling (s : Station) : s.beginDefrost.cooling = defrosting s.cfg.cooling.heaterMethod s.cooling := by
  unfold Station.beginDefrost defrosting
  split
  · rw [request_cooling]
    rfl
  · rfl

theorem leaveRest_cooling (s : Station) : s.leaveRest.cooling = restLeft s.cfg.cooling.heaterMethod s.cooling := by
  unfold Station.leaveRest restLeft
  split
  · exact beginDefrost_cooling s
  · split
    · exact request_cooling _ _ _
    · rfl

theorem enterRest_cooling (s : Station) : s.enterRest.cooling = restEntered s.cfg.cooling.heaterMethod s.cooling := by
  unfold Station.enterRest restEntered
  dsimp only
  split
  · rw [leaveRest_cooling, if_pos (show 180000 ≤ s.cooling.sinceStop from ‹_›)]
    rfl
  · rw [if_neg (show ¬180000 ≤ s.cooling.sinceStop from ‹_›)]
    rfl

theorem normalStop_cooling (s : Station) : s.normalStop.cooling = normallyStopped s.cfg.cooling.heaterMethod s.cooling := by
  have released := releaseSlot_cooling (s.setCooling Cooling.stop) .compressor
  have cfg_eq := releaseSlot_cfg (s.setCooling Cooling.stop) .compressor
  unfold Station.normalStop normallyStopped
  dsimp only
  rw [released]
  split
  · rw [if_pos (show s.cooling.defrostRequest = true from ‹_›), beginDefrost_cooling, released, cfg_eq]
    rfl
  · rw [if_neg (show ¬s.cooling.defrostRequest = true from ‹_›), enterRest_cooling, released]
    rfl

theorem defrosting_compressor (heater : Bool) (c : Cooling) : (defrosting heater c).compressor = .defrost := by
  unfold defrosting
  split <;> rfl

theorem defrosting_melting (heater : Bool) (c : Cooling) : (defrosting heater c).phase.melting = true := by
  unfold defrosting
  split <;> rfl

theorem defrosting_timer (heater : Bool) (c : Cooling) : (defrosting heater c).defrostTimer = 0 := by
  unfold defrosting
  split <;> rfl

theorem defrosting_request (heater : Bool) (c : Cooling) : (defrosting heater c).defrostRequest = false := by
  unfold defrosting
  split <;> rfl

/-- R142: a defrost has begun in the event. -/
structure DefrostBegun (t : Station) : Prop where
  compressor : t.cooling.compressor = .defrost
  melting : t.cooling.phase.melting = true
  timer : t.cooling.defrostTimer = 0
  request : t.cooling.defrostRequest = false

theorem finish_defrosting (o : Station) (h : w.cooling = defrosting heater c) : DefrostBegun (finish o w) := by
  have compressor : w.cooling.compressor = .defrost := by rw [h]; exact defrosting_compressor heater c
  refine ⟨?_, finish_melting o ?_, ?_, ?_⟩
  · rw [finish_compressor o (by rw [compressor]; decide), compressor]
  · rw [h]
    exact defrosting_melting heater c
  · rw [finish_meter Cooling.defrostTimer o w fun _ => rfl, h]
    exact defrosting_timer heater c
  · rw [finish_meter Cooling.defrostRequest o w fun _ => rfl, h]
    exact defrosting_request heater c

/-- R133: how REST has been left, by the pending request and by demand. -/
structure RestLeft (c : Cooling) (t : Station) : Prop where
  defrost : c.defrostRequest = true → DefrostBegun t
  power : c.defrostRequest = false → c.demand = true →
    t.cooling.compressor = .waitPower ∨ (t.line.state.isIsolated = true ∧ t.cooling.compressor = .run)
  idle : c.defrostRequest = false → c.demand = false → t.cooling.compressor = .idle

theorem finish_restLeft (o : Station) (h : w.cooling = restLeft heater c) : RestLeft c (finish o w) := by
  unfold restLeft at h
  refine ⟨fun requested => ?_, fun unrequested demanded => ?_, fun unrequested undemanded => ?_⟩
  · rw [if_pos requested] at h
    exact finish_defrosting o h
  · rw [if_neg (ne_true_of_eq_false unrequested), if_pos demanded] at h
    exact finish_waitPower o (by rw [h])
  · rw [if_neg (ne_true_of_eq_false unrequested), if_neg (ne_true_of_eq_false undemanded)] at h
    have compressor : w.cooling.compressor = .idle := by rw [h]
    rw [finish_compressor o (by rw [compressor]; decide), compressor]

/-- R133: REST is entered, and left in the same event where 180 s have passed since the last stop. -/
theorem finish_restEntered (o : Station) (h : w.cooling = restEntered heater c) :
    (c.sinceStop < 180000 → (finish o w).cooling.compressor = .rest) ∧ (180000 ≤ c.sinceStop → RestLeft c (finish o w)) := by
  unfold restEntered at h
  refine ⟨fun soon => ?_, fun late => ?_⟩
  · rw [if_neg (Nat.not_le.mpr soon)] at h
    have compressor : w.cooling.compressor = .rest := by rw [h]
    rw [finish_compressor o (by rw [compressor]; decide), compressor]
  · rw [if_pos late] at h
    obtain ⟨defrost, power, idle⟩ := finish_restLeft o h
    exact ⟨defrost, power, idle⟩

/-- R135: a normal stop over its event. -/
theorem finish_normalStop (o s : Station) :
    (finish o s.normalStop).cooling.sinceStop = 0 ∧ (finish o s.normalStop).pins.cmp = false ∧
      (finish o s.normalStop).cooling.compressor = (if s.cooling.defrostRequest then .defrost else .rest) := by
  have stopped := normalStop_cooling s
  have since : s.normalStop.cooling.sinceStop = 0 := by
    rw [stopped]
    unfold normallyStopped defrosting
    repeat' split
    all_goals rfl
  have compressor : s.normalStop.cooling.compressor = if s.cooling.defrostRequest then .defrost else .rest := by
    rw [stopped]
    unfold normallyStopped
    split
    · exact defrosting_compressor _ _
    · rfl
  have ended : (finish o s.normalStop).cooling.compressor = if s.cooling.defrostRequest then .defrost else .rest := by
    rw [finish_compressor o (by rw [compressor]; split <;> decide), compressor]
  exact ⟨(finish_meter Cooling.sinceStop o _ fun _ => rfl).trans since,
    finish_cmp_off (by rw [ended]; split <;> decide), ended⟩

/-! ### Demand (R132, R134, R135) -/

/-- What the compressor's operations leave: demand, cold-hold and its timer, and the sensors. -/
def climate (c : Cooling) : Bool × Bool × Nat × Sensor × Sensor × Sensor :=
  (c.demand, c.coldHold, c.holdTimer, c.air, c.coil, c.cond)

/-- Fixed duty and its timer. -/
def dutyRecord (c : Cooling) : Option DutyPhase × Nat := (c.duty, c.dutyTimer)

theorem dutyRecord_eq_iff {a b : Cooling} : dutyRecord a = dutyRecord b ↔ a.duty = b.duty ∧ a.dutyTimer = b.dutyTimer :=
  Prod.mk_inj

theorem demand_of_climate {a b : Cooling} (h : climate a = climate b) : a.demand = b.demand := (Prod.mk.inj h).1

theorem defrosting_climate (heater : Bool) (c : Cooling) : climate (defrosting heater c) = climate c := by
  unfold defrosting
  split <;> rfl

theorem defrosting_duty (heater : Bool) (c : Cooling) : dutyRecord (defrosting heater c) = dutyRecord c := by
  unfold defrosting
  split <;> rfl

theorem stop_duty (h : c.duty ≠ some .on) : dutyRecord c.stop = dutyRecord c := by
  simp [dutyRecord, Cooling.stop, h]

theorem normallyStopped_climate (heater : Bool) (c : Cooling) : climate (normallyStopped heater c) = climate c := by
  unfold normallyStopped
  split
  · exact defrosting_climate heater c.stop
  · rfl

theorem normallyStopped_duty (heater : Bool) (h : c.duty ≠ some .on) :
    dutyRecord (normallyStopped heater c) = dutyRecord c := by
  unfold normallyStopped
  split
  · exact (defrosting_duty heater c.stop).trans (stop_duty h)
  · exact stop_duty h

theorem demandChanged_of_same {before : Bool} (h : s.cooling.demand = before) : s.demandChanged before = s := if_pos h

/-- R134, R135: a change of demand writes the compressor's state, or is a normal stop where demand has ended in RUN. -/
theorem demandChanged_cooling (s : Station) (before : Bool) :
    (∃ state, (s.demandChanged before).cooling = { s.cooling with compressor := state }) ∨
      s.cooling.demand = false ∧
        (s.demandChanged before).cooling = normallyStopped s.cfg.cooling.heaterMethod s.cooling := by
  have kept : ∃ state, s.cooling = { s.cooling with compressor := state } := ⟨s.cooling.compressor, rfl⟩
  unfold Station.demandChanged
  split
  · exact .inl kept
  · split
    · split
      · exact .inl ⟨_, request_cooling _ _ _⟩
      · exact .inl kept
    · split
      · exact .inl kept
      · exact .inl ⟨.idle, withdrawRequest_kept _ _ .cooling (by decide)⟩
    · split
      · exact .inl kept
      · split
        · exact .inr ⟨eq_false_of_ne_true ‹_›, normalStop_cooling s⟩
        · exact .inl kept
    · exact .inl kept

theorem demandChanged_climate (s : Station) (before : Bool) :
    climate (s.demandChanged before).cooling = climate s.cooling := by
  rcases demandChanged_cooling s before with ⟨_, changed⟩ | ⟨-, changed⟩ <;> rw [changed]
  · rfl
  · exact normallyStopped_climate _ _

/-- R138: only the stop that an ended demand makes turns fixed duty off. -/
theorem demandChanged_duty (before : Bool) (h : s.cooling.demand = true ∨ s.cooling.duty ≠ some .on) :
    dutyRecord (s.demandChanged before).cooling = dutyRecord s.cooling := by
  rcases demandChanged_cooling s before with ⟨_, changed⟩ | ⟨ended, changed⟩ <;> rw [changed]
  · rfl
  · exact normallyStopped_duty _ (h.resolve_left fun demanded => absurd (demanded.symm.trans ended) (by decide))

theorem finish_climate (o s : Station) : climate (finish o s).cooling = climate s.cooling :=
  finish_meter climate o s fun _ => rfl

theorem finish_duty (o s : Station) : dutyRecord (finish o s).cooling = dutyRecord s.cooling :=
  finish_meter dutyRecord o s fun _ => rfl

end Compressor

section Timers

/-! ### The compressor's timers (R133 to R138) -/

variable {s : State} {u : Station}

/-- What time leaves of the cooling controller: the states of the compressor and of a defrost, demand, and fixed duty. -/
theorem advance_cooling (s : Station) (d : Nat) :
    (s.advance d).cooling.compressor = s.cooling.compressor ∧ (s.advance d).cooling.phase = s.cooling.phase ∧
      (s.advance d).cooling.duty = s.cooling.duty := by
  unfold Station.advance
  split
  · exact ⟨rfl, rfl, rfl⟩
  · unfold Cooling.advance
    split <;> exact ⟨rfl, rfl, rfl⟩

/-- R135: the station whose compressor is past its inrush. -/
def inrushOver (u : Station) : Station := u.setCooling fun c => { c with inrushDone := true }

/-- R135, R162: its slot lowered to run watts. -/
def inrushLowered (u : Station) : Station :=
  ({ inrushOver u with power := (inrushOver u).power.setSlot .compressor (some u.cfg.run) }).roomMade

theorem roomMade_slot (s : Station) (cls : LoadClass) : s.roomMade.power.slot cls = s.power.slot cls := by
  unfold Station.roomMade
  split
  · cases cls <;> rfl
  · rfl

theorem endInrush_of_standing {f : Fig} (standing : u.power.compressor = some f) (within : watts u.cfg.run ≤ watts f) :
    u.endInrush = (inrushLowered u).hand 0 (.claim .compressor 2 u.cfg.run) :=
  request_of_standing (s := inrushOver u) (cls := .compressor) standing within

/-- R135: the inrush over, the compressor's claim is lowered to run watts, and the bank is told. -/
theorem finish_endInrush {f : Fig} (o : Station) (standing : u.power.compressor = some f)
    (within : watts u.cfg.run ≤ watts f) (free : hasRequest u.power.requests .compressor = false) :
    (finish o u.endInrush).power.compressor = some u.cfg.run ∧
      (u.active = true → Queued u (finish o u.endInrush) 0 (.claim .compressor 2 u.cfg.run)) := by
  rw [endInrush_of_standing standing within]
  have lowered : Serves .compressor u (inrushLowered u) := by
    refine (Serves.of_power (s := u) (t := inrushOver u) rfl).trans ?_
    exact (setSlot_serves (inrushOver u) .compressor (some u.cfg.run)).trans (roomMade_serves _)
  have line_eq : (inrushLowered u).line = u.line := roomMade_line _
  have slot : (inrushLowered u).power.slot .compressor = some u.cfg.run :=
    (roomMade_slot _ .compressor).trans (setSlot_slot_self (inrushOver u).power .compressor _)
  have told : ((inrushLowered u).hand 0 (.claim .compressor 2 u.cfg.run)).power = (inrushLowered u).power :=
    hand_kept _ _ _ .power (by decide)
  refine ⟨?_, fun active => ?_⟩
  · have served := (finish_served o ((inrushLowered u).hand 0 (.claim .compressor 2 u.cfg.run))).slots .compressor
    rw [told] at served
    exact (served (lowered.requests.hasRequest free)).trans slot
  · rw [Queued]
    intro room
    exact mem_lineQueue_finish o (mem_hand line_eq (sendAllowed_of_hears (.inr active) (.inl active)) rfl 0 room)

/-- R138: the record as a duty phase begins. -/
def dutyTurned (demand : Bool) (phase : DutyPhase) (c : Cooling) : Cooling :=
  { c with demand := demand, duty := some phase, dutyTimer := 0 }

/-- R138: the station as a duty phase begins. -/
def dutyBegun (demand : Bool) (phase : DutyPhase) (u : Station) : Station := u.setCooling (dutyTurned demand phase)

theorem finish_dutyBegun (o u : Station) {demand : Bool} {phase : DutyPhase} (before : Bool)
    (h : demand = true ∨ phase = .off) :
    (finish o ((dutyBegun demand phase u).demandChanged before)).cooling.duty = some phase ∧
      (finish o ((dutyBegun demand phase u).demandChanged before)).cooling.demand = demand ∧
      (finish o ((dutyBegun demand phase u).demandChanged before)).cooling.dutyTimer = 0 := by
  have begun : (dutyBegun demand phase u).cooling = dutyTurned demand phase u.cooling := rfl
  have keeps_on : (dutyBegun demand phase u).cooling.demand = true ∨ (dutyBegun demand phase u).cooling.duty ≠ some .on := by
    rw [begun]
    refine h.imp id fun off => ?_
    rw [show (dutyTurned demand phase u.cooling).duty = some phase from rfl, off]
    decide
  obtain ⟨duty, timer⟩ := dutyRecord_eq_iff.mp ((finish_duty o _).trans (demandChanged_duty before keeps_on))
  have kept := demand_of_climate ((finish_climate o _).trans (demandChanged_climate (dutyBegun demand phase u) before))
  rw [duty, kept, timer, begun]
  exact ⟨rfl, rfl, rfl⟩

/-- R138: the duty phase alternates, and demand with it. -/
theorem finish_changeDuty (o u : Station) (fixed : u.cooling.duty ≠ none) :
    (u.cooling.duty = some .on →
      (finish o u.changeDuty).cooling.duty = some .off ∧ (finish o u.changeDuty).cooling.demand = false) ∧
    (u.cooling.duty = some .off →
      (finish o u.changeDuty).cooling.duty = some .on ∧ (finish o u.changeDuty).cooling.demand = true) ∧
    (finish o u.changeDuty).cooling.dutyTimer = 0 := by
  cases phase : u.cooling.duty with
  | none => exact absurd phase fixed
  | some d =>
    cases d with
    | on =>
      have changed : u.changeDuty = (dutyBegun false .off u).demandChanged u.cooling.demand := by
        rw [Station.changeDuty, phase]
        rfl
      obtain ⟨duty, demand, timer⟩ := finish_dutyBegun o u (demand := false) (phase := .off) u.cooling.demand (.inr rfl)
      rw [← changed] at duty demand timer
      exact ⟨fun _ => ⟨duty, demand⟩, fun off => (by cases off), timer⟩
    | off =>
      have changed : u.changeDuty = (dutyBegun true .on u).demandChanged u.cooling.demand := by
        rw [Station.changeDuty, phase]
        rfl
      obtain ⟨duty, demand, timer⟩ := finish_dutyBegun o u (demand := true) (phase := .on) u.cooling.demand (.inl rfl)
      rw [← changed] at duty demand timer
      exact ⟨fun on => (by cases on), fun _ => ⟨duty, demand⟩, timer⟩

/-- R135: a full hour of relay-on time is counted. -/
def hourRun (u : Station) : Station :=
  { u.setCooling (fun c => { c with hourPart := 0 }) with
    audit := { u.audit with runHours := rise32 u.audit.runHours 1 } }

theorem hourRun_kept (u : Station) : Kept [.counters, .cooling, .meters] u (hourRun u) := by
  intro r hr
  cases r <;> first | exact absurd (by decide) hr | rfl

theorem runHours_of_owned {a b : Audit} (h : a.owned = b.owned) : a.runHours = b.runHours :=
  (congrArg Audit.runHours h : a.owned.runHours = b.owned.runHours)

/-- Settles O53, one timer at a time: each expiry is one operation over the cooling controller's record. -/
theorem compressorTimersAct : Obligations.CompressorTimersAct := by
  refine ⟨?rest, ?inrush, ?minimumOn, ?runHour, ?lockout, ?duty⟩
  case rest =>
    intro s u resting advanced
    refine gives_of_expiry rfl (decide_eq_true resting) advanced ?_
    obtain ⟨defrost, power, idle⟩ := finish_restLeft s.station (leaveRest_cooling u)
    exact ⟨fun requested => (defrost requested).compressor, power, idle⟩
  case inrush =>
    intro s u runs inrush advanced
    refine gives_of_expiry_of (runs := fun o => o.cooling.compressor = .run && !o.cooling.inrushDone)
      (length := fun o => inrushTime o.cfg.cooling) rfl (by simp [runs, inrush]) advanced ?_
    have running : u.endInrush.cooling = { u.cooling with inrushDone := true } := request_cooling _ _ _
    have on : u.cooling.compressor = .run := by rw [advanced, Station.advanceTo, (advance_cooling _ _).1, runs]
    have on' : u.endInrush.cooling.compressor = .run := by rw [running]; exact on
    have done : u.endInrush.cooling.inrushDone = true := by rw [running]
    rcases (finish_granted s.station u.endInrush).compressor with ⟨compressor, inrushDone⟩ | ⟨waits, -⟩
    · exact ⟨inrushDone.trans done, compressor.trans on', fun f standing within free =>
        finish_endInrush s.station standing within free⟩
    · rw [on'] at waits
      cases waits
  case minimumOn =>
    intro s u runs advanced
    refine gives_of_expiry rfl (decide_eq_true runs) advanced ⟨fun ends => ?_, fun demanded unrequested => ?_⟩
    · rw [show u.minimumOnPassed = u.normalStop from if_pos (by simpa using ends)]
      exact finish_normalStop s.station u
    · rw [show u.minimumOnPassed = u from if_neg (by simp [demanded, unrequested])]
      exact keepsBut_finish _ _
  case runHour =>
    intro s u runs advanced
    refine gives_of_expiry (runs := fun o => o.cooling.compressor = .run || (o.coolingOn && Config.hour ≤ o.cooling.hourPart))
      (effect := hourRun) rfl (by simp [runs]) advanced ?_
    have counted : (finish s.station (hourRun u)).audit.owned = (hourRun u).audit.owned := finish_same _ _ .counters
    have cleared : (finish s.station (hourRun u)).cooling.hourPart = (hourRun u).cooling.hourPart :=
      finish_meter Cooling.hourPart s.station (hourRun u) fun _ => rfl
    exact ⟨runHours_of_owned counted, cleared, keepsBut_of_kept _ (hourRun_kept u) (.inl ⟨by decide, by decide⟩)⟩
  case lockout =>
    intro s u locked advanced
    refine gives_of_expiry rfl (decide_eq_true locked) advanced ?_
    obtain ⟨soon, late⟩ := finish_restEntered s.station (enterRest_cooling u)
    exact ⟨soon, fun passed requested => ((late passed).defrost requested).compressor, fun passed => (late passed).power,
      fun passed => (late passed).idle⟩
  case duty =>
    intro s u cooling_on runs advanced
    have fixed : u.cooling.duty ≠ none := by
      rw [advanced, Station.advanceTo, (advance_cooling _ _).2.2]
      intro none
      simp [Cooling.dutyRuns, none] at runs
    refine gives_of_expiry (runs := fun o => o.coolingOn && o.cooling.dutyRuns) rfl (by simp [cooling_on, runs]) advanced ?_
    exact finish_changeDuty s.station u fixed

end Timers

end Sys2Proof.Proofs

/-! SUPPORT. Defrosts (R140 to R146) and the onset of cold-hold (R149), and their timers (O54). -/

namespace Sys2Proof.Proofs

open Sys2Proof.Machine Sys2Proof.Laws

section Defrost

variable {o s t u w : Station}

/-! ### Requests (R140 to R142) -/

theorem withdrawRequest_cooling (s : Station) (cls : LoadClass) : (s.withdrawRequest cls).cooling = s.cooling :=
  withdrawRequest_kept s cls .cooling (by decide)

/-- R140: the record with a request. -/
def requested (c : Cooling) : Cooling := { c with defrostRequest := true }

/-- R142: a request begins a defrost, or stands, PENDING or for a later state. -/
theorem requestDefrost_cooling (s : Station) :
    (∃ heater, ∃ c ∈ [requested s.cooling, (requested s.cooling).stop], s.requestDefrost.cooling = defrosting heater c) ∨
      (s.cooling.compressor ≠ .idle ∧ s.cooling.compressor ≠ .rest) ∧
        ∃ phase, s.requestDefrost.cooling = { requested s.cooling with phase := phase } := by
  have later {state : Compressor} (h : s.cooling.compressor = state) (busy : state ≠ .idle ∧ state ≠ .rest) :
      s.cooling.compressor ≠ .idle ∧ s.cooling.compressor ≠ .rest := by rwa [h]
  have stands : ∃ phase, requested s.cooling = { requested s.cooling with phase := phase } := ⟨s.cooling.phase, rfl⟩
  unfold Station.requestDefrost
  dsimp only
  split
  case h_1 | h_2 => exact .inl ⟨_, requested s.cooling, by simp, beginDefrost_cooling _⟩
  case h_3 =>
    exact .inl ⟨_, requested s.cooling, by simp, (beginDefrost_cooling _).trans (congrArg _ (withdrawRequest_cooling _ _))⟩
  case h_4 runs =>
    split
    · exact .inl ⟨_, (requested s.cooling).stop, by simp, (normalStop_cooling _).trans (if_pos rfl)⟩
    · exact .inr ⟨later runs (by decide), .pending, rfl⟩
  case h_5 off => exact .inr ⟨later off (by decide), stands⟩
  case h_6 defrosts => exact .inr ⟨later defrosts (by decide), stands⟩
  case h_7 locked => exact .inr ⟨later locked (by decide), stands⟩
  case h_8 latched => exact .inr ⟨later latched (by decide), stands⟩

/-- R142: a request stands, or has begun its defrost. -/
def DefrostAsked (t : Station) : Prop := t.cooling.defrostRequest = true ∨ t.cooling.compressor = .defrost

theorem finish_requestDefrost (o : Station) (h : w.cooling = s.requestDefrost.cooling) : DefrostAsked (finish o w) := by
  rcases requestDefrost_cooling s with ⟨heater, c, -, begun⟩ | ⟨-, phase, stands⟩
  · exact .inr (finish_defrosting o (h.trans begun)).compressor
  · have asked : w.cooling.defrostRequest = true := by rw [h, stands]; rfl
    exact .inl ((finish_meter Cooling.defrostRequest o _ fun _ => rfl).trans asked)

/-- R142: in IDLE and in REST it begins at once. -/
theorem finish_requestDefrost_resting (o : Station) (h : w.cooling = s.requestDefrost.cooling)
    (resting : s.cooling.compressor = .idle ∨ s.cooling.compressor = .rest) : DefrostBegun (finish o w) := by
  rcases requestDefrost_cooling s with ⟨heater, c, -, begun⟩ | ⟨⟨not_idle, not_rest⟩, -⟩
  · exact finish_defrosting o (h.trans begun)
  · exact absurd resting (not_or.mpr ⟨not_idle, not_rest⟩)

theorem requestDefrost_runTimeTaken (s : Station) :
    s.requestDefrost.cooling.runTimeTaken = s.cooling.runTimeTaken := by
  have defrosting_taken (heater : Bool) (c : Cooling) : (defrosting heater c).runTimeTaken = c.runTimeTaken := by
    unfold defrosting
    split <;> rfl
  rcases requestDefrost_cooling s with ⟨heater, c, from_requested, begun⟩ | ⟨-, phase, stands⟩
  · rw [begun, defrosting_taken]
    rcases List.mem_pair.mp from_requested with rfl | rfl <;> rfl
  · rw [stands]
    rfl

/-! ### Causes (R140) -/

theorem causeMet_of_free (inSet : s.cooling.defrostFree = true) : s.causeMet true = s.requestDefrost :=
  if_pos (by simp [inSet])

theorem causeMet_outside (s : Station) : s.causeMet false = s := rfl

theorem causeMet_runTimeTaken (s : Station) (inSet : Bool) :
    (s.causeMet inSet).cooling.runTimeTaken = s.cooling.runTimeTaken := by
  unfold Station.causeMet
  split
  · exact requestDefrost_runTimeTaken s
  · rfl

/-- R140: the cause RUN-TIME is taken. -/
def runTimeNoted (u : Station) : Station := u.setCooling fun c => { c with runTimeTaken := true }

/-- R140: the cause COIL-ICE is taken. -/
def iceNoted (u : Station) : Station := u.setCooling fun c => { c with iceTaken := true }

/-- What every region leaves out: whether the ice timer has been taken. -/
theorem iceNoted_same (r : Region) (h : r.same (iceNoted u) t) : r.same u t := by
  cases r <;> exact h

theorem states_of_owned {a b : Cooling} (h : a.owned = b.owned) : a.compressor = b.compressor ∧ a.phase = b.phase :=
  ⟨(congrArg Cooling.compressor h : a.owned.compressor = b.owned.compressor),
    (congrArg Cooling.phase h : a.owned.phase = b.owned.phase)⟩

/-- R140: outside the set RUN-TIME is noted and nothing follows. -/
theorem finish_runTimeNoted (o u : Station) :
    (finish o (runTimeNoted u)).cooling.defrostRequest = u.cooling.defrostRequest ∧
      KeepsBut [.cooling, .meters] u (finish o (runTimeNoted u)) ∧
      (u.loadsSettled = true ∨ u.cooling.waits = false →
        (finish o (runTimeNoted u)).cooling.compressor = u.cooling.compressor ∧
          (finish o (runTimeNoted u)).cooling.phase = u.cooling.phase) := by
  refine ⟨finish_meter Cooling.defrostRequest o (runTimeNoted u) fun _ => rfl,
    keepsBut_of_kept o (setCooling_kept u _) (by decide), fun settled => ?_⟩
  have owned : (finish o (runTimeNoted u)).cooling.owned = (runTimeNoted u).cooling.owned :=
    finish_same o (runTimeNoted u) .cooling settled
  obtain ⟨compressor, phase⟩ := states_of_owned owned
  exact ⟨compressor, phase⟩

/-! ### Termination (R144, R145) -/

theorem terminateDefrost_cooling (s : Station) : s.terminateDefrost.cooling =
    { s.cooling with phase := .drip, dripTimer := 0, runAccumulator := 0, runTimeTaken := false, doorCounter := 0 } := by
  unfold Station.terminateDefrost
  dsimp only
  split
  · simp only [Station.setCooling, releaseSlot_cooling]
  · simp only [Station.setCooling, withdrawRequest_cooling]

theorem defrosts_of_owned {a b : Audit} (h : a.owned = b.owned) : a.defrosts = b.defrosts :=
  (congrArg Audit.defrosts h : a.owned.defrosts = b.owned.defrosts)

theorem terminateDefrost_defrosts (s : Station) : s.terminateDefrost.audit.defrosts = rise32 s.audit.defrosts 1 := by
  unfold Station.terminateDefrost
  dsimp only
  split
  · exact congrArg (rise32 · 1) (defrosts_of_owned (releaseSlot_kept s .defrostHeater .counters (by decide)))
  · exact congrArg (rise32 · 1) (defrosts_of_owned (withdrawRequest_kept s .defrostHeater .counters (by decide)))

/-- R145: a defrost terminated over its event: DRIP, counted. -/
theorem finish_terminateDefrost (o s : Station) :
    (finish o s.terminateDefrost).cooling.phase = .drip ∧
      (finish o s.terminateDefrost).audit.defrosts = rise32 s.audit.defrosts 1 := by
  have drips : s.terminateDefrost.cooling.phase = .drip := by rw [terminateDefrost_cooling]
  have counted : (finish o s.terminateDefrost).audit.owned = s.terminateDefrost.audit.owned := finish_same _ _ .counters
  exact ⟨(finish_phase o (by rw [drips]; decide)).trans drips,
    (defrosts_of_owned counted).trans (terminateDefrost_defrosts s)⟩

/-- R145: what a terminated defrost restarts. -/
theorem finish_terminateDefrost_restarts (o s : Station) :
    (finish o s.terminateDefrost).cooling.dripTimer = 0 ∧ (finish o s.terminateDefrost).cooling.runAccumulator = 0 ∧
      (finish o s.terminateDefrost).cooling.doorCounter = 0 := by
  rw [finish_meter Cooling.dripTimer o _ fun _ => rfl, finish_meter Cooling.runAccumulator o _ fun _ => rfl,
    finish_meter Cooling.doorCounter o _ fun _ => rfl, terminateDefrost_cooling]
  exact ⟨rfl, rfl, rfl⟩

/-- R144: the heater's wait is over. -/
def heaterGivenUp (u : Station) : Station :=
  (u.setCooling fun c => { c with phase := .offCycle }).withdrawRequest .defrostHeater

theorem heaterGivenUp_kept (u : Station) : Kept [.cooling, .power, .lineQueue] u (heaterGivenUp u) := by
  have entered : Kept [.cooling, .power, .lineQueue] u (u.setCooling fun c => { c with phase := .offCycle }) := by
    intro r hr
    cases r <;> first | exact absurd (by decide) hr | rfl
  exact entered.trans ((withdrawRequest_kept _ _).mono (by decide))

theorem heaterGivenUp_cooling (u : Station) : (heaterGivenUp u).cooling = { u.cooling with phase := .offCycle } :=
  withdrawRequest_cooling _ _

/-- R159: what is left of a class's requests is withdrawn. -/
theorem withdrawRequest_withdrawn (s : Station) (cls : LoadClass) :
    ∀ r ∈ (s.withdrawRequest cls).power.requests, r.cls = cls → r.withdrawn = true := by
  intro r inside named
  obtain ⟨q, -, rfl⟩ := List.mem_map.mp inside
  split at named
  · rw [if_pos ‹_›]
  · contradiction

/-- R144: OFF-CYCLE, with the relay off and no heater asked for. -/
theorem finish_heaterGivenUp (o u : Station) :
    (finish o (heaterGivenUp u)).cooling.phase = .offCycle ∧ (finish o (heaterGivenUp u)).pins.dfh = false ∧
      ∀ r ∈ (finish o (heaterGivenUp u)).power.requests, r.cls = .defrostHeater → r.withdrawn = true := by
  have given_up : (heaterGivenUp u).cooling.phase = .offCycle := by rw [heaterGivenUp_cooling]
  have phase : (finish o (heaterGivenUp u)).cooling.phase = .offCycle :=
    (finish_phase o (by rw [given_up]; decide)).trans given_up
  refine ⟨phase, finish_dfh_off (by rw [phase]; decide), fun r inside named => ?_⟩
  obtain ⟨q, asked, cls_eq, withdrawn_eq⟩ := (finish_served o (heaterGivenUp u)).requests r inside
  rw [withdrawn_eq]
  exact withdrawRequest_withdrawn _ _ q asked (cls_eq.symm.trans named)

/-! ### DRIP (R146) -/

/-- R146: the record as DRIP ends. -/
def undripped (c : Cooling) : Cooling := { c with phase := .none }

theorem restLeft_phase {c : Cooling} (heater : Bool) (unasked : c.defrostRequest = false) :
    (restLeft heater c).phase = c.phase := by
  unfold restLeft
  rw [if_neg (ne_true_of_eq_false unasked)]
  split <;> rfl

theorem restEntered_phase {c : Cooling} (heater : Bool) (quiet : c.sinceStop < 180000 ∨ c.defrostRequest = false) :
    (restEntered heater c).phase = c.phase := by
  unfold restEntered
  split
  · exact restLeft_phase heater (quiet.resolve_left (Nat.not_lt.mpr ‹_›))
  · rfl

theorem dripEnds_cooling (s : Station) :
    s.dripEnds.cooling = restEntered s.cfg.cooling.heaterMethod (undripped s.cooling) := enterRest_cooling _

/-- R133, R146: where no defrost begins the phase is NONE. -/
theorem finish_dripEnds_phase (o : Station)
    (quiet : s.cooling.sinceStop < 180000 ∨ s.cooling.defrostRequest = false) : (finish o s.dripEnds).cooling.phase = .none := by
  have phase : s.dripEnds.cooling.phase = .none := by
    rw [dripEnds_cooling]
    exact restEntered_phase _ quiet
  exact (finish_phase o (by rw [phase]; decide)).trans phase

end Defrost

section ColdHold

/-! ### Cold-hold (R28, R149) -/

variable {u b : Station}

/-- R21 to R29: the answers to removed entries, where the station differs from `u` in nothing they read. -/
theorem finish_removeEntries_answered (w : Station) (opened : SaleOpen u b) (queue_eq : b.queue = u.queue)
    (line_eq : b.line = u.line) {p : Entry → Bool} (waits : ∀ e, p e = true → e.state ≠ .vending) (r : Reason) {o : Outcome}
    (undelivered : o ≠ .delivered) :
    RemovedAnswered u (finish w (b.removeEntries p r o)) [] r o (u.queue.filter p) := by
  have sends := sendsAnswers_congr (s := u) (t := b) (by rw [line_eq])
  obtain ⟨-, sent, unsent⟩ := removeEntries_queues b p r o
  have ended := finish_admits w (b.removeEntries p r o)
  rw [line_eq, queue_eq] at sent
  refine ⟨fun hear room => ?_, fun silent => ?_, fun e he tag payer tagged _ current committed => ?_⟩
  · rw [List.nil_append] at room ⊢
    rw [← sent (sends.mpr hear) room]
    exact ended.queue
  · have kept := unsent fun hear => silent (sends.mp hear)
    have idle : (b.removeEntries p r o).active = false := by
      rw [active_of_state (state_of_kept (removeEntries_kept _ _ _ _) (by decide)), active_of_line line_eq]
      exact Bool.eq_false_iff.mpr fun active => silent (.inr (.inl active))
    exact (ended.unsent idle).trans (kept.trans (by rw [line_eq]))
  · have failed := foldl_answerRemoved_fails (u := u) (s := { b with queue := b.queue.filter fun e => !p e })
      (entries := u.queue.filter p)
      ⟨⟨opened.payout, opened.tubes, opened.door, opened.shortPays, opened.free⟩, opened.txn, opened.cfg, opened.sales,
        opened.value⟩
      ((congrArg Txn.state opened.txn).trans committed) r undelivered he payer tagged (waits e (List.mem_filter.mp he).2)
      ((answersOffer_congr opened.txn .loc tag).trans current)
    refine saleFailed_of_saleKept ?_ (finish_saleKept w _)
    rw [← queue_eq] at failed
    exact failed

/-- R149: the station in cold-hold, before its notice. -/
def held (u : Station) : Station :=
  u.setCooling fun c => { c with coldHold := true, holdTimer := holdDelayTime u.cfg.cooling }

/-- R28: an entry that the onset of cold-hold removes. -/
def chilledWaiting (u : Station) (e : Entry) : Bool := e.state != .vending && (u.spiral e.position).zone = .chilled

theorem heldNotice_kept (u : Station) : Kept [.cooling, .meters, .latch] u ((held u).raise .coldHold) :=
  ((setCooling_kept u _).mono (by decide)).trans ((raise_kept _ _).mono (by decide))

/-- R149: what cold-hold begins with is its notice and the removals. -/
theorem beginColdHold_eq (u : Station) :
    u.beginColdHold = ((held u).raise .coldHold).removeEntries (chilledWaiting u) .tempHold .tempHold := by
  have chilled : (fun e => e.state != .vending && (((held u).raise .coldHold).spiral e.position).zone = .chilled) =
      chilledWaiting u := by
    funext e
    rw [spiral_congr (heldNotice_kept u .spirals (by decide)), chilledWaiting]
  rw [← chilled]
  rfl

theorem heldNotice_saleOpen (u : Station) : SaleOpen u ((held u).raise .coldHold) :=
  raise_saleOpen (u := u) (s := held u) ⟨⟨rfl, rfl, rfl, rfl, fun free _ => .inl free⟩, rfl, rfl, rfl, rfl⟩ rfl rfl .coldHold

theorem heldNotice_noticeTaken (u : Station) : NoticeTaken u ((held u).raise .coldHold) .coldHold :=
  raise_noticeTaken (held u) .coldHold

theorem finish_beginColdHold_hold (o u : Station) : (finish o u.beginColdHold).cooling.coldHold = true := by
  have raised : ((held u).raise .coldHold).cooling = (held u).cooling := raise_cooling _ _
  have kept : u.beginColdHold.cooling = ((held u).raise .coldHold).cooling := by
    rw [beginColdHold_eq]
    exact removeEntries_kept _ _ _ _ .cooling (by decide)
  refine (finish_meter Cooling.coldHold o u.beginColdHold fun _ => rfl).trans ?_
  rw [kept, raised]
  rfl

theorem finish_beginColdHold_noticeFirst (o u : Station) : NoticeFirst u (finish o u.beginColdHold) .coldHold := by
  have paid := foldl_answerRemoved_latchPaid (((held u).raise .coldHold).queue.filter (chilledWaiting u))
    { (held u).raise .coldHold with queue := ((held u).raise .coldHold).queue.filter fun e => !chilledWaiting u e } .tempHold
    (o := .tempHold) (by decide)
  rw [beginColdHold_eq]
  exact noticeFirst_of_latchPaid
    (s := { (held u).raise .coldHold with queue := ((held u).raise .coldHold).queue.filter fun e => !chilledWaiting u e })
    (heldNotice_noticeTaken u) (heldNotice_kept u .txn (by decide)) (paid.trans_latch (latch_of_finish o _))

/-- R28: the entries for ambient spirals and the VENDING one stay. -/
theorem finish_beginColdHold_queue (o u : Station) : (finish o u.beginColdHold).queue =
    u.queue.filter fun e => e.state = .vending || (u.spiral e.position).zone = .ambient := by
  have queue_eq : ((held u).raise .coldHold).queue = u.queue := heldNotice_kept u .queue (by decide)
  refine (finish_same o _ .queue).trans ?_
  rw [beginColdHold_eq, (removeEntries_queues _ _ _ _).1, queue_eq]
  congr 1
  funext e
  cases zone : (u.spiral e.position).zone <;> simp [chilledWaiting, zone, bne, BEq.beq]

theorem finish_beginColdHold_answered (o u : Station) :
    RemovedAnswered u (finish o u.beginColdHold) [] .tempHold .tempHold
      (u.queue.filter fun e => e.state != .vending && (u.spiral e.position).zone = .chilled) := by
  have line_eq : ((held u).raise .coldHold).line = u.line :=
    line_of_kept (heldNotice_kept u .line (by decide)) (heldNotice_kept u .lineQueue (by decide))
  rw [beginColdHold_eq]
  exact finish_removeEntries_answered o (heldNotice_saleOpen u) (heldNotice_kept u .queue (by decide)) line_eq
    (p := chilledWaiting u) (fun e removed => by simp_all [chilledWaiting]) .tempHold (by decide)

theorem finish_beginColdHold_regions (o u : Station) :
    ∀ r ∈ [Region.clock, .setup, .home, .spirals, .vend, .chute, .tubes, .journal, .coinLink, .buffer, .service, .line,
      .peers, .door], r.same u (finish o u.beginColdHold) := by
  have unlisted : ∀ r ∈ [Region.clock, .setup, .home, .spirals, .vend, .chute, .tubes, .journal, .coinLink, .buffer,
      .service, .line, .peers, .door],
      r ∉ [Region.cooling, .meters, .payout, .txn, .counters, .latch, .message, .lineQueue, .queue] := by decide
  exact fun r hr => finish_of_kept o (beginColdHold_kept u) r (unlisted r hr) fun _ => ⟨by decide, by decide⟩

end ColdHold

section Timers

/-- Settles O54: the two causes (R140), the three timers of a defrost (R144 to R146), and the hold timer (R149). -/
theorem defrostAndHoldTimersAct : Obligations.DefrostAndHoldTimersAct := by
  refine ⟨?runTime, ?coilIce, ?heaterWait, ?defrost, ?drip, ?coldHold⟩
  case runTime =>
    intro s u on untaken due advanced
    have runs : s.station.runTimeDue = true := by
      have runs_on : s.station.cooling.compressor = .run ∨
          intervalTime s.station.cfg.cooling ≤ s.station.cooling.runAccumulator := due
      simpa [Station.runTimeDue, Station.coolingOn, untaken, on] using runs_on
    refine gives_of_expiry_of (length := fun o => intervalTime o.cfg.cooling) rfl runs advanced
      ⟨?_, fun inSet free => ?_, fun outside => ?_⟩
    · exact (finish_meter Cooling.runTimeTaken _ _ fun _ => rfl).trans (causeMet_runTimeTaken (runTimeNoted u) _)
    · have asks : u.runTimeMet = (runTimeNoted u).requestDefrost := by
        rw [Station.runTimeMet, inSet]
        exact causeMet_of_free (s := runTimeNoted u) free
      rw [asks]
      exact finish_requestDefrost _ rfl
    · have notes : u.runTimeMet = runTimeNoted u := by
        rw [Station.runTimeMet, outside]
        rfl
      rw [notes]
      exact finish_runTimeNoted _ _
  case coilIce =>
    intro s u icing untaken advanced
    refine gives_of_expiry (runs := fun o => o.cooling.icing && !o.cooling.iceTaken)
      (effect := fun t => (iceNoted t).causeMet t.cfg.cooling.causeCoilIce) rfl (by simp [icing, untaken]) advanced
      ⟨fun inSet free => ?_, fun outside => ?_⟩
    · rw [inSet, causeMet_of_free (s := iceNoted u) free]
      exact finish_requestDefrost _ rfl
    · rw [outside, causeMet_outside]
      exact fun r listed => iceNoted_same r (keepsBut_finish _ (iceNoted u) r listed)
  case heaterWait =>
    intro s u waits advanced
    refine gives_of_expiry (effect := heaterGivenUp) rfl (decide_eq_true waits) advanced ?_
    obtain ⟨phase, relay, withdrawn⟩ := finish_heaterGivenUp s.station u
    exact ⟨phase, relay, withdrawn, keepsBut_of_kept _ ((heaterGivenUp_kept u).mono (by decide)) (by decide)⟩
  case defrost =>
    intro s u melts advanced
    refine gives_of_expiry_of (length := fun o => maxDefrostTime o.cfg.cooling) rfl melts advanced ?_
    obtain ⟨phase, counted⟩ := finish_terminateDefrost s.station u
    obtain ⟨drip, accumulator, doors⟩ := finish_terminateDefrost_restarts s.station u
    exact ⟨phase, drip, accumulator, doors, finish_dfh_off (by rw [phase]; decide), counted,
      keepsBut_of_kept _ ((terminateDefrost_kept u).mono (by decide)) (by decide)⟩
  case drip =>
    intro s u drips advanced
    refine gives_of_expiry rfl (decide_eq_true drips) advanced ?_
    obtain ⟨soon, late⟩ := finish_restEntered s.station (dripEnds_cooling u)
    refine ⟨fun early => ⟨finish_dripEnds_phase _ (.inl early), soon early⟩, fun passed asked => ?_,
      fun passed unasked demanded => ⟨finish_dripEnds_phase _ (.inr unasked), (late passed).power unasked demanded⟩,
      fun passed unasked undemanded => ⟨finish_dripEnds_phase _ (.inr unasked), (late passed).idle unasked undemanded⟩⟩
    obtain ⟨compressor, melting, timer, request⟩ := (late passed).defrost asked
    exact ⟨compressor, melting, timer, request⟩
  case coldHold =>
    intro s u runs advanced
    refine gives_of_expiry_of (length := fun o => holdDelayTime o.cfg.cooling) rfl runs advanced ?_
    exact ⟨finish_beginColdHold_hold _ u, finish_beginColdHold_noticeFirst _ u, finish_beginColdHold_queue _ u,
      finish_beginColdHold_answered _ u, finish_beginColdHold_regions _ u⟩

end Timers

end Sys2Proof.Proofs

/-! SUPPORT. The service commands of cooling and of the bank (O58). -/

namespace Sys2Proof.Proofs

open Sys2Proof.Machine Sys2Proof.Laws

section Commands

variable {s : State}

/-- R191: the station as a service command is run. -/
theorem submitted_cooling (s : Station) : s.serviceKey.submitted.cooling = s.cooling := rfl

/-- The result shown at the end of a command leaves the cooling controller. -/
theorem showService_cooling (s : Station) (m : Message) : (s.showService m).cooling = s.cooling :=
  showService_kept s m .cooling (by decide)

/-- R192: a command taken that leaves the line and the queue of entries shows DONE. -/
theorem done_of_kept {l : List Region} {s u : Station} (serves : s.serviceMode = true)
    (kept : Kept l s.serviceKey.submitted u) (unlisted : Region.service ∉ l ∧ Region.door ∉ l)
    (loads : Region.vend ∈ l ∧ Region.cooling ∈ l ∧ Region.power ∈ l ∧ Region.lineQueue ∈ l) :
    Done (finish s (u.showService .done)) := by
  obtain ⟨entry, shown, -⟩ := finish_showService serves kept unlisted.1 unlisted.2 (.inr loads) .done
  exact ⟨entry, shown⟩

/-! ### ACK-HOLD (R150) -/

/-- R150: cold-hold ended. -/
def holdEnded (s : Station) : Station := s.setCooling fun c => { c with coldHold := false, holdTimer := 0 }

theorem ackHold_gives (serves : s.station.serviceMode = true) (fitted : s.station.cfg.coolingFitted = true)
    (holds : s.station.cooling.coldHold = true) (good : s.station.holdReadingGood = true) :
    Gives .ackHold s fun t => t.cooling.coldHold = false ∧ t.cooling.holdTimer = 0 ∧ Done t ∧
      KeepsBut [.service, .message, .cooling, .meters] s.station t := by
  refine gives_of_submit (c := .ackHold) serves rfl ?_
  have taken : s.station.serviceKey.submitted.runService .ackHold =
      (holdEnded s.station.serviceKey.submitted).showService .done :=
    (if_neg (by simpa using ⟨fitted, holds⟩)).trans (if_pos good)
  rw [taken]
  obtain ⟨entry, shown, kept⟩ := finish_showService serves (setCooling_kept s.station.serviceKey.submitted _)
    (by decide) (by decide) (by decide) .done
  have cooling := showService_cooling (holdEnded s.station.serviceKey.submitted) .done
  refine ⟨?_, ?_, ⟨entry, shown⟩, kept⟩
  · exact (finish_meter Cooling.coldHold _ _ fun _ => rfl).trans (congrArg Cooling.coldHold cooling)
  · exact (finish_meter Cooling.holdTimer _ _ fun _ => rfl).trans (congrArg Cooling.holdTimer cooling)

theorem ackHold_held (serves : s.station.serviceMode = true) (fitted : s.station.cfg.coolingFitted = true)
    (holds : s.station.cooling.coldHold = true) (bad : s.station.holdReadingGood = false) :
    Gives .ackHold s (RefusedWith .hold s.station) :=
  gives_refused_of_submit (c := .ackHold) serves rfl
    ((if_neg (by simpa using ⟨fitted, holds⟩)).trans (if_neg (ne_true_of_eq_false bad)))

theorem ackHold_refused (serves : s.station.serviceMode = true)
    (idle : s.station.cfg.coolingFitted = false ∨ s.station.cooling.coldHold = false) :
    Gives .ackHold s (RefusedWith .refused s.station) :=
  gives_refused_of_submit (c := .ackHold) serves rfl (if_pos (by
      rcases idle with unfitted | unheld
      · simp [show s.station.serviceKey.submitted.cfg.coolingFitted = false from unfitted]
      · simp [submitted_cooling, unheld]))

/-! ### MANUAL-DEFROST (R141) -/

theorem manualDefrost_gives (serves : s.station.serviceMode = true) (taken : s.station.manualTaken = true) :
    Gives .manualDefrost s fun t =>
      Done t ∧ DefrostAsked t ∧
        (s.station.cooling.compressor = .idle ∨ s.station.cooling.compressor = .rest →
          t.cooling.compressor = .defrost ∧ t.cooling.defrostTimer = 0) := by
  refine gives_of_submit (c := .manualDefrost) serves rfl ?_
  have asks : s.station.serviceKey.submitted.runService .manualDefrost =
      s.station.serviceKey.submitted.requestDefrost.showService .done := if_pos taken
  rw [asks]
  have kept : Kept [.vend, .cooling, .meters, .power, .lineQueue] s.station.serviceKey.submitted
      s.station.serviceKey.submitted.requestDefrost := (requestDefrost_kept _).mono (by decide)
  have cooling := showService_cooling s.station.serviceKey.submitted.requestDefrost .done
  refine ⟨done_of_kept serves kept (by decide) (by decide), finish_requestDefrost _ cooling, fun resting => ?_⟩
  obtain ⟨compressor, -, timer, -⟩ := finish_requestDefrost_resting s.station cooling resting
  exact ⟨compressor, timer⟩

theorem manualDefrost_refused (serves : s.station.serviceMode = true) (untaken : s.station.manualTaken = false) :
    Gives .manualDefrost s (RefusedWith .refused s.station) :=
  gives_refused_of_submit (c := .manualDefrost) serves rfl (if_neg (ne_true_of_eq_false untaken))

/-! ### CLEAR-COMPRESSOR (R137) -/

/-- R137: the record with its trips forgotten. -/
def tripsForgotten (c : Cooling) : Cooling := { c with tripTimes := [] }

theorem restEntered_tripTimes (heater : Bool) (c : Cooling) : (restEntered heater c).tripTimes = c.tripTimes := by
  unfold restEntered restLeft defrosting
  repeat' split
  all_goals rfl

/-- R137: REST that is entered is not LATCHED. -/
theorem finish_restEntered_unlatched {c : Cooling} {heater : Bool} {w : Station} (o : Station)
    (h : w.cooling = restEntered heater c) : (finish o w).cooling.compressor ≠ .latched := by
  obtain ⟨soon, late⟩ := finish_restEntered o h
  rcases Nat.lt_or_ge c.sinceStop 180000 with early | passed
  · rw [soon early]
    decide
  · obtain ⟨defrost, power, idle⟩ := late passed
    cases asked : c.defrostRequest with
    | true =>
      rw [(defrost asked).compressor]
      decide
    | false =>
      cases demanded : c.demand with
      | true => rcases power asked demanded with waits | ⟨-, runs⟩ <;> simp [*]
      | false =>
        rw [idle asked demanded]
        decide

theorem clearCompressor_gives (serves : s.station.serviceMode = true) (taken : s.station.clearCompressorTaken = true) :
    Gives .clearCompressor s fun t =>
      Done t ∧ t.cooling.tripTimes = [] ∧ t.cooling.compressor ≠ .latched ∧
        (s.station.cooling.sinceStop < 180000 → t.cooling.compressor = .rest) := by
  refine gives_of_submit (c := .clearCompressor) serves rfl ?_
  have clears : s.station.serviceKey.submitted.runService .clearCompressor =
      s.station.serviceKey.submitted.clearCompressor.showService .done := if_pos taken
  rw [clears]
  have kept : Kept [.vend, .cooling, .meters, .power, .lineQueue] s.station.serviceKey.submitted
      s.station.serviceKey.submitted.clearCompressor := by
    exact ((setCooling_kept _ _).mono (by decide)).trans ((enterRest_kept _).mono (by decide))
  have cooling : (s.station.serviceKey.submitted.clearCompressor.showService .done).cooling =
      restEntered s.station.cfg.cooling.heaterMethod (tripsForgotten s.station.cooling) :=
    (showService_cooling _ .done).trans (enterRest_cooling _)
  refine ⟨done_of_kept serves kept (by decide) (by decide), ?_, finish_restEntered_unlatched _ cooling,
    (finish_restEntered s.station cooling).1⟩
  refine (finish_meter Cooling.tripTimes _ _ fun _ => rfl).trans ?_
  rw [cooling, restEntered_tripTimes]
  rfl

theorem clearCompressor_refused (serves : s.station.serviceMode = true)
    (untaken : s.station.clearCompressorTaken = false) : Gives .clearCompressor s (RefusedWith .refused s.station) :=
  gives_refused_of_submit (c := .clearCompressor) serves rfl (if_neg (ne_true_of_eq_false untaken))

/-! ### FORGET-PEERS (R184) -/

theorem forgetPeers_peers (s : Station) : s.forgetPeers.peers = s.presentPeers := by
  unfold Station.forgetPeers
  dsimp only
  split
  · exact bankRoomMade_kept _ .peers (by decide)
  · rfl

theorem forgetPeers_gives (serves : s.station.serviceMode = true) :
    Gives .forgetPeers s fun t =>
      Done t ∧ t.peers = s.station.peers.filter (fun p => p.presence = .present) ∧
        KeepsBut [.service, .message, .peers, .power, .lineQueue, .vend, .cooling, .latch] s.station t := by
  refine gives_of_submit (c := .forgetPeers) serves rfl ?_
  have taken : s.station.serviceKey.submitted.runService .forgetPeers =
      s.station.serviceKey.submitted.forgetPeers.showService .done := rfl
  rw [taken]
  have forgotten : Kept [.peers, .power, .lineQueue, .vend, .cooling, .latch] s.station.serviceKey.submitted
      s.station.serviceKey.submitted.forgetPeers := (forgetPeers_kept _).mono (by decide)
  obtain ⟨entry, shown, kept⟩ := finish_showService serves forgotten (by decide) (by decide) (by decide) .done
  have peers_eq := (finish_same s.station (s.station.serviceKey.submitted.forgetPeers.showService .done) .peers).trans
    (showService_kept _ _ .peers (by decide))
  exact ⟨⟨entry, shown⟩, peers_eq.trans (forgetPeers_peers _), kept⟩

end Commands

/-- Settles O58, command by command. -/
theorem coolingAndBankCommandsAct : Obligations.CoolingAndBankCommandsAct := by
  intro s serves
  refine ⟨ackHold_gives serves, ackHold_held serves, ackHold_refused serves, fun fitted unasked quiet => ?_, fun refuses => ?_,
    fun fitted latched => ?_, fun refuses => ?_, forgetPeers_gives serves⟩
  · exact manualDefrost_gives serves (by simp [Station.manualTaken, Cooling.defrostFree, fitted, unasked, quiet])
  · refine manualDefrost_refused serves ?_
    rcases refuses with unfitted | asked | busy
    · simp [Station.manualTaken, unfitted]
    · simp [Station.manualTaken, Cooling.defrostFree, asked]
    · simp [Station.manualTaken, Cooling.defrostFree, busy]
  · exact clearCompressor_gives serves (by simp [Station.clearCompressorTaken, fitted, latched])
  · refine clearCompressor_refused serves ?_
    rcases refuses with unfitted | running
    · simp [Station.clearCompressorTaken, unfitted]
    · simp [Station.clearCompressorTaken, running]

end Sys2Proof.Proofs

/-! SUPPORT. One check of a waiting load (R157, R166) and what the end of an event does to the loads: equations of the check by
the sum and the room in the transmit queue, and the regions that an event keeps with the admission of loads. -/

namespace Sys2Proof.Proofs

open Sys2Proof.Machine Sys2Proof.Laws

section Checks

/-! ### One check of a waiting load (R157, R166) -/

variable {s t : Station} {r : Request}

theorem updateFirst_updateFirst {α : Type} {p : α → Bool} {f g : α → α} (h : ∀ a, p (g a) = p a) (l : List α) :
    updateFirst p f (updateFirst p g l) = updateFirst p (fun a => f (g a)) l := by
  induction l with
  | nil => rfl
  | cons a rest ih => cases ha : p a <;> simp [updateFirst, ha, h, ih]

theorem setRequest_setRequest (s : Station) (cls : LoadClass) {f g : Request → Request} (h : ∀ q, (g q).cls = q.cls) :
    (s.setRequest cls g).setRequest cls f = s.setRequest cls fun q => f (g q) := by
  simp [Station.setRequest, updateFirst_updateFirst (f := f) (g := g) (p := fun q : Request => decide (q.cls = cls))
    (fun q => by rw [h]) s.power.requests]

/-- R157: a request that has been checked and does not fit. -/
def heldBack (q : Request) : Request := q.judged .held

/-- R157: a request whose CLAIM has been queued. -/
def claimed (q : Request) : Request := { q.judged .sending with timer := 0 }

/-- R157, R161: a request whose CLAIM the transmit queue could not take. -/
def backedOff (q : Request) : Request := { q.judged .backoff with timer := 0, record := [] }

/-- R157: the CLAIM of a request's attempt. -/
def claimFrame (r : Request) : Frame := ⟨0, .claim r.cls r.rank r.power, true⟩

/-- R173: the station with the CLAIM queued. -/
def claimQueued (s : Station) (r : Request) : Station :=
  { s with line := { s.line with queue := s.line.queue ++ [claimFrame r] } }

/-- R173: the station with a frame dropped and counted. -/
def claimDropped (s : Station) : Station :=
  { s with audit := { s.audit with txOverflow := rise32 s.audit.txOverflow 1 } }

theorem handFrame_claim (active : s.active = true) (r : Request) :
    s.handFrame (claimFrame r) =
      if s.line.queue.length < 8 then (claimQueued s r, true) else (claimDropped s, false) := by
  have state : s.line.state = .active := by simpa [Station.active] using active
  by_cases room : s.line.queue.length < 8 <;>
    simp [Station.handFrame, claimFrame, claimQueued, claimDropped, queueFrame_claim, sendAllowed, state, room]

/-- R157: a request that does not fit is HELD. -/
theorem checkActive_of_unfit (unfit : ¬Machine.Fits s r) : s.checkActive r = s.setRequest r.cls heldBack :=
  (if_neg unfit).trans (setRequest_setRequest s r.cls fun _ => rfl)

/-- R157: a request that fits is claimed for. -/
theorem checkActive_of_fits (fits : Machine.Fits s r) :
    s.checkActive r = (s.setRequest r.cls Request.check).claim r := if_pos fits

theorem claim_of_room (active : s.active = true) (room : s.line.queue.length < 8) (r : Request) :
    s.claim r = (claimQueued s r).setRequest r.cls fun q => { q with phase := .sending, timer := 0 } := by
  have handed := handFrame_claim active r
  rw [if_pos room, claimFrame] at handed
  rw [Station.claim, handed]

theorem claim_of_full (active : s.active = true) (full : ¬s.line.queue.length < 8) (r : Request) :
    s.claim r = (claimDropped s).setRequest r.cls Request.backOff := by
  have handed := handFrame_claim active r
  rw [if_neg full, claimFrame] at handed
  rw [Station.claim, handed]

/-- R157: a request that fits has its CLAIM queued. -/
theorem checkActive_of_room (active : s.active = true) (fits : Machine.Fits s r) (room : s.line.queue.length < 8) :
    s.checkActive r = (claimQueued s r).setRequest r.cls claimed := by
  rw [checkActive_of_fits fits, claim_of_room (s := s.setRequest r.cls Request.check) active room]
  exact setRequest_setRequest (claimQueued s r) r.cls fun _ => rfl

/-- R157, R161: one that fits backs off where the transmit queue is full. -/
theorem checkActive_of_full (active : s.active = true) (fits : Machine.Fits s r) (full : ¬s.line.queue.length < 8) :
    s.checkActive r = (claimDropped s).setRequest r.cls backedOff := by
  rw [checkActive_of_fits fits, claim_of_full (s := s.setRequest r.cls Request.check) active full]
  exact setRequest_setRequest (claimDropped s) r.cls fun _ => rfl

/-- R157: while ACTIVE a check changes nothing of the power budget unit but the request that is checked, which keeps its
class and stays starved or not. -/
theorem checkActive_power (active : s.active = true) (r : Request) :
    ∃ g : Request → Request, (∀ q, (g q).cls = q.cls ∧ (g q).starved = q.starved) ∧
      (s.checkActive r).power = (s.setRequest r.cls g).power := by
  by_cases fits : Machine.Fits s r
  · by_cases room : s.line.queue.length < 8
    · exact ⟨claimed, fun _ => ⟨rfl, rfl⟩, by rw [checkActive_of_room active fits room]; rfl⟩
    · exact ⟨backedOff, fun _ => ⟨rfl, rfl⟩, by rw [checkActive_of_full active fits room]; rfl⟩
  · exact ⟨heldBack, fun _ => ⟨rfl, rfl⟩, by rw [checkActive_of_unfit fits]⟩

/-- R157: while ACTIVE the free window goes to the best READY request. -/
theorem checkOne_of_active (active : s.active = true) :
    s.checkOne = if windowHeld s.power.requests then none else (bestReady s.power.requests).map s.checkActive := by
  unfold Station.checkOne
  cases bestReady s.power.requests <;> simp [active]

/-- R166: in ISOLATED the best READY request is checked. -/
theorem checkOne_of_isolated (isolated : s.line.state.isIsolated = true) :
    s.checkOne = (bestReady s.power.requests).map s.checkIsolated := by
  unfold Station.checkOne
  cases bestReady s.power.requests <;> simp [isolated_not_active isolated, isolated]

theorem admitFor_of_none (h : s.checkOne = none) (n : Nat) : admitFor n s = s := by
  cases n with
  | zero => rfl
  | succ n => simp [admitFor, h]

theorem admitFor_of_some (h : s.checkOne = some t) (n : Nat) : admitFor (n + 1) s = admitFor n t := by
  simp [admitFor, h]

/-- A property that no check of a station outside ISOLATED ends holds after all the checks of an event. -/
theorem admitFor_keeps {Q : Station → Prop}
    (step : ∀ (s : Station) (r : Request), s.active = true → r ∈ s.power.requests → r.phase = .ready →
      Q s → Q (s.checkActive r))
    (n : Nat) (waits : s.line.state.isIsolated = false) (h : Q s) : Q (admitFor n s) := by
  have kept := admitFor_induct (R := fun s t => s.line.state.isIsolated = false → Q s →
      t.line.state.isIsolated = false ∧ Q t) (fun _ => And.intro) (fun _ _ _ first later waits h => by
        obtain ⟨waits, h⟩ := first waits h
        exact later waits h) (fun s t checked waits h => by
        obtain ⟨r, inside, ready, ⟨active, rfl⟩ | ⟨isolated, -⟩⟩ := checkOne_cases checked
        · exact ⟨by rw [(checkActive_claims s r).line_state, waits], step s r active inside ready h⟩
        · rw [waits] at isolated
          cases isolated) n s
  exact (kept waits h).2

end Checks

section Settling

/-! ### The end of an event from its admission of loads on -/

variable {s w : Station} {l : List Region}

theorem same_of_region_kept {r : Region} {a b : Station} (h : Region.kept r a b) : r.same a b := by
  cases r <;> simp_all [Region.same, Region.kept]

theorem evaluateIfChanged_kept (s o : Station) : Kept [] s (s.evaluateIfChanged o) := by
  obtain ⟨_, h⟩ := evaluateIfChanged_shape s o
  rw [h]
  intro r _
  cases r <;> rfl

theorem resetIce_kept (s : Station) : Kept [.cooling] s s.resetIce := by
  obtain ⟨c, h, owned⟩ := resetIce_shape s
  rw [h]
  intro r hr
  cases r with
  | cooling => exact absurd List.mem_cons_self hr
  | meters => exact (congrArg Cooling.measured owned : c.owned.measured = s.cooling.owned.measured)
  | _ => rfl

theorem updateConditions_kept (s : Station) : Kept [] s s.updateConditions := by
  obtain ⟨_, _, h⟩ := updateConditions_shape s
  rw [h]
  intro r _
  cases r <;> rfl

theorem driveOutputs_kept (s : Station) : Kept [] s s.driveOutputs := by
  obtain ⟨_, _, _, lamp⟩ := driveLamp_shape s
  obtain ⟨_, _, _, shown⟩ := driveAlternation_shape s.driveLamp
  unfold Station.driveOutputs
  rw [shown, lamp]
  intro r _
  cases r <;> rfl

/-- What the end of an event derives after the admission of loads is in no region but the ice timer. -/
theorem finish_kept_admitted (o s : Station) : Kept [.cooling] (s.evaluateIfChanged o).admitLoads (finish o s) :=
  ((resetIce_kept _).trans ((masks_kept (sendChangedMasks_masks _)).mono (by simp))).trans
    (((updateConditions_kept _).mono (by simp)).trans ((driveOutputs_kept _).mono (by simp)))

/-- An event keeps what its body and the admission of loads keep. -/
theorem keepsBut_of_admitted (o : Station) (h : Kept l s (w.evaluateIfChanged o).admitLoads) : KeepsBut l s (finish o w) := by
  intro r hr
  cases r with
  | cooling =>
    intro _
    obtain ⟨c, shape, owned⟩ := resetIce_shape (w.evaluateIfChanged o).admitLoads
    have kept : (w.evaluateIfChanged o).admitLoads.cooling = s.cooling := h .cooling hr
    rw [finish_cooling, shape, ← kept]
    exact owned
  | _ => exact same_of_region_kept (Region.kept_trans (h _ hr) (finish_kept_admitted o w _ (by decide)))

/-- What every check of an ACTIVE station leaves true of the power budget unit is so after an event outside ISOLATED. -/
theorem finish_keeps {Q : Power → Prop} (o : Station) (waits : w.line.state.isIsolated = false)
    (step : ∀ (s : Station) (r : Request), s.active = true → r ∈ s.power.requests → r.phase = .ready →
      Q s.power → Q (s.checkActive r).power)
    (h : Q w.power) : Q (finish o w).power := by
  obtain ⟨_, evaluated⟩ := evaluateIfChanged_shape w o
  rw [finish_power, evaluated]
  exact admitFor_keeps (Q := fun s => Q s.power) step 12 waits h

end Settling

end Sys2Proof.Proofs

/-! SUPPORT. A load granted (R160, R166) and the end of a claim window (O39). -/

namespace Sys2Proof.Proofs

open Sys2Proof.Machine Sys2Proof.Laws

section Grants

/-! ### A load granted (R160, R166) -/

variable {s t u : Station} {r : Request}

/-- R37, R134, R144: the requester that waits for the load of a request has it running, at the power asked for. -/
def LoadGranted (u : Station) (r : Request) (t : Station) : Prop :=
  (r.cls = .vendMotor → u.vendIn .claiming = true →
    t.power.vendMotor = some r.power ∧ (t.vendIn .starting = true ∨ t.vendIn .turning = true)) ∧
  (r.cls = .compressor → u.cooling.compressor = .waitPower →
    t.power.compressor = some r.power ∧ t.cooling.compressor = .run) ∧
  (r.cls = .defrostHeater → u.cooling.phase = .heaterWait →
    t.power.heater = some r.power ∧ t.cooling.phase = .heater)

/-- Of a station it reads the vend and the cooling controller, of a request its class and power. -/
theorem LoadGranted.congr {q : Request} (vend : s.vend = u.vend) (cooling : s.cooling = u.cooling) (cls : q.cls = r.cls)
    (power : q.power = r.power) (h : LoadGranted s q t) : LoadGranted u r t := by
  unfold LoadGranted Station.vendIn at *
  rwa [vend, cooling, cls, power] at h

theorem vendIn_iff {phase : VendPhase} : s.vendIn phase = true ↔ ∃ v, s.vend = some v ∧ v.phase = phase := by
  cases h : s.vend <;> simp [Station.vendIn, h]

/-- R37: a vend that claims is started by the grant. -/
theorem vendMotorGranted_of_claiming (claiming : s.vendIn .claiming = true) : s.vendMotorGranted = s.energise := by
  obtain ⟨v, in_flight, phase⟩ := vendIn_iff.mp claiming
  simp [Station.vendMotorGranted, in_flight, phase]

/-- R38: a vend energised forward is in STARTING or in TURNING, by HOME. -/
theorem vendIn_energise {v : Vend} (in_flight : s.vend = some v) :
    s.energise.vendIn .starting = true ∨ s.energise.vendIn .turning = true := by
  rw [energise_some in_flight]
  cases s.homeOpen.getD (v.entry.position - 10) false <;> simp [Station.vendIn, Vend.energised]

/-- The station with a request served: its slot stands, and it has left the list. -/
def slotGiven (s : Station) (r : Request) : Station :=
  { s with power := s.power.setSlot r.cls (some r.power) }.dropRequest r.cls

theorem grant_eq (s : Station) (r : Request) : s.grant r = (slotGiven s r).handGrant r.cls := rfl

theorem dropRequest_slot (s : Station) (cls other : LoadClass) :
    (s.dropRequest cls).power.slot other = s.power.slot other := by
  cases other <;> rfl

theorem slotGiven_slot (s : Station) (r : Request) : (slotGiven s r).power.slot r.cls = some r.power :=
  (dropRequest_slot _ _ _).trans (setSlot_slot_self s.power r.cls (some r.power))

theorem grant_loadGranted (u : Station) (r : Request) : LoadGranted u r (u.grant r) := by
  have slot := slotGiven_slot u r
  rw [grant_eq]
  refine ⟨fun motor claiming => ?_, fun compressor waits => ?_, fun heater waits => ?_⟩
  · have granted : (slotGiven u r).handGrant r.cls = (slotGiven u r).energise := by
      rw [motor]
      exact vendMotorGranted_of_claiming (s := slotGiven u r) claiming
    obtain ⟨v, in_flight, -⟩ := vendIn_iff.mp claiming
    have power_eq : (slotGiven u r).energise.power = (slotGiven u r).power := energise_kept _ .power (by decide)
    rw [motor] at slot
    rw [granted, power_eq]
    exact ⟨slot, vendIn_energise (s := slotGiven u r) in_flight⟩
  · have granted : (slotGiven u r).handGrant r.cls = (slotGiven u r).setCooling fun c =>
        { c with compressor := .run, inrushTimer := 0, inrushDone := false, minOnTimer := 0 } := by
      rw [compressor]
      exact if_pos waits
    rw [compressor] at slot
    rw [granted]
    exact ⟨slot, rfl⟩
  · have granted : (slotGiven u r).handGrant r.cls = (slotGiven u r).setCooling fun c => { c with phase := .heater } := by
      rw [heater]
      exact if_pos waits
    rw [heater] at slot
    rw [granted]
    exact ⟨slot, rfl⟩

/-- A granted load runs on where its slot is left, a vend past CLAIMING goes on, and the cooling controller is changed by no
more than grants. -/
theorem LoadGranted.later (h : LoadGranted u r s) (slot : t.power.slot r.cls = s.power.slot r.cls)
    (vend : s.vendIn .claiming = false → t.vend = s.vend) (cooling : Granted s t) : LoadGranted u r t := by
  obtain ⟨motor, compressor, heater⟩ := h
  refine ⟨fun cls claiming => ?_, fun cls waits => ?_, fun cls waits => ?_⟩ <;> rw [cls] at slot
  · obtain ⟨power, started⟩ := motor cls claiming
    have past : s.vendIn .claiming = false := by
      rcases started with h | h <;> obtain ⟨v, in_flight, phase⟩ := vendIn_iff.mp h <;>
        simp [Station.vendIn, in_flight, phase]
    refine ⟨slot.trans power, ?_⟩
    simpa [Station.vendIn, vend past] using started
  · obtain ⟨power, runs⟩ := compressor cls waits
    refine ⟨slot.trans power, ?_⟩
    rcases cooling.compressor with ⟨same, -⟩ | ⟨waits', -⟩
    · exact same.trans runs
    · rw [runs] at waits'
      cases waits'
  · obtain ⟨power, heats⟩ := heater cls waits
    refine ⟨slot.trans power, ?_⟩
    rcases cooling.phase with same | ⟨waits', -⟩
    · exact same.trans heats
    · rw [heats] at waits'
      cases waits'

theorem removeFirst_of_only {α : Type} {p : α → Bool} {l : List α} {a : α} (only : l.filter p = [a]) :
    ∀ b ∈ removeFirst p l, p b = false := by
  induction l with
  | nil => simp [removeFirst]
  | cons c rest ih =>
    cases hc : p c with
    | true =>
      have none_left : rest.filter p = [] := by simpa [hc] using (List.cons.inj ((List.filter_cons_of_pos hc).symm.trans only)).2
      simpa [removeFirst, hc] using none_left
    | false =>
      rw [List.filter_cons_of_neg (by simp [hc])] at only
      simpa [removeFirst, hc] using ih only

/-- The only request of a class leaves none when it is removed. -/
theorem hasRequest_removeFirst {requests : List Request} (only : requests.filter (fun q => q.cls = r.cls) = [r]) :
    hasRequest (removeFirst (fun q => q.cls = r.cls) requests) r.cls = false :=
  List.any_eq_false.mpr fun q hq => by simpa using removeFirst_of_only only q hq

/-- R154: a granted request has left the list. -/
theorem hasRequest_grant (only : u.power.requests.filter (fun q => q.cls = r.cls) = [r]) :
    hasRequest (u.grant r).power.requests r.cls = false := by
  refine (handGrant_serves (slotGiven u r) r.cls).requests.hasRequest ?_
  have requests : (slotGiven u r).power.requests = removeFirst (fun q => q.cls = r.cls) u.power.requests := by
    rw [slotGiven, dropRequest_power, setSlot_requests]
  rw [requests]
  exact hasRequest_removeFirst only

/-- R160: a request is granted while no other of its class waits, and the event ends. -/
theorem finish_grant (o : Station) (only : u.power.requests.filter (fun q => q.cls = r.cls) = [r]) :
    LoadGranted u r (finish o (u.grant r)) ∧ hasRequest (finish o (u.grant r)).power.requests r.cls = false := by
  have free := hasRequest_grant only
  have served := finish_served o (u.grant r)
  exact ⟨(grant_loadGranted u r).later (served.slots r.cls free)
    (fun past => finish_same o (u.grant r) .vend (.inr past)) (finish_granted o _), served.requests.hasRequest free⟩

end Grants

section Window

/-! ### The end of a claim window (R160, R161) -/

variable {s : State} {u w : Station} {r r0 : Request}

theorem windowTimerExpiry_gives {P : Station → Prop} (out : s.station.requestIn .window = some r0)
    (advanced : u = s.station.advanceTo 50 r0.timer) (ended : u.requestIn .window = some r)
    (h : P (finish s.station (u.decideWindow r))) : Gives .windowTimerExpiry s P := by
  refine gives_of_event _ rfl ?_
  have decided : expire true Config.windowTime r0.timer Station.windowEndsNow s.station = u.decideWindow r := by
    rw [advanced] at ended ⊢
    simp only [expire, if_true, Station.windowEndsNow, Config.windowTime, ended]
  simp only [out]
  rwa [decided]

theorem filter_updateFirst_other {α : Type} {p q : α → Bool} {g : α → α}
    (h : ∀ a, p a = true → q a = false ∧ q (g a) = false)
    (l : List α) : (updateFirst p g l).filter q = l.filter q := by
  induction l with
  | nil => rfl
  | cons a rest ih =>
    unfold updateFirst
    cases ha : p a with
    | true => simp [h a ha]
    | false => simp [List.filter_cons, ih]

theorem filter_updateFirst_self {α : Type} {p : α → Bool} {g : α → α} (h : ∀ a, p (g a) = p a) {l : List α} {a : α}
    (only : l.filter p = [a]) : (updateFirst p g l).filter p = [g a] := by
  induction l with
  | nil => cases only
  | cons b rest ih =>
    unfold updateFirst
    cases hb : p b with
    | true =>
      obtain ⟨rfl, none_left⟩ := List.cons.inj ((List.filter_cons_of_pos hb).symm.trans only)
      simp [h, hb, none_left]
    | false =>
      rw [List.filter_cons_of_neg (by simp [hb])] at only
      simpa [hb] using ih only

theorem requestOf_of_only {cls : LoadClass} (only : w.power.requests.filter (fun q => q.cls = cls) = [r]) :
    w.requestOf cls = some r := by
  rw [Station.requestOf, ← List.head?_filter, only]
  rfl

/-- R157: while ACTIVE a request that is not READY is left by the checks, when it is the only one of its class. -/
theorem finish_keeps_request (o : Station) {cls : LoadClass} (waits : w.line.state.isIsolated = false)
    (only : w.power.requests.filter (fun q => q.cls = cls) = [r]) (unready : r.phase ≠ .ready) :
    (finish o w).requestOf cls = some r := by
  refine requestOf_of_only ?_
  refine finish_keeps (Q := fun p => p.requests.filter (fun q => q.cls = cls) = [r]) o waits
    (fun s q active inside ready only => ?_) only
  obtain ⟨g, marks, power⟩ := checkActive_power active q
  have other : q.cls ≠ cls := fun same => by
    have found : q ∈ s.power.requests.filter (fun q => q.cls = cls) := List.mem_filter.mpr ⟨inside, decide_eq_true same⟩
    rw [only, List.mem_singleton] at found
    exact unready (found ▸ ready)
  rw [power, setRequest_power]
  refine (filter_updateFirst_other (fun a ha => ?_) _).trans only
  simp only [decide_eq_true_eq] at ha
  simp [(marks a).1, ha, other]

/-- R160, R161: a window that ends over the budget. -/
theorem decideWindow_over (above : u.cfg.bankBudget < u.windowSum r) :
    u.decideWindow r =
      if r.withdrawn then (u.hand 0 (.release r.cls)).dropRequest r.cls
      else (u.hand 0 (.release r.cls)).setRequest r.cls Request.backOff :=
  if_neg (Nat.not_le.mpr above)

theorem decideWindow_line (above : u.cfg.bankBudget < u.windowSum r) :
    (u.decideWindow r).line = (u.hand 0 (.release r.cls)).line := by
  rw [decideWindow_over above]
  split <;> rfl

theorem hand_power (u : Station) (dst : Nat) (body : FrameBody) : (u.hand dst body).power = u.power :=
  hand_kept u dst body .power (by decide)

/-- Settles O39: the grant at the end of the window, or the RELEASE with what becomes of the request; the end of the event
leaves the request of this class alone. -/
theorem windowGrantsOrBacksOff : Obligations.WindowGrantsOrBacksOff := by
  refine ⟨fun u r alone => ?_, fun s u r0 r active out advanced ended only => ?_⟩
  · simp [Station.admissionSum, Station.windowSum, alone]
  have state : u.active = true := by
    rw [advanced, Station.advanceTo]
    exact (active_of_state (advance_keeps _ _).2.2.2.2.2.2.2.2.2.2.2.1).trans active
  refine windowTimerExpiry_gives out advanced ended ⟨fun fits => ?granted, fun above => ?released⟩
  case granted =>
    rw [show u.decideWindow r = u.grant r from if_pos fits]
    obtain ⟨⟨motor, compressor, heater⟩, free⟩ := finish_grant s.station only
    exact ⟨motor, compressor, heater, free⟩
  case released =>
    have line := decideWindow_line above
    refine ⟨fun room => mem_lineQueue_finish _ ?_, fun withdrawn => ?_, fun stays => ?_⟩
    · rw [line]
      exact mem_hand rfl (sendAllowed_of_hears (.inr state) (.inl state)) rfl 0 room
    · refine (finish_served _ _).requests.hasRequest ?_
      rw [decideWindow_over above, if_pos withdrawn, dropRequest_power, hand_power]
      exact hasRequest_removeFirst only
    · refine finish_keeps_request (r := r.backOff) _ ?_ ?_ (by simp [Request.backOff])
      · rw [line, state_of_kept (hand_kept u 0 (.release r.cls)) (by decide)]
        exact not_isolated_of_hears (.inr state)
      · rw [decideWindow_over above, if_neg (by simp [stays]), setRequest_power, hand_power]
        exact filter_updateFirst_self (g := Request.backOff) (fun _ => rfl) only

end Window

end Sys2Proof.Proofs

/-! SUPPORT. The claim window given (R155 to R157): the order in which READY requests are checked, and `WindowGiven` at the end
of an event of an ACTIVE station. -/

namespace Sys2Proof.Proofs

open Sys2Proof.Machine Sys2Proof.Laws

section Order

/-! ### The order of READY requests (R155, R157) -/

variable {requests : List Request} {a b c r q : Request}

theorem betterThan_iff :
    a.betterThan b = true ↔ a.rank < b.rank ∨ (a.rank = b.rank ∧ classCode a.cls < classCode b.cls) := by
  simp [Request.betterThan]

theorem classCode_inj {x y : LoadClass} (h : classCode x = classCode y) : x = y := by
  cases x <;> cases y <;> first | rfl | cases h

/-- R157: no READY request is better than the one that is checked. -/
theorem bestReady_best (best : bestReady requests = some r) (inside : q ∈ requests) (ready : q.phase = .ready) :
    q.betterThan r = false := by
  have fold (l : List Request) (held : Option Request) (chosen : l.foldl betterRequest held = some r) :
      (∀ x ∈ l, x.betterThan r = false) ∧ ∀ x, held = some x → x.betterThan r = false := by
    induction l generalizing held with
    | nil =>
      refine ⟨by simp, fun x same => ?_⟩
      rw [List.foldl_nil, same] at chosen
      cases chosen
      simp [Request.betterThan]
    | cons y rest ih =>
      obtain ⟨later, first⟩ := ih _ chosen
      cases held with
      | none => exact ⟨List.forall_mem_cons.mpr ⟨first y rfl, later⟩, by simp⟩
      | some x =>
        simp only [betterRequest] at first
        have worse : y.betterThan r = false ∧ x.betterThan r = false := by
          split at first <;> rename_i better <;> have chosen_best := first _ rfl <;>
            simp only [← Bool.not_eq_true, betterThan_iff] at better chosen_best ⊢ <;> omega
        exact ⟨List.forall_mem_cons.mpr ⟨worse.1, later⟩, fun z same => Option.some.inj same ▸ worse.2⟩
  exact (fold _ none best).1 q (List.mem_filter.mpr ⟨inside, decide_eq_true ready⟩)

/-- R155: of two requests of different classes one is better. -/
theorem betterThan_of_not (classes : q.cls ≠ r.cls) (worse : q.betterThan r = false) : r.betterThan q = true := by
  have codes : classCode q.cls ≠ classCode r.cls := fun same => classes (classCode_inj same)
  rw [← Bool.not_eq_true, betterThan_iff] at worse
  rw [betterThan_iff]
  omega

end Order

section Lists

/-! ### Lists of requests of different classes -/

variable {requests : List Request} {r q : Request} {s : Station}

theorem eq_of_cls_eq (distinct : (requests.map fun q => q.cls).Nodup) (hq : q ∈ requests) (hr : r ∈ requests)
    (same : q.cls = r.cls) : q = r :=
  List.inj_on_of_nodup_map distinct hq hr same

theorem requestOf_of_mem (distinct : (s.power.requests.map fun q => q.cls).Nodup) (inside : r ∈ s.power.requests) :
    s.requestOf r.cls = some r := by
  have found : (s.requestOf r.cls).isSome = true := by
    rw [Station.requestOf, List.find?_isSome]
    exact ⟨r, inside, decide_eq_true rfl⟩
  obtain ⟨q, hq⟩ := Option.isSome_iff_exists.mp found
  rw [hq, eq_of_cls_eq distinct (List.mem_of_find?_eq_some hq) inside (by simpa using List.find?_some hq)]

theorem mem_updateFirst_of_ne {α : Type} {p : α → Bool} (g : α → α) {l : List α} {a : α} (inside : a ∈ l)
    (other : l.find? p ≠ some a) : a ∈ updateFirst p g l := by
  induction l with
  | nil => cases inside
  | cons b rest ih =>
    unfold updateFirst
    cases hb : p b with
    | true =>
      rcases List.mem_cons.mp inside with rfl | later
      · exact absurd (List.find?_cons_of_pos hb) other
      · exact List.mem_cons_of_mem _ later
    | false =>
      rw [List.find?_cons_of_neg (by simp [hb])] at other
      rcases List.mem_cons.mp inside with rfl | later
      · exact List.mem_cons_self
      · exact List.mem_cons_of_mem _ (ih later other)

theorem mem_updateFirst_of_not {α : Type} {p : α → Bool} (g : α → α) {l : List α} {a : α} (inside : a ∈ l)
    (unmet : p a = false) : a ∈ updateFirst p g l :=
  mem_updateFirst_of_ne g inside fun found => by
    rw [List.find?_some found] at unmet
    cases unmet

theorem mem_updateFirst_of_find {α : Type} {p : α → Bool} (g : α → α) {l : List α} {a : α}
    (found : l.find? p = some a) : g a ∈ updateFirst p g l := by
  induction l with
  | nil => cases found
  | cons b rest ih =>
    unfold updateFirst
    cases hb : p b with
    | true =>
      rw [List.find?_cons_of_pos hb] at found
      cases found
      simp
    | false =>
      rw [List.find?_cons_of_neg (by simp [hb])] at found
      simp [ih found]

/-- A first match that ceases to meet `q` is one less that meets it. -/
theorem countP_updateFirst {α : Type} {p q : α → Bool} {g : α → α} {l : List α} {a : α} (found : l.find? p = some a)
    (before : q a = true) (after : q (g a) = false) : (updateFirst p g l).countP q + 1 = l.countP q := by
  induction l with
  | nil => cases found
  | cons b rest ih =>
    unfold updateFirst
    cases hb : p b with
    | true =>
      rw [List.find?_cons_of_pos hb] at found
      cases found
      simp [before, after]
    | false =>
      rw [List.find?_cons_of_neg (by simp [hb])] at found
      have one_less := ih found
      simp only [Bool.false_eq_true, if_false, List.countP_cons]
      omega

theorem length_le_of_classes (distinct : (requests.map fun q => q.cls).Nodup) : requests.length ≤ 3 := by
  have within : requests.map (fun q => q.cls) ⊆ [.vendMotor, .compressor, .defrostHeater] := by
    intro cls _
    cases cls <;> simp
  simpa using (distinct.subperm within).length_le

end Lists

section Given

/-! ### The window given (R156, R157) -/

variable {s t u w : Station} {r q : Request} {requests : List Request} {room : Prop}

/-- What the window's rules read of a station. -/
structure SameBank (s t : Station) : Prop where
  cfg : t.cfg = s.cfg
  peers : t.peers = s.peers
  slots : ∀ cls, t.power.slot cls = s.power.slot cls

theorem SameBank.trans (h : SameBank s t) (k : SameBank t u) : SameBank s u :=
  ⟨k.cfg.trans h.cfg, k.peers.trans h.peers, fun cls => (k.slots cls).trans (h.slots cls)⟩

theorem SameBank.fits (h : SameBank s t) (r : Request) : Machine.Fits t r ↔ Machine.Fits s r := by
  obtain ⟨cfg, peers, slots⟩ := h
  have own : t.ownSum = s.ownSum := by
    have motor : t.power.vendMotor = s.power.vendMotor := slots .vendMotor
    have compressor : t.power.compressor = s.power.compressor := slots .compressor
    have heater : t.power.heater = s.power.heater := slots .defrostHeater
    rw [Station.ownSum, Station.ownSum, cfg, motor, compressor, heater]
  rw [Machine.Fits, Machine.Fits, own, cfg, peers]

theorem setRequest_slot (s : Station) (cls other : LoadClass) (g : Request → Request) :
    (s.setRequest cls g).power.slot other = s.power.slot other := by
  cases other <;> rfl

theorem checkActive_sameBank (active : s.active = true) (r : Request) : SameBank s (s.checkActive r) := by
  have kept := (checkActive_loads s r).kept
  obtain ⟨g, -, power⟩ := checkActive_power active r
  exact ⟨cfg_of_kept (kept .setup (by decide)), kept .peers (by decide), fun cls => by rw [power, setRequest_slot]⟩

theorem admitFor_sameBank (active : s.active = true) (n : Nat) : SameBank s (admitFor n s) :=
  admitFor_keeps (Q := SameBank s) (fun _ r active _ _ same => same.trans (checkActive_sameBank active r)) n
    (not_isolated_of_hears (.inr active)) ⟨rfl, rfl, fun _ => rfl⟩

/-- What is given is told by the bank, the waiting list and the transmit queue. -/
theorem windowGiven_congr (bank : SameBank s t) (waiting : t.power.requests = s.power.requests)
    (queue : t.line.queue = s.line.queue) (given : WindowGiven requests room s) : WindowGiven requests room t := by
  unfold WindowGiven Station.requestOf at *
  simp only [bank.fits, waiting, queue]
  exact given

/-- R157, R161: a change of a request checked that leaves the window to the others. -/
def PassesOn (g : Request → Request) : Prop :=
  ∀ q, (g q).cls = q.cls ∧ ((g q).phase = .held ∨ (g q).phase = .backoff)

theorem PassesOn.unready {g : Request → Request} (h : PassesOn g) (q : Request) : (g q).phase ≠ .ready := by
  rcases (h q).2 with phase | phase <;> simp [phase]

theorem windowHeld_updateFirst {p : Request → Bool} {g : Request → Request} {l : List Request} (h : PassesOn g)
    (free : windowHeld l = false) : windowHeld (updateFirst p g l) = false := by
  unfold windowHeld at *
  rw [List.any_eq_false] at *
  intro q hq
  rcases mem_updateFirst hq with inside | ⟨x, -, -, rfl⟩
  · exact free q inside
  · rcases (h x).2 with phase | phase <;> simp [phase]

/-- R157: the best READY request is checked, whatever the others are. -/
theorem best_not_left (free : windowHeld requests = false) (best : bestReady requests = some r)
    (left : r.phase ≠ .ready ∨ windowHeld requests = true ∨
      (room ∧ ∃ q ∈ requests, q.phase = .ready ∧ q.betterThan r = true ∧ Machine.Fits t q)) : False := by
  rcases left with unready | held | ⟨-, q, inside, ready, better, -⟩
  · exact unready (bestReady_ready best).2
  · rw [free] at held
    cases held
  · rw [bestReady_best best inside ready] at better
    cases better

/-- R157, R161: the best READY request checked, where that leaves the window to the others: they are given it by the checks
that follow. -/
theorem windowGiven_passed {g : Request → Request} (distinct : (s.power.requests.map fun q => q.cls).Nodup)
    (free : windowHeld s.power.requests = false) (best : bestReady s.power.requests = some r) (passes : PassesOn g)
    (waits : ¬(room ∧ Machine.Fits t r)) (unfit : ¬Machine.Fits t r → g r = heldBack r)
    (full : Machine.Fits t r → g r = backedOff r)
    (given : WindowGiven (updateFirst (fun q => q.cls = r.cls) g s.power.requests) room t) :
    WindowGiven s.power.requests room t := by
  obtain ⟨r_inside, -⟩ := bestReady_ready best
  intro x inside
  by_cases checked : x = r
  · subst checked
    have result := (given _ (mem_updateFirst_of_find g (requestOf_of_mem distinct r_inside))).1 (.inl (passes.unready x))
    rw [(passes x).1] at result
    refine ⟨fun left => (best_not_left free best left).elim,
      fun _ _ _ => ⟨fun h => ?_, fun fits has_room => ?_, fun fits _ => ?_⟩⟩
    · rw [result, unfit h, heldBack]
    · exact absurd ⟨has_room, fits⟩ waits
    · rw [result, full fits, backedOff]
  · have other : x.cls ≠ r.cls := fun same => checked (eq_of_cls_eq distinct inside r_inside same)
    obtain ⟨left, checks⟩ := given x (mem_updateFirst_of_not _ inside (decide_eq_false other))
    refine ⟨fun stays => left ?_, fun ready _ turn => checks ready (windowHeld_updateFirst passes free)
      (turn.imp_right fun alone q q_inside q_ready => ?_)⟩
    · rcases stays with unready | held | ⟨has_room, q, q_inside, q_ready, better, fits⟩
      · exact .inl unready
      · rw [free] at held
        cases held
      · have q_other : q.cls ≠ r.cls := fun same =>
          waits ⟨has_room, eq_of_cls_eq distinct q_inside r_inside same ▸ fits⟩
        exact .inr (.inr ⟨has_room, q, mem_updateFirst_of_not _ q_inside (decide_eq_false q_other), q_ready, better, fits⟩)
    · rcases mem_updateFirst q_inside with before | ⟨y, -, -, rfl⟩
      · exact alone q before q_ready
      · exact absurd q_ready (passes.unready y)

/-- The READY request of best rank, which fits, has the window. -/
theorem windowGiven_claimed (active : s.active = true) (distinct : (s.power.requests.map fun q => q.cls).Nodup)
    (free : windowHeld s.power.requests = false) (best : bestReady s.power.requests = some r) (fits : Machine.Fits s r)
    (has_room : s.line.queue.length < 8) :
    WindowGiven s.power.requests (s.line.queue.length < 8) (s.checkActive r) := by
  obtain ⟨r_inside, r_ready⟩ := bestReady_ready best
  have bank := checkActive_sameBank active r
  have waiting : (s.checkActive r).power.requests = updateFirst (fun q => q.cls = r.cls) claimed s.power.requests := by
    rw [checkActive_of_room active fits has_room]
    rfl
  have distinct' : ((s.checkActive r).power.requests.map fun q => q.cls).Nodup := by
    rw [waiting, updateFirst_map (fun q : Request => decide (q.cls = r.cls)) (f := claimed) (fun _ => rfl)]
    exact distinct
  have stays {x : Request} (inside : x ∈ s.power.requests) (other : x ≠ r) : (s.checkActive r).requestOf x.cls = some x := by
    refine requestOf_of_mem distinct' ?_
    rw [waiting]
    exact mem_updateFirst_of_not _ inside (decide_eq_false fun same => other (eq_of_cls_eq distinct inside r_inside same))
  intro x inside
  by_cases checked : x = r
  · subst checked
    have result : (s.checkActive x).requestOf x.cls = some (claimed x) := by
      refine requestOf_of_mem (r := claimed x) distinct' ?_
      rw [waiting]
      exact mem_updateFirst_of_find claimed (requestOf_of_mem distinct r_inside)
    have queued : claimFrame x ∈ (s.checkActive x).line.queue := by
      rw [checkActive_of_room active fits has_room]
      simp [claimQueued]
    refine ⟨fun left => (best_not_left free best left).elim,
      fun _ _ _ => ⟨fun unfit => ?_, fun _ _ => ⟨result, queued⟩, fun _ full => ?_⟩⟩
    · exact absurd ((bank.fits x).mpr fits) unfit
    · exact absurd has_room full
  · refine ⟨fun _ => stays inside checked, fun ready _ turn => ?_⟩
    have better : r.betterThan x = true :=
      betterThan_of_not (fun same => checked (eq_of_cls_eq distinct inside r_inside same)) (bestReady_best best inside ready)
    rcases turn with full | alone
    · exact absurd has_room full
    · exact absurd ((bank.fits r).mpr fits) (alone r r_inside r_ready better)

/-- With no READY request, or the window held, the waiting list stays as it is. -/
theorem windowGiven_of_settled (distinct : (s.power.requests.map fun q => q.cls).Nodup)
    (settled : windowHeld s.power.requests = true ∨ ∀ r ∈ s.power.requests, r.phase ≠ .ready) :
    WindowGiven s.power.requests room s := by
  refine fun r inside => ⟨fun _ => requestOf_of_mem distinct inside, fun ready free _ => ?_⟩
  rcases settled with held | unready
  · rw [free] at held
    cases held
  · exact absurd ready (unready r inside)

/-- R157, R161: a check that queues no CLAIM leaves the window to the others. -/
theorem checkActive_passes (active : s.active = true) (waits : ¬(s.line.queue.length < 8 ∧ Machine.Fits s r)) :
    ∃ g, PassesOn g ∧ (¬Machine.Fits s r → g r = heldBack r) ∧ (Machine.Fits s r → g r = backedOff r) ∧
      (s.checkActive r).power.requests = updateFirst (fun q => q.cls = r.cls) g s.power.requests ∧
      (s.checkActive r).line.queue = s.line.queue := by
  by_cases fits : Machine.Fits s r
  · rw [checkActive_of_full active fits fun has_room => waits ⟨has_room, fits⟩]
    exact ⟨backedOff, fun _ => ⟨rfl, .inr rfl⟩, absurd fits, fun _ => rfl, rfl, rfl⟩
  · rw [checkActive_of_unfit fits]
    exact ⟨heldBack, fun _ => ⟨rfl, .inl rfl⟩, fun _ => rfl, fun k => absurd k fits, rfl, rfl⟩

/-- R157: once a CLAIM has been queued no further check is made. -/
theorem checkOne_of_claimed (active : s.active = true) (distinct : (s.power.requests.map fun q => q.cls).Nodup)
    (inside : r ∈ s.power.requests) (fits : Machine.Fits s r) (has_room : s.line.queue.length < 8) :
    (s.checkActive r).checkOne = none := by
  have held : windowHeld (s.checkActive r).power.requests = true := by
    rw [checkActive_of_room active fits has_room]
    exact List.any_eq_true.mpr ⟨claimed r, mem_updateFirst_of_find claimed (requestOf_of_mem distinct inside), rfl⟩
  rw [checkOne_of_active ((active_of_state (checkActive_claims s r).line_state).trans active), if_pos held]

/-- R157: the checks of an event give the window, where they are as many as the READY requests. -/
theorem admitFor_windowGiven (n : Nat) (active : s.active = true) (distinct : (s.power.requests.map fun q => q.cls).Nodup)
    (enough : s.power.requests.countP (fun q => q.phase = .ready) ≤ n) :
    WindowGiven s.power.requests (s.line.queue.length < 8) (admitFor n s) := by
  induction n generalizing s with
  | zero =>
    refine windowGiven_of_settled distinct (.inr fun r inside ready => ?_)
    exact absurd (decide_eq_true ready) (List.countP_eq_zero.mp (Nat.le_zero.mp enough) r inside)
  | succ n ih =>
    have next := checkOne_of_active active
    cases held : windowHeld s.power.requests with
    | true =>
      rw [held, if_pos rfl] at next
      rw [admitFor_of_none next]
      exact windowGiven_of_settled distinct (.inl held)
    | false =>
      rw [held, if_neg (by decide)] at next
      cases best : bestReady s.power.requests with
      | none =>
        rw [best] at next
        rw [admitFor_of_none next]
        exact windowGiven_of_settled distinct (.inr ((bestReady_eq_none_iff _).mp best))
      | some r =>
        rw [best] at next
        rw [admitFor_of_some next]
        obtain ⟨inside, ready⟩ := bestReady_ready best
        have active' : (s.checkActive r).active = true := (active_of_state (checkActive_claims s r).line_state).trans active
        have bank := (checkActive_sameBank active r).trans (admitFor_sameBank active' n)
        by_cases sends : s.line.queue.length < 8 ∧ Machine.Fits s r
        · rw [admitFor_of_none (checkOne_of_claimed active distinct inside sends.2 sends.1)]
          exact windowGiven_claimed active distinct held best sends.2 sends.1
        · obtain ⟨g, passes, unfit, full, waiting, queue⟩ := checkActive_passes active sends
          have one_less := countP_updateFirst (q := fun q => q.phase = .ready) (requestOf_of_mem distinct inside)
            (decide_eq_true ready) (decide_eq_false (passes.unready r))
          have distinct' : ((s.checkActive r).power.requests.map fun q => q.cls).Nodup := by
            rw [waiting, updateFirst_map (fun q : Request => decide (q.cls = r.cls)) fun q => (passes q).1]
            exact distinct
          have given := ih active' distinct' (by rw [waiting]; omega)
          rw [waiting, queue] at given
          refine windowGiven_passed distinct held best passes ?_ ?_ ?_ given <;> rwa [bank.fits]

/-- R157: at the end of an event the free window of an ACTIVE station is given. -/
theorem finish_windowGiven (o : Station) (active : w.active = true) (distinct : (w.power.requests.map fun q => q.cls).Nodup)
    (waiting : w.power.requests = requests) (has_room : w.line.queue.length < 8 ↔ room) :
    WindowGiven requests room (finish o w) := by
  rw [← waiting, ← propext has_room]
  obtain ⟨lit, evaluated⟩ := evaluateIfChanged_shape w o
  have given : WindowGiven w.power.requests (w.line.queue.length < 8) (w.evaluateIfChanged o).admitLoads := by
    rw [evaluated]
    refine admitFor_windowGiven 12 (s := { w with exactLit := lit }) active distinct ?_
    have few := length_le_of_classes distinct
    have ready_few := List.countP_le_length (p := fun q : Request => q.phase = .ready) (l := w.power.requests)
    exact (ready_few.trans few).trans (by decide)
  have kept := finish_kept_admitted o w
  have power := kept .power (by decide)
  refine windowGiven_congr ⟨cfg_of_kept (kept .setup (by decide)), kept .peers (by decide), fun cls => ?_⟩ ?_ ?_ given
  · rw [finish_power]
  · rw [finish_power]
  · rw [(finish_line_vend o w).1]

end Given

end Sys2Proof.Proofs

/-! SUPPORT. The end of a backoff, outside ISOLATED and in it (R161, R166), and events in which no load is granted (O40). -/

namespace Sys2Proof.Proofs

open Sys2Proof.Machine Sys2Proof.Laws

section Time

/-! ### What time leaves of the waiting list (R154) -/

variable {s w : Station} {l : List Region} {cls : LoadClass} {r : Request}

/-- What time leaves of a request. -/
structure Ages (f : Request → Request) : Prop where
  cls : ∀ q, (f q).cls = q.cls
  power : ∀ q, (f q).power = q.power
  phase : ∀ q, (f q).phase = q.phase
  starved : ∀ q, (f q).starved = q.starved

/-- R154, R155: time ages the requests of the list, each in its place. -/
theorem advance_power (s : Station) (d : Nat) :
    ∃ f, Ages f ∧ (s.advance d).power = { s.power with requests := s.power.requests.map f } := by
  unfold Station.advance
  split
  · exact ⟨id, ⟨fun _ => rfl, fun _ => rfl, fun _ => rfl, fun _ => rfl⟩, by simp⟩
  · exact ⟨Request.advance s.cfg.address d, ⟨fun _ => rfl, fun _ => rfl, fun _ => rfl, fun _ => rfl⟩, rfl⟩

theorem advance_active (s : Station) (d : Nat) : (s.advance d).active = s.active := by
  obtain ⟨-, -, -, -, -, -, -, -, -, -, -, state, -⟩ := advance_keeps d s
  exact active_of_state state

theorem advance_isIsolated (s : Station) (d : Nat) : (s.advance d).line.state.isIsolated = s.line.state.isIsolated := by
  obtain ⟨-, -, -, -, -, -, -, -, -, -, -, state, -⟩ := advance_keeps d s
  rw [state]

theorem advance_classes (s : Station) (d : Nat) :
    ((s.advance d).power.requests.map fun q => q.cls) = s.power.requests.map fun q => q.cls := by
  obtain ⟨f, ages, power⟩ := advance_power s d
  simp [power, ages.cls, Function.comp_def]

theorem advance_windowHeld (s : Station) (d : Nat) : windowHeld (s.advance d).power.requests = windowHeld s.power.requests := by
  obtain ⟨f, ages, power⟩ := advance_power s d
  simp [power, windowHeld, ages.phase, Function.comp_def]

theorem advance_requestOf (d : Nat) (found : s.requestOf cls = some r) :
    ∃ q, (s.advance d).requestOf cls = some q ∧ q.phase = r.phase := by
  obtain ⟨f, ages, power⟩ := advance_power s d
  refine ⟨f r, ?_, ages.phase r⟩
  rw [Station.requestOf, power, List.find?_map]
  simp only [Function.comp_def, ages.cls]
  exact congrArg (Option.map f) found

end Time

section Frames

/-! ### Events in which no load is granted -/

variable {s w : Station} {l : List Region}

/-- An event after which no waiting load is to be checked keeps what its body keeps. -/
theorem keepsBut_of_settled (o : Station) (h : Kept l s w) (settled : w.loadsSettled = true) : KeepsBut l s (finish o w) := by
  refine keepsBut_of_admitted o ?_
  have evaluated := evaluateIfChanged_kept w o
  rw [admit_of_settled _ ((loadsSettled_kept (evaluated _ (by decide)) (evaluated _ (by decide))).trans settled)]
  exact h.trans (evaluated.mono (by simp))

theorem Claims.kept {s t : Station} (h : Claims s t) : Kept [.power, .lineQueue] s t := by
  obtain ⟨_, _, _, rfl, -⟩ := h
  intro r hr
  cases r <;> first | exact absurd (by decide) hr | rfl

/-- R157: outside ISOLATED the checks of an event change the loads that wait, and queue their CLAIMs. -/
theorem keepsBut_of_claims (o : Station) (h : Kept [.power, .lineQueue] s w) (waits : w.line.state.isIsolated = false) :
    KeepsBut [.power, .lineQueue] s (finish o w) := by
  refine keepsBut_of_admitted o (h.trans ?_)
  obtain ⟨_, evaluated⟩ := evaluateIfChanged_shape w o
  have kept := (evaluateIfChanged_kept w o).mono (m := [.power, .lineQueue]) (by simp)
  refine kept.trans (Claims.kept (admitFor_claims 12 ?_))
  rw [evaluated]
  exact waits

end Frames

section Backoff

/-! ### The end of a backoff (R161, R164) -/

variable {s : State} {u w : Station} {cls : LoadClass} {r q : Request}

/-- R161: a request whose backoff is over. -/
def readied (q : Request) : Request := { q with phase := .ready, timer := 0 }

theorem backoffTimerExpiry_gives {P : Station → Prop} (waits : s.station.requestOf cls = some r) (phase : r.phase = .backoff)
    (advanced : u = s.station.advanceTo (50 + 100 * s.station.cfg.address) r.timer)
    (h : P (finish s.station (u.setRequest cls readied))) : Gives (.backoffTimerExpiry cls) s P := by
  refine gives_of_event _ rfl ?_
  simp only [waits, expire, phase, decide_true, if_true]
  rw [advanced] at h
  exact h

/-- A change of a request that does not hold the window leaves it held. -/
theorem windowHeld_setRequest (g : Request → Request) (found : w.requestOf cls = some q)
    (free : q.phase ≠ .sending ∧ q.phase ≠ .window) (held : windowHeld w.power.requests = true) :
    windowHeld (w.setRequest cls g).power.requests = true := by
  unfold windowHeld at *
  obtain ⟨x, inside, holds⟩ := List.any_eq_true.mp held
  refine List.any_eq_true.mpr ⟨x, mem_updateFirst_of_ne g inside fun same => ?_, holds⟩
  obtain rfl : q = x := Option.some.inj (found.symm.trans same)
  simp [free] at holds

/-- R161: the end of a backoff in an event that checks no request. -/
theorem backoff_readied (waits : s.station.requestOf cls = some r) (phase : r.phase = .backoff)
    (outside : s.station.line.state.isIsolated = false)
    (held : s.station.active = true → windowHeld s.station.power.requests = true)
    (advanced : u = s.station.advanceTo (50 + 100 * s.station.cfg.address) r.timer) :
    Gives (.backoffTimerExpiry cls) s fun t =>
      ((t.requestOf cls).map fun q => (q.phase, q.timer)) = some (.ready, 0) ∧ KeepsBut [.power] u t := by
  refine backoffTimerExpiry_gives waits phase advanced ?_
  obtain ⟨q, found, q_phase⟩ := advance_requestOf (50 + 100 * s.station.cfg.address - r.timer) waits
  rw [← Station.advanceTo, ← advanced] at found
  have settled : (u.setRequest cls readied).loadsSettled = true := by
    have isolated : (u.setRequest cls readied).line.state.isIsolated = false := by
      rw [setRequest_line, advanced, Station.advanceTo, advance_isIsolated, outside]
    have out (active : s.station.active = true) : windowHeld (u.setRequest cls readied).power.requests = true := by
      refine windowHeld_setRequest readied found (by simp [q_phase, phase]) ?_
      rw [advanced, Station.advanceTo, advance_windowHeld, held active]
    have active : (u.setRequest cls readied).active = s.station.active := by
      rw [Station.active, setRequest_line, advanced]
      exact advance_active s.station _
    unfold Station.loadsSettled
    rw [active, isolated]
    cases on : s.station.active with
    | true => rw [out on, Bool.true_and, Bool.or_true, Bool.true_or]
    | false => simp
  refine ⟨?_, keepsBut_of_settled _ (power_kept _ _) settled⟩
  have power : (finish s.station (u.setRequest cls readied)).power = (u.setRequest cls readied).power :=
    finish_same _ _ .power settled
  have ready : (u.setRequest cls readied).requestOf cls = some (readied q) := by
    exact (find?_updateFirst_self (f := readied) (fun _ => rfl) _).trans (congrArg (Option.map readied) found)
  rw [Station.requestOf] at ready ⊢
  rw [power, ready]
  rfl

end Backoff

section Isolated

/-! ### The check of a request in ISOLATED (R166) -/

variable {u w : Station} {r q : Request}

theorem checkIsolated_of_fits (fits : w.ownSum + watts q.power ≤ allowanceInForce w.cfg) :
    w.checkIsolated q = (w.setRequest q.cls Request.check).grant q := if_pos fits

theorem checkIsolated_of_above (above : allowanceInForce w.cfg < w.ownSum + watts q.power) :
    w.checkIsolated q = w.setRequest q.cls heldBack :=
  (if_neg (Nat.not_le.mpr above)).trans (setRequest_setRequest w q.cls fun _ => rfl)

theorem setRequest_single (only : w.power.requests = [q]) (g : Request → Request) :
    (w.setRequest q.cls g).power.requests = [g q] := by
  simp [only, updateFirst]

theorem bestReady_single (ready : q.phase = .ready) : bestReady [q] = some q := by
  simp [bestReady, betterRequest, ready]

/-- R154: the only request, granted, leaves the list empty. -/
theorem grant_requests (only : w.power.requests = [r]) (same : r.cls = q.cls) : (w.grant q).power.requests = [] := by
  have given : (slotGiven w q).power.requests = [] := by
    rw [slotGiven, dropRequest_power, setSlot_requests, only]
    simp [removeFirst, same]
  have derived := (handGrant_serves (slotGiven w q) q.cls).requests
  rw [given] at derived
  refine List.eq_nil_iff_forall_not_mem.mpr fun x inside => ?_
  obtain ⟨_, none_left, -⟩ := derived x inside
  cases none_left

/-- R166: the only request that waits is checked once. -/
theorem admitLoads_single (isolated : w.line.state.isIsolated = true) (only : w.power.requests = [q])
    (ready : q.phase = .ready) : w.admitLoads = w.checkIsolated q := by
  have checked : w.checkOne = some (w.checkIsolated q) := by
    rw [checkOne_of_isolated isolated, only, bestReady_single ready, Option.map_some]
  have later : (w.checkIsolated q).checkOne = none := by
    rw [checkOne_of_isolated ((congrArg _ (checkIsolated_admits isolated q).state).trans isolated), Option.map_eq_none_iff,
      bestReady_eq_none_iff]
    intro x inside
    by_cases fits : w.ownSum + watts q.power ≤ allowanceInForce w.cfg
    · rw [checkIsolated_of_fits fits, grant_requests (q := q) (setRequest_single only Request.check) rfl] at inside
      cases inside
    · rw [checkIsolated_of_above (Nat.not_le.mp fits), setRequest_single only] at inside
      obtain rfl := List.mem_singleton.mp inside
      simp [heldBack, Request.judged]
  rw [Station.admitLoads, admitFor_of_some checked, admitFor_of_none later]

/-- R134, R144: what follows the admission of loads in an event starts no compressor and no heater. -/
theorem finish_granted_admitted (o w : Station) : Granted (w.evaluateIfChanged o).admitLoads (finish o w) := by
  refine (resetIce_granted _).trans (.of_cooling (finish_cooling o w) ?_)
  have state : (finish o w).line.state = (w.evaluateIfChanged o).admitLoads.line.state :=
    congrArg Line.state (finish_line_vend o w).1
  obtain ⟨_, ice, -⟩ := resetIce_shape (w.evaluateIfChanged o).admitLoads
  rw [state, ice]

/-- R166: the only request, READY, is granted within the allowance. -/
theorem finish_isolated_granted (o : Station) (isolated : w.line.state.isIsolated = true) (only : w.power.requests = [q])
    (ready : q.phase = .ready) (fits : w.ownSum + watts q.power ≤ allowanceInForce w.cfg) :
    LoadGranted w q (finish o w) ∧ (finish o w).power.requests = [] := by
  obtain ⟨lit, evaluated⟩ := evaluateIfChanged_shape w o
  have admitted : (w.evaluateIfChanged o).admitLoads =
      (({ w with exactLit := lit } : Station).setRequest q.cls Request.check).grant q := by
    rw [evaluated, admitLoads_single (w := { w with exactLit := lit }) isolated only ready]
    exact checkIsolated_of_fits (w := { w with exactLit := lit }) fits
  have granted : LoadGranted w q (w.evaluateIfChanged o).admitLoads := by
    rw [admitted]
    exact grant_loadGranted (({ w with exactLit := lit } : Station).setRequest q.cls Request.check) q
  refine ⟨granted.later (by rw [finish_power]) (fun _ => (finish_line_vend o w).2) (finish_granted_admitted o w), ?_⟩
  rw [finish_power, admitted]
  exact grant_requests (setRequest_single (w := { w with exactLit := lit }) only Request.check) rfl

/-- R166: the only request, READY, is HELD above the allowance. -/
theorem finish_isolated_held (o : Station) (kept : Kept [.power] u w) (isolated : w.line.state.isIsolated = true)
    (only : w.power.requests = [q])
    (ready : q.phase = .ready) (above : allowanceInForce w.cfg < w.ownSum + watts q.power) :
    (finish o w).power.requests = [heldBack q] ∧ KeepsBut [.power] u (finish o w) := by
  obtain ⟨lit, evaluated⟩ := evaluateIfChanged_shape w o
  have admitted : (w.evaluateIfChanged o).admitLoads =
      ({ w with exactLit := lit } : Station).setRequest q.cls heldBack := by
    rw [evaluated, admitLoads_single (w := { w with exactLit := lit }) isolated only ready]
    exact checkIsolated_of_above (w := { w with exactLit := lit }) above
  constructor
  · rw [finish_power, admitted]
    exact setRequest_single (w := { w with exactLit := lit }) only heldBack
  · refine keepsBut_of_admitted o ?_
    rw [admitted, ← evaluated]
    exact (kept.trans ((evaluateIfChanged_kept w o).mono (by simp))).trans (power_kept _ _)

end Isolated

end Sys2Proof.Proofs

/-! SUPPORT. The events that give the window (R157, R158): a backoff's end, the entry to ACTIVE, the compressor's run watts, and
changes of the peer view (O40). -/

namespace Sys2Proof.Proofs

open Sys2Proof.Machine Sys2Proof.Laws

section Given

/-! ### The window given by an event (R157, R158) -/

variable {s : State} {u w : Station} {cls : LoadClass} {r q : Request}

theorem updateFirst_eq_map {l : List Request} (distinct : (l.map fun q => q.cls).Nodup) (g : Request → Request) :
    updateFirst (fun q => q.cls = cls) g l = l.map fun q => if q.cls = cls then g q else q := by
  induction l with
  | nil => rfl
  | cons a rest ih =>
    obtain ⟨alone, distinct⟩ := List.nodup_cons.mp distinct
    by_cases same : a.cls = cls
    · have left : (rest.map fun q => if q.cls = cls then g q else q) = rest := by
        refine (List.map_congr_left (g := id) fun q inside => if_neg fun also => alone ?_).trans (List.map_id rest)
        exact List.mem_map.mpr ⟨q, inside, also.trans same.symm⟩
      simp [updateFirst, same, left]
    · simp [updateFirst, same, ih distinct]

theorem readyHeld_classes (l : List Request) : ((readyHeld l).map fun q => q.cls) = l.map fun q => q.cls := by
  rw [readyHeld, List.map_map]
  refine List.map_congr_left fun q _ => ?_
  simp only [Function.comp_apply]
  split <;> rfl

theorem advance_distinct (d : Nat) {s : Station} (distinct : (s.power.requests.map fun q => q.cls).Nodup) :
    ((s.advance d).power.requests.map fun q => q.cls).Nodup := by
  rwa [advance_classes]

/-- R158: where HELD requests have become READY, the window is given to them too. -/
theorem finish_windowGiven_readied (o : Station) {room : Prop} (active : w.active = true)
    (distinct : (u.power.requests.map fun q => q.cls).Nodup) (waiting : w.power.requests = readyHeld u.power.requests)
    (has_room : w.line.queue.length < 8 ↔ room) : WindowGiven (readyHeld u.power.requests) room (finish o w) := by
  refine finish_windowGiven o active ?_ waiting has_room
  rwa [waiting, readyHeld_classes]

/-- R157, R161: the end of a backoff while ACTIVE. -/
theorem backoff_given (waits : s.station.requestOf cls = some r) (phase : r.phase = .backoff)
    (active : s.station.active = true) (distinct : (s.station.power.requests.map fun q => q.cls).Nodup)
    (advanced : u = s.station.advanceTo (50 + 100 * s.station.cfg.address) r.timer) :
    Gives (.backoffTimerExpiry cls) s fun t =>
      WindowGiven (u.power.requests.map fun q => if q.cls = cls then { q with phase := .ready, timer := 0 } else q)
        (u.line.queue.length < 8) t := by
  refine backoffTimerExpiry_gives waits phase advanced ?_
  have distinct_u : (u.power.requests.map fun q => q.cls).Nodup := by
    rw [advanced]
    exact advance_distinct _ distinct
  refine finish_windowGiven (w := u.setRequest cls readied) s.station ?_ ?_ (updateFirst_eq_map distinct_u readied) Iff.rfl
  · rw [advanced]
    exact (advance_active s.station _).trans active
  · rw [setRequest_power, updateFirst_map (fun q : Request => decide (q.cls = cls)) (f := readied) (fun _ => rfl)]
    exact distinct_u

/-- R157, R178: the entry to ACTIVE. -/
theorem listen_given (listens : s.station.line.state = .listen)
    (distinct : (s.station.power.requests.map fun q => q.cls).Nodup)
    (advanced : u = s.station.advanceTo 1500 s.station.line.listenTimer)
    (enters : u.line.heard = true ∨ u.cfg.stationCount = 1) :
    Gives .listenTimerExpiry s fun t => WindowGiven (readyHeld u.power.requests) (u.line.queue.length < 8) t := by
  refine gives_of_expiry rfl (decide_eq_true listens) advanced ?_
  rw [show u.endListen = u.enterActive from if_pos (by simpa using enters)]
  refine finish_windowGiven_readied _ rfl ?_ rfl Iff.rfl
  rw [advanced]
  exact advance_distinct _ distinct

theorem hand_full {dst : Nat} {body : FrameBody} (plain : body.isHeartbeat = false) (full : ¬u.line.queue.length < 8) :
    (u.hand dst body).line.queue = u.line.queue := by
  unfold Station.hand Station.handFrame
  split
  · simp [queueFrame, replacesBehindHead, plain, full]
  · rfl

/-- R158, R162: the own compressor lowered to its run watts. -/
theorem inrush_given {f : Fig} (active : s.station.active = true) (runs : s.station.cooling.compressor = .run)
    (inrush : s.station.cooling.inrushDone = false) (distinct : (s.station.power.requests.map fun q => q.cls).Nodup)
    (advanced : u = s.station.advanceTo (1000 * s.station.cfg.cooling.inrushSec) s.station.cooling.inrushTimer)
    (standing : u.power.compressor = some f) (within : watts u.cfg.run ≤ watts f) :
    Gives .inrushEnd s fun t => WindowGiven (readyHeld u.power.requests) (u.line.queue.length < 7) t := by
  refine gives_of_expiry_of (runs := fun o => o.cooling.compressor = .run && !o.cooling.inrushDone)
    (length := fun o => inrushTime o.cfg.cooling) rfl (by simp [runs, inrush]) advanced ?_
  rw [endInrush_of_standing standing within]
  have active_u : u.active = true := by
    rw [advanced]
    exact (advance_active s.station _).trans active
  have distinct_u : (u.power.requests.map fun q => q.cls).Nodup := by
    rw [advanced]
    exact advance_distinct _ distinct
  have line : (inrushLowered u).line = u.line := roomMade_line _
  have state : ((inrushLowered u).hand 0 (.claim .compressor 2 u.cfg.run)).line.state = u.line.state := by
    rw [state_of_kept (hand_kept _ _ _) (by decide), line]
  refine finish_windowGiven_readied _ ((active_of_state state).trans active_u) distinct_u ?_ ?_
  · have active_lowered : ({ inrushOver u with
        power := (inrushOver u).power.setSlot .compressor (some u.cfg.run) } : Station).active = true := active_u
    rw [hand_power, inrushLowered, Station.roomMade, active_lowered]
    rfl
  · by_cases has_room : u.line.queue.length < 8
    · rw [hand_queue (by rw [line]; exact sendAllowed_of_hears (.inr active_u) (.inl active_u)) rfl
          (by rw [line]; exact has_room),
        line, List.length_append, List.length_singleton]
      omega
    · rw [hand_full rfl (by rw [line]; exact has_room), line]
      omega

end Given

section Peers

/-! ### Changes of the peer view (R158, R182 to R184) -/

variable {s w : Station} {p q : Peer} {address : Nat}

/-- R158: what lowers a term of the admission sum. -/
theorem lowered_iff (c : Settings) : p.lowered c q = true ↔ CountsLess c p q := by
  simp [Peer.lowered, CountsLess, or_assoc]

theorem findPeer_putPeer (peers : List Peer) (q : Peer) : (putPeer q peers).find? (fun p => p.address = q.address) = some q := by
  induction peers with
  | nil => simp [putPeer]
  | cons a rest ih =>
    unfold putPeer
    split
    · simp
    · split
      · simp
      · rename_i other
        rw [List.find?_cons_of_neg (by simpa using fun same : a.address = q.address => other same.symm), ih]

theorem bankRoomMade_of_active (active : s.active = true) : s.bankRoomMade = s.readyAll := if_pos active

theorem changePeer_of_less (active : s.active = true) (less : CountsLess s.cfg p q) :
    s.changePeer p q = ({ s with peers := putPeer q s.peers } : Station).readyAll :=
  (if_pos ((lowered_iff s.cfg).mpr less)).trans (bankRoomMade_of_active (s := { s with peers := putPeer q s.peers }) active)

theorem changePeer_of_not_less (same : ¬CountsLess s.cfg p q) :
    s.changePeer p q = { s with peers := putPeer q s.peers } :=
  if_neg fun lowered => same ((lowered_iff s.cfg).mp lowered)

theorem changePeer_line (active : s.active = true) (p q : Peer) : (s.changePeer p q).line = s.line := by
  by_cases less : CountsLess s.cfg p q
  · rw [changePeer_of_less active less]
    rfl
  · rw [changePeer_of_not_less less]

theorem changePeer_peers (active : s.active = true) (p q : Peer) : (s.changePeer p q).peers = putPeer q s.peers := by
  by_cases less : CountsLess s.cfg p q
  · rw [changePeer_of_less active less]
    rfl
  · rw [changePeer_of_not_less less]

/-- R158: the window given by an event whose body is a change of a peer's entry, beside what the power budget unit does not
read. -/
theorem finish_windowGiven_of_change (o : Station) (active : s.active = true)
    (distinct : (s.power.requests.map fun q => q.cls).Nodup) (power : w.power = (s.changePeer p q).power)
    (state : w.line.state = s.line.state) (queue : w.line.queue = s.line.queue) :
    (CountsLess s.cfg p q → WindowGiven (readyHeld s.power.requests) (s.line.queue.length < 8) (finish o w)) ∧
    (¬CountsLess s.cfg p q → WindowGiven s.power.requests (s.line.queue.length < 8) (finish o w)) := by
  have active_w : w.active = true := (active_of_state state).trans active
  refine ⟨fun less => ?_, fun same => ?_⟩
  · rw [changePeer_of_less active less] at power
    exact finish_windowGiven_readied o active_w distinct (by rw [power]; rfl) (by rw [queue])
  · rw [changePeer_of_not_less same] at power
    exact finish_windowGiven o active_w (by rw [power]; exact distinct) (by rw [power]) (by rw [queue])

end Peers

section Hearing

/-! ### A peer's frame that writes its entry (R158, R182) -/

variable {s : Station} {w : Station} {p : Peer} {src dst : Nat} {apply : Peer → Peer}

/-- R172: the station that has heard a frame with an effect on its sender's entry. -/
def heardWith (s : Station) (src : Nat) (apply : Peer → Peer) : Station := ((s.refreshPeer src apply).noticeLetter).heardPeer

/-- R172: a valid frame of a peer whose block does nothing. -/
theorem takeFrame_view (running : s.running = true) (other : src ≠ s.cfg.address) (windowed : Station → Station)
    (unwindowed : windowed s = s) : s.takeFrame true src dst apply windowed id = heardWith s src apply := by
  unfold Station.takeFrame
  simp only [running, other, unwindowed, Bool.not_true, Bool.false_eq_true, if_false]
  split <;> rfl

theorem recordClaim_of_no_window (none_open : s.requestIn .window = none) (address cls rank : Nat) :
    s.recordClaim address cls rank = s := by
  unfold Station.recordClaim
  split
  · rfl
  · have unrecorded (g : Request → Request) :
        (s.power.requests.map fun q => if q.phase = .window then g q else q) = s.power.requests := by
      refine (List.map_congr_left (g := id) fun q inside => if_neg ?_).trans (List.map_id _)
      simpa using List.find?_eq_none.mp none_open q inside
    dsimp only
    rw [unrecorded]

theorem heardPeer_of_active (active : s.active = true) :
    s.heardPeer = { s with line := { s.line with silenceTimer := 0, heard := true } } := by
  have state : s.line.state = .active := by simpa [Station.active] using active
  simp [Station.heardPeer, state]

/-- R182: the entry of a peer that the view knows, once a frame with an effect on it has been heard. -/
def heardEntry (apply : Peer → Peer) (p : Peer) : Peer := apply { p with presence := .present, age := 0 }

/-- R172, R182: while ACTIVE, a frame of a peer that the view knows changes its entry. -/
theorem heardWith_of_active (active : s.active = true) (known : s.findPeer src = some p) :
    Kept [.latch, .line] (s.changePeer p (heardEntry apply p)) (heardWith s src apply) ∧
      (heardWith s src apply).line.state = s.line.state := by
  have refreshed : s.refreshPeer src apply = s.changePeer p (heardEntry apply p) := by
    simp [Station.refreshPeer, known, heardEntry]
  have noticed := noticeLetter_kept (s.changePeer p (heardEntry apply p))
  have line : (s.changePeer p (heardEntry apply p)).noticeLetter.line = s.line :=
    (line_of_kept (noticed _ (by decide)) (noticed _ (by decide))).trans (changePeer_line active _ _)
  rw [heardWith, refreshed]
  generalize (s.changePeer p (heardEntry apply p)).noticeLetter = x at noticed line
  have state : x.line.state = s.line.state := congrArg Line.state line
  rw [heardPeer_of_active ((active_of_line line).trans active)]
  refine ⟨(noticed.mono (by simp)).trans fun r hr => ?_, state⟩
  cases r <;> first | exact absurd (by decide) hr | rfl

/-- R158, R182: what such a frame does to the entry and to the window. -/
theorem finish_windowGiven_of_frame (o : Station) (active : s.active = true)
    (distinct : (s.power.requests.map fun q => q.cls).Nodup) (known : s.findPeer src = some p)
    (addressed : ∀ p, (apply p).address = p.address) (kept : Kept [.line] (heardWith s src apply) w)
    (state : w.line.state = (heardWith s src apply).line.state) :
    ∃ q, (finish o w).findPeer src = some q ∧
      (CountsLess s.cfg p q → WindowGiven (readyHeld s.power.requests) (s.line.queue.length < 8) (finish o w)) ∧
      (¬CountsLess s.cfg p q → WindowGiven s.power.requests (s.line.queue.length < 8) (finish o w)) := by
  obtain ⟨heard, heard_state⟩ := heardWith_of_active (apply := apply) active known
  have view := heard.trans (kept.mono (m := [.latch, .line]) (by simp))
  refine ⟨heardEntry apply p, ?_, finish_windowGiven_of_change o active distinct
    (view .power (by decide)) (state.trans heard_state) ?_⟩
  · have peers : (finish o w).peers = putPeer (heardEntry apply p) s.peers :=
      (finish_same o w .peers).trans ((view .peers (by decide)).trans (changePeer_peers active _ _))
    have address : (heardEntry apply p).address = src := by
      rw [heardEntry, addressed]
      simpa using List.find?_some known
    rw [Station.findPeer, peers]
    simpa [address] using findPeer_putPeer s.peers (heardEntry apply p)
  · have queue := congrArg Prod.fst (view .lineQueue (by decide))
    exact queue.trans (congrArg Line.queue (changePeer_line active _ _))

theorem scheduleDeclare_state (s : Station) : s.scheduleDeclare.line.state = s.line.state := by
  unfold Station.scheduleDeclare
  split <;> rfl

theorem applySlot_address (cls w : Nat) (p : Peer) : (applySlot cls w p).address = p.address := by
  unfold applySlot
  split
  · rename_i c _
    cases c <;> rfl
  · rfl

theorem running_of_active (active : s.active = true) : s.running = true := by
  have state : s.line.state = .active := by simpa [Station.active] using active
  simp [Station.running, LineState.running, state]

end Hearing

end Sys2Proof.Proofs

/-! SUPPORT. The commands of O40, each brought to what the end of its event gives. -/

namespace Sys2Proof.Proofs

open Sys2Proof.Machine Sys2Proof.Laws

section Commands

/-! ### The commands -/

variable {s : State} {u : Station} {p : Peer} {cls : LoadClass} {r : Request}

/-- R158, R182: DECLARE, HEARTBEAT, RELEASE, and a CLAIM with no window open. -/
theorem frame_given {c : Instr} {src dst : Nat} (valid : frameValid c = true)
    (active : s.station.active = true) (other : src ≠ s.station.cfg.address)
    (kind : (∃ fields, c = .declare src dst fields) ∨ (∃ fields, c = .heartbeat src dst fields) ∨
      (∃ cls, c = .release src dst cls) ∨
      (∃ cls rank value scale, c = .claim src dst cls rank value scale ∧ s.station.requestIn .window = none))
    (distinct : (s.station.power.requests.map fun q => q.cls).Nodup) (known : s.station.findPeer src = some p) :
    Gives c s fun t => ∃ q, t.findPeer src = some q ∧
      (CountsLess s.station.cfg p q →
        WindowGiven (readyHeld s.station.power.requests) (s.station.line.queue.length < 8) t) ∧
      (¬CountsLess s.station.cfg p q → WindowGiven s.station.power.requests (s.station.line.queue.length < 8) t) := by
  have running := running_of_active active
  rcases kind with ⟨fields, rfl⟩ | ⟨fields, rfl⟩ | ⟨cls, rfl⟩ | ⟨cls, rank, value, scale, rfl, none_open⟩
  · refine gives_of_event _ rfl ?_
    dsimp only
    rw [show declareOk src dst fields = true from valid, takeFrame_view running other id rfl]
    split
    · exact finish_windowGiven_of_frame (apply := applyDeclare fields) _ active distinct known (fun _ => rfl)
        (scheduleDeclare_kept _) (scheduleDeclare_state _)
    · exact finish_windowGiven_of_frame (apply := applyDeclare fields) _ active distinct known (fun _ => rfl) (.refl _ _) rfl
  · refine gives_of_event _ rfl ?_
    rw [show heartbeatOk src dst fields = true from valid, takeFrame_view running other id rfl]
    exact finish_windowGiven_of_frame (apply := applyHeartbeat fields) _ active distinct known (fun _ => rfl) (.refl _ _) rfl
  · refine gives_of_event _ rfl ?_
    rw [show releaseOk src dst cls = true from valid, takeFrame_view running other id rfl]
    exact finish_windowGiven_of_frame _ active distinct known (applySlot_address cls 0) (.refl _ _) rfl
  · refine gives_of_event _ rfl ?_
    rw [show claimOk src dst cls rank value scale = true from valid,
      takeFrame_view running other _ (recordClaim_of_no_window none_open src cls rank)]
    exact finish_windowGiven_of_frame _ active distinct known (applySlot_address cls _) (.refl _ _) rfl

theorem peerIn_of_findPeer {s : Station} {address : Nat} (found : s.findPeer address = some p) :
    s.peerIn address p.presence = some p := by
  obtain ⟨here, before, after, split, others⟩ := List.find?_eq_some_iff_append.mp found
  refine List.find?_eq_some_iff_append.mpr ⟨by simpa using here, before, after, split, fun q inside => ?_⟩
  have unmet := others q inside
  simp_all

theorem advance_findPeer {s : Station} {address : Nat} (running : s.running = true) (d : Nat)
    (found : s.findPeer address = some p) : (s.advance d).findPeer address = some (p.advance d) := by
  have peers : (s.advance d).peers = s.peers.map (Peer.advance d) := by
    have awake : s.line.state ≠ .halted := fun halted => by simp [Station.running, LineState.running, halted] at running
    unfold Station.advance
    rw [if_neg awake, running]
    rfl
  rw [Station.findPeer, peers, List.find?_map]
  exact congrArg (Option.map (Peer.advance d)) found

/-- R158, R183: a peer GONE. -/
theorem peerGone_given (active : s.station.active = true) (found : s.station.findPeer p.address = some p)
    (silent : p.presence = .silent) (distinct : (s.station.power.requests.map fun q => q.cls).Nodup)
    (advanced : u = s.station.advanceTo 30000 p.age) :
    Gives (.peerGone p.address) s fun t => WindowGiven (readyHeld u.power.requests) (u.line.queue.length < 8) t := by
  have running := running_of_active active
  have aged : u.findPeer p.address = some (p.advance (30000 - p.age)) := by
    rw [advanced]
    exact advance_findPeer running _ found
  have gone : u.agePeer p.address .silent .gone =
      u.changePeer (p.advance (30000 - p.age)) { p.advance (30000 - p.age) with presence := .gone } := by
    have in_silence := peerIn_of_findPeer aged
    rw [show (p.advance (30000 - p.age)).presence = .silent from silent] at in_silence
    simp only [Station.agePeer, in_silence, Station.setPresence]
  have in_silence := peerIn_of_findPeer found
  rw [silent] at in_silence
  refine gives_of_event _ rfl ?_
  simp only [in_silence, expire, running, if_true]
  rw [show s.station.advanceTo Config.goneAge p.age = u from advanced.symm, gone]
  have active_u : u.active = true := by
    rw [advanced]
    exact (advance_active s.station _).trans active
  have raised := raise_kept (u.changePeer (p.advance (30000 - p.age))
    { p.advance (30000 - p.age) with presence := .gone }) (.peer p.address)
  have line := (line_of_kept (raised _ (by decide)) (raised _ (by decide))).trans (changePeer_line active_u _ _)
  refine (finish_windowGiven_of_change s.station active_u ?_ (raised .power (by decide)) (by rw [line]) (by rw [line])).1 ?_
  · rw [advanced]
    exact advance_distinct _ distinct
  · exact .inr (.inr (.inr (.inr (.inr ⟨silent, by simp⟩))))

/-- R158, R184: peers forgotten. -/
theorem forgetPeers_given (serves : s.station.serviceMode = true) (active : s.station.active = true)
    (absent : ∃ p ∈ s.station.peers, p.presence ≠ .present)
    (distinct : (s.station.power.requests.map fun q => q.cls).Nodup) :
    Gives .forgetPeers s fun t =>
      WindowGiven (readyHeld s.station.power.requests) (s.station.line.queue.length < 8) t := by
  refine gives_of_submit (c := .forgetPeers) serves rfl ?_
  have fewer : s.station.presentPeers.length < s.station.peers.length := by
    obtain ⟨p, inside, away⟩ := absent
    exact List.length_filter_lt_length_iff_exists.mpr ⟨p, inside, by simpa using away⟩
  have forgotten : s.station.serviceKey.submitted.forgetPeers =
      ({ s.station.serviceKey.submitted with peers := s.station.presentPeers } : Station).readyAll :=
    (if_pos fewer).trans (bankRoomMade_of_active (s := { s.station.serviceKey.submitted with
      peers := s.station.presentPeers }) active)
  have shown := showService_kept s.station.serviceKey.submitted.forgetPeers .done
  have line : (s.station.serviceKey.submitted.forgetPeers.showService .done).line = s.station.line := by
    rw [line_of_kept (shown _ (by decide)) (shown _ (by decide)), forgotten]
    rfl
  have power : (s.station.serviceKey.submitted.forgetPeers.showService .done).power.requests =
      readyHeld s.station.power.requests := by
    rw [show (s.station.serviceKey.submitted.forgetPeers.showService .done).power = _ from shown .power (by decide), forgotten]
    rfl
  exact finish_windowGiven_readied (w := s.station.serviceKey.submitted.forgetPeers.showService .done) _
    ((active_of_line line).trans active) distinct power (by rw [line])

/-- R155: a request that has waited long enough. -/
def starving (q : Request) : Request := { q with starved := true }

/-- R155: a check leaves the request of a class starved. -/
theorem finish_keeps_starved {w : Station} (o : Station) (outside : w.line.state.isIsolated = false)
    (starves : ∃ b, w.requestOf cls = some b ∧ b.starved = true) :
    ∃ b, (finish o w).requestOf cls = some b ∧ b.starved = true := by
  refine finish_keeps (Q := fun p => ∃ b, p.requests.find? (fun x => x.cls = cls) = some b ∧ b.starved = true) o outside
    (fun s q active _ _ starves => ?_) starves
  obtain ⟨b, first, starved⟩ := starves
  obtain ⟨g, marks, power⟩ := checkActive_power active q
  rw [power, setRequest_power]
  rcases find?_updateFirst (fun x => decide (x.cls = q.cls)) (q := fun x : Request => decide (x.cls = cls)) (f := g)
    (fun x => by rw [(marks x).1]) first with kept | changed
  · exact ⟨b, kept, starved⟩
  · exact ⟨g b, changed, (marks b).2.trans starved⟩

/-- R155: STARVED. -/
theorem starved_given (waits : s.station.requestOf cls = some r) (checked : r.checked = true) (fed : r.starved = false)
    (outside : s.station.line.state.isIsolated = false) (advanced : u = s.station.advanceTo 300000 r.waited) :
    Gives (.starved cls) s fun t =>
      ((t.requestOf cls).map fun q => q.starved) = some true ∧ KeepsBut [.power, .lineQueue] u t := by
  have set_off : Gives (.starved cls) s fun t => t = finish s.station (u.setRequest cls starving) := by
    refine gives_of_event _ rfl ?_
    simp only [waits, expire, checked, fed, Bool.not_false, Bool.and_self, if_true]
    rw [advanced]
    rfl
  refine gives_mono set_off fun t same => ?_
  rw [same]
  have outside_u : (u.setRequest cls starving).line.state.isIsolated = false := by
    rw [setRequest_line, advanced, Station.advanceTo, advance_isIsolated, outside]
  refine ⟨?_, keepsBut_of_claims s.station ((power_kept _ _).mono (by simp)) outside_u⟩
  obtain ⟨q, found, -⟩ := advance_requestOf (300000 - r.waited) waits
  rw [← Station.advanceTo, ← advanced] at found
  obtain ⟨b, first, starved⟩ := finish_keeps_starved s.station outside_u
    ⟨starving q, (find?_updateFirst_self (f := starving) (fun _ => rfl) _).trans (congrArg (Option.map starving) found), rfl⟩
  rw [first, Option.map_some, starved]

/-- R161, R166: the end of a backoff in ISOLATED, of the only request that waits. -/
theorem backoff_isolated (only : s.station.power.requests = [r]) (phase : r.phase = .backoff)
    (isolated : s.station.line.state.isIsolated = true)
    (advanced : u = s.station.advanceTo (50 + 100 * s.station.cfg.address) r.timer) :
    Gives (.backoffTimerExpiry r.cls) s fun t =>
      (u.ownSum + watts r.power ≤ allowanceInForce u.cfg → LoadGranted u r t ∧ t.power.requests = []) ∧
      (allowanceInForce u.cfg < u.ownSum + watts r.power →
        (t.power.requests.map fun q => (q.cls, q.power, q.phase, q.checked)) = [(r.cls, r.power, .held, true)] ∧
        KeepsBut [.power] u t) := by
  refine backoffTimerExpiry_gives (by simp [Station.requestOf, only]) phase advanced ?_
  obtain ⟨f, ages, power⟩ := advance_power s.station (50 + 100 * s.station.cfg.address - r.timer)
  rw [← Station.advanceTo, ← advanced, only, List.map_singleton] at power
  have waiting : (u.setRequest r.cls readied).power.requests = [readied (f r)] := by
    rw [← ages.cls r]
    exact setRequest_single (by rw [power]) readied
  have isolated_w : (u.setRequest r.cls readied).line.state.isIsolated = true := by
    rw [setRequest_line, advanced, Station.advanceTo, advance_isIsolated, isolated]
  have watts_eq : watts (readied (f r)).power = watts r.power := congrArg watts (ages.power r)
  refine ⟨fun fits => ?_, fun above => ?_⟩
  · obtain ⟨granted, none_left⟩ := finish_isolated_granted s.station isolated_w waiting rfl (by rw [watts_eq]; exact fits)
    exact ⟨granted.congr rfl rfl (ages.cls r) (ages.power r), none_left⟩
  · obtain ⟨left, kept⟩ := finish_isolated_held (w := u.setRequest r.cls readied) s.station (power_kept _ _)
      isolated_w waiting rfl (by rw [watts_eq]; exact above)
    refine ⟨?_, kept⟩
    rw [left, List.map_singleton, ← ages.cls r, ← ages.power r]
    rfl

end Commands

/-- Settles O40, clause by clause. -/
theorem backoffAndStarvation : Obligations.BackoffAndStarvation := by
  refine ⟨fun _ _ _ _ => backoff_readied, ?isolated, fun _ _ _ _ => backoff_given, fun _ _ => listen_given, ?frame,
    fun _ _ _ => peerGone_given, fun _ => forgetPeers_given, ?inrush, fun _ _ _ _ => starved_given⟩
  case isolated =>
    intro s u r only phase isolated advanced
    refine gives_mono (backoff_isolated only phase isolated advanced) fun t ⟨granted, held⟩ => ⟨fun fits => ?_, held⟩
    obtain ⟨⟨motor, compressor, heater⟩, none_left⟩ := granted fits
    exact ⟨motor, compressor, heater, none_left⟩
  case frame =>
    exact fun c s src dst p _ valid active _ other kind distinct known =>
      frame_given valid active other kind distinct known
  case inrush =>
    exact fun s u f active runs inrush distinct advanced standing within _ =>
      inrush_given active runs inrush distinct advanced standing within

end Sys2Proof.Proofs

/-! SUPPORT. Events of the bank line in which no load is granted, frames that are only counted (O34), and peers that age
(O38). -/

namespace Sys2Proof.Proofs

open Sys2Proof.Machine Sys2Proof.Laws

section Events

/-! ### The end of an event that leaves the loads as they were -/

variable {a b : Station} {l : List Region}

/-- An event whose body leaves the loads to be checked or not as before keeps what its body keeps, the line's state being
changed or not. -/
theorem keepsBut_of_loadsSettled (o : Station) (h : Kept l a b) (loads : b.loadsSettled = a.loadsSettled) :
    KeepsBut l a (finish o b) := by
  intro r hr
  have kept := h r hr
  have ended := finish_same o b r
  cases r with
  | vend =>
    have vend_eq : b.vend = a.vend := kept
    simp only [Region.same, Station.vendIn, loads, vend_eq] at ended ⊢
    exact ended
  | cooling =>
    have cooling_eq : b.cooling = a.cooling := kept
    simp only [Region.same, loads, cooling_eq] at ended ⊢
    exact ended
  | power => exact fun settled => (ended (loads.trans settled)).trans kept
  | lineQueue =>
    obtain ⟨queue_eq, overflow_eq⟩ := Prod.mk.inj kept
    intro settled
    obtain ⟨queue_ended, overflow_ended⟩ := ended (loads.trans settled)
    exact ⟨queue_ended.trans queue_eq, overflow_ended.trans overflow_eq⟩
  | _ => exact finish_of_kept o h _ hr (by simp)

/-- The loads are to be checked or not by the waiting list and the line's state alone. -/
theorem loadsSettled_congr (power : b.power = a.power) (state : b.line.state = a.line.state) :
    b.loadsSettled = a.loadsSettled := by
  simp [Station.loadsSettled, Station.active, power, state]

/-- An event in which nothing has happened. -/
theorem keepsBut_nothing (s : Station) (l : List Region) : KeepsBut l s (finish s s) :=
  keepsBut_of_loadsSettled s (.refl l s) rfl

end Events

section Counted

/-! ### Bits and frames that are not valid (R169, R170) -/

variable {s : Station}

theorem countBadFrame_kept (s : Station) : Kept [.counters] s s.countBadFrame := audit_kept s _ rfl

theorem badFrames_of_owned {a b : Audit} (h : a.owned = b.owned) : a.badFrames = b.badFrames :=
  show a.owned.badFrames = b.owned.badFrames from congrArg Audit.badFrames h

/-- R170: a frame counted, and nothing else done. -/
theorem finish_countBadFrame (s : Station) :
    (finish s s.countBadFrame).audit.badFrames = rise32 s.audit.badFrames 1 ∧
      KeepsBut [.counters] s (finish s s.countBadFrame) ∧
      { (finish s s.countBadFrame).audit.owned with badFrames := 0 } = { s.audit.owned with badFrames := 0 } := by
  have owned_eq := finish_owned s s.countBadFrame
  exact ⟨badFrames_of_owned owned_eq, keepsBut_of_kept s (countBadFrame_kept s) (by decide),
    congrArg (fun a : Audit => { a with badFrames := 0 }) owned_eq⟩

theorem takeFrame_invalid (running : s.running = true) (src dst : Nat) (apply : Peer → Peer)
    (windowed handoff : Station → Station) :
    s.takeFrame false src dst apply windowed handoff = s.countBadFrame := by
  simp [Station.takeFrame, running]

theorem takeQuery_invalid (running : s.running = true) {src dst block : Nat} (invalid : auditQueryOk src dst block = false) :
    s.takeQuery src dst block = s.countBadFrame := by
  simp [Station.takeQuery, running, invalid, Station.countBadFrame]

/-- R170: what a frame command with a field out of its range does. -/
theorem exec_invalidFrame {c : Instr} {s : State} (frame : (frameRoute c).isSome = true) (invalid : frameValid c = false)
    (running : s.station.running = true) :
    exec c s = .next { s with station := finish s.station s.station.countBadFrame } := by
  have taken : ∀ (ok : Bool) (src dst : Nat) (apply : Peer → Peer) (windowed handoff : Station → Station), ok = false →
      happen s (fun o => o.takeFrame ok src dst apply windowed handoff) =
        .next { s with station := finish s.station s.station.countBadFrame } := by
    rintro _ src dst apply windowed handoff rfl
    simp only [happen, event, takeFrame_invalid running]
  cases c with
  | declare src dst fields =>
    have bad : declareOk src dst fields = false := invalid
    simp only [exec, execDeclare, happen, event, bad, takeFrame_invalid running, Station.declareAnswered, Bool.and_false,
      Bool.false_and, Bool.false_eq_true, if_false]
  | auditQuery src dst block =>
    simp only [exec, execAuditQuery, happen, event, takeQuery_invalid running invalid]
  | auditQueryJournal src dst block =>
    simp only [exec, execAuditQueryJournal, happen, event, takeQuery_invalid running invalid]
  | offer src dst tag tray column => exact taken _ _ _ _ _ _ invalid
  | commit src dst tag price => exact taken _ _ _ _ _ _ invalid
  | withdraw src dst tag => exact taken _ _ _ _ _ _ invalid
  | accept src dst tag price queuePos => exact taken _ _ _ _ _ _ invalid
  | refuse src dst tag reason => exact taken _ _ _ _ _ _ invalid
  | result src dst tag outcome drops => exact taken _ _ _ _ _ _ invalid
  | claim src dst cls rank value scale => exact taken _ _ _ _ _ _ invalid
  | release src dst cls => exact taken _ _ _ _ _ _ invalid
  | heartbeat src dst fields => exact taken _ _ _ _ _ _ invalid
  | audit src dst block content => exact taken _ _ _ _ _ _ invalid
  | _ => cases frame

end Counted

/-- Settles O34: an invalid frame and bits that are none are one and the same event. -/
theorem badFramesAreOnlyCounted : Obligations.BadFramesAreOnlyCounted := by
  refine ⟨fun c s bad running => ?counted, fun bits s valid => ?ignored⟩
  case counted =>
    rcases bad with ⟨bits, rfl, unread⟩ | ⟨frame, invalid⟩
    · refine gives_of_event _ rfl ?_
      simp only [running, unread, decide_true, Bool.and_self, if_true]
      exact finish_countBadFrame s.station
    · exact ⟨_, exec_invalidFrame frame invalid running, rfl, rfl, rfl, finish_countBadFrame s.station⟩
  case ignored =>
    refine gives_of_event _ rfl ?_
    simp only [valid, decide_false, Bool.and_false, Bool.false_eq_true, if_false]
    exact keepsBut_nothing s.station []

section Ages

/-! ### Presence by age (R183) -/

variable {u w : Station} {p : Peer}

/-- R183: a peer of the view in a presence takes the next one. -/
theorem agePeer_of_found {before : Presence} (found : u.findPeer p.address = some p) (here : p.presence = before)
    (after : Presence) : u.agePeer p.address before after = u.changePeer p { p with presence := after } := by
  have seen := peerIn_of_findPeer found
  rw [here] at seen
  simp only [Station.agePeer, seen, Station.setPresence]

theorem changePeer_peers_eq (u : Station) (p q : Peer) : (u.changePeer p q).peers = putPeer q u.peers := by
  unfold Station.changePeer
  dsimp only
  split
  · exact (bankRoomMade_kept _).mono (m := [.power, .lineQueue]) (by simp) .peers (by decide)
  · rfl

/-- The entry that an event has changed, as a lookup reads it. -/
theorem findPeer_finish_changed (o : Station) {q : Peer} (kept : Region.kept .peers (u.changePeer p q) w) :
    (finish o w).findPeer q.address = some q := by
  have peers_eq : (finish o w).peers = putPeer q u.peers :=
    (finish_same o w .peers).trans ((show w.peers = _ from kept).trans (changePeer_peers_eq u p q))
  rw [Station.findPeer, peers_eq]
  exact findPeer_putPeer u.peers q

/-- R183: what a peer's change of presence leaves, once the clock stands at its age. -/
theorem finish_aged (o : Station) {before after : Presence} (found : u.findPeer p.address = some p) (here : p.presence = before)
    (kept : Kept [.latch] (u.agePeer p.address before after) w) :
    (finish o w).findPeer p.address = (u.findPeer p.address).map fun q => { q with presence := after } := by
  rw [agePeer_of_found found here] at kept
  rw [found]
  exact findPeer_finish_changed o (q := { p with presence := after }) (kept .peers (by decide))

/-- R183: the events PEER_SILENT and PEER_GONE find the entry of a peer in the presence before. -/
theorem peerIn_of_presence {before : Presence} (found : u.findPeer p.address = some p) (here : p.presence = before) :
    u.peerIn p.address before = some p := here ▸ peerIn_of_findPeer found

theorem agePeer_kept (s : Station) (address : Nat) (before after : Presence) :
    Kept [.peers, .power, .lineQueue] s (s.agePeer address before after) := by
  unfold Station.agePeer
  split
  · exact changePeer_kept s _ _
  · exact .refl _ s

theorem noticeTaken_of_kept {t : Station} {n : Notice} (before : Region.kept .latch u w) (taken : NoticeTaken w t n) :
    NoticeTaken u t n := by
  obtain ⟨active_eq, rest⟩ := Prod.mk.inj before
  obtain ⟨pending_eq, dropped_eq⟩ := Prod.mk.inj rest
  rwa [NoticeTaken, active_eq, pending_eq, dropped_eq] at taken

/-- R188: the end of an event leaves the latch as a notice has left it. -/
theorem noticeTaken_finish (o : Station) {n : Notice} (taken : NoticeTaken u w n) : NoticeTaken u (finish o w) n := by
  obtain ⟨active_eq, pending_eq, dropped_eq⟩ := finish_same o w .latch
  rwa [NoticeTaken, active_eq, pending_eq, dropped_eq]

end Ages

/-- Settles O38: in both clauses the clock stands at the peer's age, and its entry is the one that changes. -/
theorem peersAgeToSilentAndGone : Obligations.PeersAgeToSilentAndGone := by
  refine ⟨fun s u p running found present advanced => ?silent, fun s u p running found silent advanced => ?gone⟩
  case silent =>
    have aged : u.findPeer p.address = some (p.advance (3500 - p.age)) := advanced ▸ advance_findPeer running _ found
    refine gives_of_event _ rfl ?_
    simp only [peerIn_of_presence found present, expire, running, if_true]
    rw [show s.station.advanceTo Config.silentAge p.age = u from advanced.symm]
    exact ⟨finish_aged (p := p.advance (3500 - p.age)) _ aged present (.refl _ _),
      keepsBut_of_kept _ ((agePeer_kept u _ _ _).mono (by simp)) (by simp)⟩
  case gone =>
    have aged : u.findPeer p.address = some (p.advance (30000 - p.age)) := advanced ▸ advance_findPeer running _ found
    refine gives_of_event _ rfl ?_
    simp only [peerIn_of_presence found silent, expire, running, if_true]
    rw [show s.station.advanceTo Config.goneAge p.age = u from advanced.symm]
    have changed := agePeer_kept u p.address .silent .gone
    have raised := raise_kept (u.agePeer p.address .silent .gone) (.peer p.address)
    refine ⟨finish_aged (p := p.advance (30000 - p.age)) _ aged silent raised, ?_,
      keepsBut_of_kept _ ((changed.mono (by simp)).trans (raised.mono (by simp))) (by simp)⟩
    exact noticeTaken_finish _ (noticeTaken_of_kept (changed .latch (by decide)) (raise_noticeTaken _ _))

end Sys2Proof.Proofs

/-! SUPPORT. Frames as bytes and bits (R169 to R171), for O59: the check word, the layout of a frame, and the payload of each
kind read back. -/

namespace Sys2Proof.Proofs

open Sys2Proof.Machine Sys2Proof.Laws

section Bytes

/-! ### Bytes and figures read back -/

theorem byteOf_toNat {n : Nat} (h : n ≤ 255) : (byteOf n).toNat = n := by
  rw [byteOf, BitVec.toNat_ofNat]
  omega

@[simp] theorem byteAt_zero (b : Byte) (bytes : List Byte) : byteAt (b :: bytes) 0 = b.toNat := rfl

@[simp] theorem byteAt_succ (b : Byte) (bytes : List Byte) (i : Nat) : byteAt (b :: bytes) (i + 1) = byteAt bytes i := rfl

theorem byteAt_append_right (xs ys : List Byte) (i : Nat) : byteAt (xs ++ ys) (xs.length + i) = byteAt ys i := by
  rw [byteAt, byteAt, List.getD_eq_getElem?_getD, List.getD_eq_getElem?_getD,
    List.getElem?_append_right (Nat.le_add_right _ _), Nat.add_sub_cancel_left]

/-- The two bytes of a 16-bit figure, wherever they stand. -/
theorem wordAt_twoBytes (xs : List Byte) {n : Nat} (h : n < 65536) (ys : List Byte) :
    wordAt (xs ++ (twoBytes n ++ ys)) xs.length = n := by
  have high := byteAt_append_right xs (twoBytes n ++ ys) 0
  have low := byteAt_append_right xs (twoBytes n ++ ys) 1
  rw [Nat.add_zero] at high
  rw [wordAt, high, low]
  simp only [twoBytes, List.cons_append, byteAt_zero, byteAt_succ, BitVec.toNat_ofNat]
  omega

/-! ### The check word (R170) -/

theorem crcShift_lt (crc : Nat) : crcShift crc < 65536 := by
  unfold crcShift
  split <;> exact Nat.lt_succ_of_le Nat.and_le_right

theorem crc16_lt (bytes : List Byte) : crc16 bytes < 65536 := by
  have shifted : ∀ (bytes : List Byte) (crc : Nat), crc < 65536 → bytes.foldl crcByte crc < 65536 := by
    intro bytes
    induction bytes with
    | nil => exact fun _ small => small
    | cons b rest ih => exact fun crc _ => ih (crcByte crc b) (crcShift_lt _)
  exact shifted bytes _ (by decide)

/-! ### The layout of a frame (R170) -/

/-- R170: a frame with its check word is read by its kind, whatever its payload holds. -/
theorem readFrame_withCheck {kind src dst : Nat} {payload : List Byte} (hk : kind ≤ 15) (hs : src ≤ 15) (hd : dst ≤ 15)
    (length : lengthOk kind payload.length = true) (short : payload.length ≤ 15) :
    readFrame (withCheck (frameHead kind src dst payload)) = (frameCommand kind src dst payload).filter Instr.wellFormed := by
  have head : (byteOf (16 * kind + src)).toNat = 16 * kind + src := byteOf_toNat (by omega)
  have route : (byteOf (16 * dst + payload.length)).toNat = 16 * dst + payload.length := byteOf_toNat (by omega)
  have kind_eq : (16 * kind + src) / 16 = kind := by omega
  have src_eq : (16 * kind + src) % 16 = src := by omega
  have dst_eq : (16 * dst + payload.length) / 16 = dst := by omega
  have length_eq : (16 * dst + payload.length) % 16 = payload.length := by omega
  have check : wordAt (withCheck (frameHead kind src dst payload)) (payload.length + 2) =
      crc16 (frameHead kind src dst payload) := by
    have word := wordAt_twoBytes (frameHead kind src dst payload) (crc16_lt (frameHead kind src dst payload)) []
    rwa [List.append_nil] at word
  have body : (withCheck (frameHead kind src dst payload)).take (payload.length + 2) = frameHead kind src dst payload :=
    List.take_left' (by simp [frameHead])
  have total : (withCheck (frameHead kind src dst payload)).length = payload.length + 4 := by
    simp [withCheck, frameHead, twoBytes]
  have first : byteAt (withCheck (frameHead kind src dst payload)) 0 = 16 * kind + src := head
  have second : byteAt (withCheck (frameHead kind src dst payload)) 1 = 16 * dst + payload.length := route
  have rest : ((withCheck (frameHead kind src dst payload)).drop 2).take payload.length = payload := by
    simp [withCheck, frameHead]
  simp only [readFrame, first, second, kind_eq, src_eq, dst_eq, length_eq, check, body, total, rest, length,
    decide_true, Bool.and_self, if_true]

end Bytes

section Payloads

/-! ### The payloads (R171) -/

variable {address dst : Nat}

/-- R170: the bytes of a frame of the station are read back as its command, if its payload is of its kind's length and spells
the command by the reading of its kind. -/
theorem readFrame_of_payload {f : Frame} (ha : address ≤ 15) (hd : f.dst ≤ 15)
    (valid : (commandOf address f).wellFormed = true)
    (length : lengthOk (bodyKind f.body) (bodyPayload f.body).length = true)
    (short : (bodyPayload f.body).length ≤ 15)
    (spelled : frameCommand (bodyKind f.body) address f.dst (bodyPayload f.body) = some (commandOf address f)) :
    readFrame (frameBytes address f) = some (commandOf address f) := by
  have kind_le : bodyKind f.body ≤ 15 := by cases f.body <;> simp [bodyKind]
  rw [frameBytes, readFrame_withCheck kind_le ha hd length short, spelled]
  simp [valid]

/-- The bytes of a figure that can be written. -/
theorem figBytes_toNat {f : Fig} (ok : figOk f = true) :
    (byteOf f.value).toNat = f.value ∧ (byteOf f.scale).toNat = f.scale := by
  simp only [figOk, Bool.and_eq_true, decide_eq_true_eq] at ok
  exact ⟨byteOf_toNat ok.1, byteOf_toNat (by omega)⟩

/-- A price as its two bytes. -/
theorem price_word {price : Nat} (ok : priceOk price = true) :
    256 * (BitVec.ofNat 8 (price / 256)).toNat + (BitVec.ofNat 8 price).toNat = price := by
  simp only [priceOk, Bool.and_eq_true, decide_eq_true_eq] at ok
  simp only [BitVec.toNat_ofNat]
  omega

/-- R171: the payload of a frame body whose fields lie in their ranges spells its command. -/
theorem frameCommand_bodyPayload {f : Frame} (valid : (commandOf address f).wellFormed = true) :
    frameCommand (bodyKind f.body) address f.dst (bodyPayload f.body) = some (commandOf address f) := by
  obtain ⟨dst, body, opens⟩ := f
  cases body with
  | claim cls rank power =>
    simp only [commandOf, Instr.wellFormed, claimOk, Bool.and_eq_true, decide_eq_true_eq] at valid
    obtain ⟨⟨⟨-, cls_le⟩, rank_le⟩, power_ok⟩ := valid
    have cls_eq := byteOf_toNat (n := classCode cls) (by omega)
    have rank_eq := byteOf_toNat (n := rank) (by omega)
    simp [frameCommand, bodyKind, bodyPayload, figBytes, commandOf, cls_eq, rank_eq, figBytes_toNat power_ok]
  | release cls =>
    simp only [commandOf, Instr.wellFormed, releaseOk, Bool.and_eq_true, decide_eq_true_eq] at valid
    have cls_eq := byteOf_toNat (n := classCode cls) (by omega)
    simp [frameCommand, bodyKind, bodyPayload, commandOf, cls_eq]
  | result tag outcome drops =>
    simp only [commandOf, Instr.wellFormed, resultOk, tagOk, Bool.and_eq_true, decide_eq_true_eq] at valid
    obtain ⟨⟨⟨-, tag_le⟩, outcome_le⟩, drops_le⟩ := valid
    have tag_eq := byteOf_toNat (n := tag) (by omega)
    have outcome_eq := byteOf_toNat (n := outcomeCode outcome) (by omega)
    have drops_eq := byteOf_toNat (n := drops) (by omega)
    simp [frameCommand, bodyKind, bodyPayload, commandOf, tag_eq, outcome_eq, drops_eq]
  | commit tag price =>
    simp only [commandOf, Instr.wellFormed, commitOk, tagOk, Bool.and_eq_true, decide_eq_true_eq] at valid
    obtain ⟨⟨-, tag_le⟩, price_ok⟩ := valid
    have tag_eq := byteOf_toNat (n := tag) (by omega)
    have price_eq := price_word price_ok
    simp only [frameCommand, bodyKind, bodyPayload, commandOf, wordAt, twoBytes, byteAt_zero, byteAt_succ, tag_eq, price_eq]
  | accept tag price queuePos =>
    simp only [commandOf, Instr.wellFormed, acceptOk, tagOk, Bool.and_eq_true, decide_eq_true_eq] at valid
    obtain ⟨⟨⟨⟨-, tag_le⟩, price_ok⟩, -⟩, pos_le⟩ := valid
    have tag_eq := byteOf_toNat (n := tag) (by omega)
    have pos_eq := byteOf_toNat (n := queuePos) (by omega)
    have price_eq := price_word price_ok
    simp only [frameCommand, bodyKind, bodyPayload, commandOf, wordAt, twoBytes, List.cons_append, List.nil_append,
      byteAt_zero, byteAt_succ, tag_eq, price_eq, pos_eq]
  | refuse tag reason =>
    simp only [commandOf, Instr.wellFormed, refuseOk, tagOk, Bool.and_eq_true, decide_eq_true_eq] at valid
    obtain ⟨⟨⟨-, tag_le⟩, -⟩, reason_le⟩ := valid
    have tag_eq := byteOf_toNat (n := tag) (by omega)
    have reason_eq := byteOf_toNat (n := reasonCode reason) (by omega)
    simp [frameCommand, bodyKind, bodyPayload, commandOf, tag_eq, reason_eq]
  | offer tag tray column =>
    simp only [commandOf, Instr.wellFormed, offerOk, tagOk, Bool.and_eq_true, decide_eq_true_eq] at valid
    obtain ⟨⟨⟨-, tag_le⟩, tray_le⟩, column_le⟩ := valid
    have tag_eq := byteOf_toNat (n := tag) (by omega)
    simp [frameCommand, bodyKind, bodyPayload, commandOf, tag_eq, byteOf_toNat tray_le, byteOf_toNat column_le]
  | withdraw tag =>
    simp only [commandOf, Instr.wellFormed, withdrawOk, tagOk, Bool.and_eq_true, decide_eq_true_eq] at valid
    have tag_eq := byteOf_toNat (n := tag) (by omega)
    simp [frameCommand, bodyKind, bodyPayload, commandOf, tag_eq]
  | declare fields =>
    simp only [commandOf, Instr.wellFormed, declareOk, Bool.and_eq_true, decide_eq_true_eq] at valid
    obtain ⟨⟨⟨⟨⟨⟨-, role_le⟩, letter_le⟩, max_ok⟩, allowance_ok⟩, base_ok⟩, map_le⟩ := valid
    have role_eq := byteOf_toNat (n := fields.role) (by omega)
    have letter_eq := byteOf_toNat (n := fields.letter) (by omega)
    have map_eq := byteOf_toNat (n := fields.trayMap) (by omega)
    simp [frameCommand, bodyKind, bodyPayload, figBytes, commandOf, declareAt, figAt, role_eq, letter_eq, map_eq,
      figBytes_toNat max_ok, figBytes_toNat allowance_ok, figBytes_toNat base_ok]
  | heartbeat fields =>
    simp only [commandOf, Instr.wellFormed, heartbeatOk, Bool.and_eq_true, decide_eq_true_eq] at valid
    obtain ⟨⟨⟨⟨⟨⟨⟨⟨⟨⟨-, -⟩, state_le⟩, level_le⟩, flags_le⟩, depth_le⟩, base_ok⟩, motor_ok⟩, compressor_ok⟩, heater_ok⟩,
      attention_le⟩ := valid
    have codes_eq := byteOf_toNat (n := 16 * fields.lineState + fields.faultLevel) (by omega)
    have state_eq : (16 * fields.lineState + fields.faultLevel) / 16 = fields.lineState := by omega
    have level_eq : (16 * fields.lineState + fields.faultLevel) % 16 = fields.faultLevel := by omega
    have flags_eq := byteOf_toNat (n := fields.flags) (by omega)
    have depth_eq := byteOf_toNat (n := fields.depth) (by omega)
    have attention_eq := byteOf_toNat (n := fields.attention) (by omega)
    simp only [frameCommand, bodyKind, bodyPayload, figBytes, commandOf, heartbeatAt, figAt, List.cons_append,
      List.nil_append, byteAt_zero, byteAt_succ, codes_eq, state_eq, level_eq, flags_eq, depth_eq, attention_eq,
      figBytes_toNat base_ok, figBytes_toNat motor_ok, figBytes_toNat compressor_ok, figBytes_toNat heater_ok]
  | audit block content =>
    simp only [commandOf, Instr.wellFormed, auditOk, Bool.and_eq_true, decide_eq_true_eq] at valid
    have block_eq := byteOf_toNat (n := block) (by omega)
    simp [frameCommand, bodyKind, bodyPayload, commandOf, block_eq]

/-- R171: the payload of a frame body has a length of its kind, and fits the route byte. -/
theorem lengthOk_bodyPayload {f : Frame} (valid : (commandOf address f).wellFormed = true) :
    lengthOk (bodyKind f.body) (bodyPayload f.body).length = true ∧ (bodyPayload f.body).length ≤ 15 := by
  obtain ⟨dst, body, opens⟩ := f
  cases body with
  | audit block content =>
    simp only [commandOf, Instr.wellFormed, auditOk, Bool.and_eq_true, decide_eq_true_eq] at valid
    have room : content.length + 1 ≤ 11 := by omega
    refine ⟨?_, le_trans room (by decide)⟩
    show (decide (1 ≤ content.length + 1) && decide (content.length + 1 ≤ 11)) = true
    simp [room]
  | _ => exact ⟨rfl, by simp [bodyPayload, figBytes, twoBytes]⟩

end Payloads

section Bits

/-! ### The bits (R169) -/

theorem bytesBits_length (bytes : List Byte) : (bytesBits bytes).length = 9 * bytes.length := by
  simp [bytesBits, byteBits, List.length_flatMap, Nat.mul_comm]

/-- R169: the bits of a frame are read as its bytes are. -/
theorem readBits_frameBits (address : Nat) (f : Frame) :
    readBits (frameBits address f) = readFrame (frameBytes address f) := by
  rw [frameBits, readBits, readBytes_bytesBits]
  rfl

end Bits

/-- Settles O59: a frame's payload spells its command, and the layout and the bits only carry it. -/
theorem frameBytesReadBack : Obligations.FrameBytesReadBack := by
  intro address f _ ha hd valid
  obtain ⟨length, short⟩ := lengthOk_bodyPayload valid
  have read := readFrame_of_payload (by omega) hd valid length short (frameCommand_bodyPayload valid)
  refine ⟨read, (readBits_frameBits address f).trans read, ?_⟩
  rw [frameBits, List.length_cons, bytesBits_length, Nat.add_comm]

end Sys2Proof.Proofs

/-! SUPPORT. The answer to an AUDIT-QUERY (R73, R172, R195, R196), for O33. -/

namespace Sys2Proof.Proofs

open Sys2Proof.Machine Sys2Proof.Laws

section Queries

variable {s u w : Station}

/-- A query for this station or for all is answered in LISTEN and in ACTIVE: by the station as it is, if a service tool asks,
and by one that has heard the frame, if a peer does. -/
theorem takeQuery_answered {src dst block : Nat} (hu : u = if src = 0 then s else s.heardPeer)
    (valid : auditQueryOk src dst block = true) (hear : u.line.state = .listen ∨ u.active = true)
    (toUs : dst = u.cfg.address ∨ dst = 0) (other : src ≠ u.cfg.address) :
    ∃ w, s.takeQuery src dst block = w.answerQuery src block ∧ w.line = u.line ∧ Kept [.peers, .power, .latch] u w := by
  by_cases tool : src = 0
  · rw [if_pos tool] at hu
    subst tool hu
    have running : u.running = true := by
      rcases hear with listens | active
      · exact running_of_beats (by rw [listens]; rfl)
      · exact running_of_active active
    refine ⟨u, ?_, rfl, .refl _ u⟩
    simp [Station.takeQuery, running, valid, Station.handsOn, toUs, hear]
  · rw [if_neg tool] at hu
    subst hu
    have kept := heardFrom_kept s src
    have line_eq := heardFrom_line s src
    have cfg_eq : (heardFrom s src).cfg = s.heardPeer.cfg := cfg_of_kept (kept .setup (by decide))
    have own_eq : s.heardPeer.cfg = s.cfg := cfg_of_kept (heardPeer_kept s .setup (by decide))
    have handed : (heardFrom s src).handsOn
        (dst = (heardFrom s src).cfg.address || dst = 0) = true := by
      simp [Station.handsOn, cfg_eq, toUs, active_of_line line_eq, line_eq, hear]
    refine ⟨heardFrom s src, ?_, line_eq, kept⟩
    rw [own_eq] at other
    unfold Station.takeQuery
    simp only [running_of_heard hear, valid, tool, other, Bool.not_true, Bool.false_eq_true, if_false]
    exact if_pos handed

/-- A station whose audit counters, dropped notices apart, and journal are another's has its content of every block. -/
theorem auditContent_of_kept (h : Kept [.peers, .power, .latch] u w) (block : Nat) :
    w.auditContent block = { u with audit := { u.audit with dropped := w.audit.dropped } }.auditContent block := by
  have owned_eq : w.audit.owned = u.audit.owned := h .counters (by decide)
  have overflow_eq : w.audit.txOverflow = u.audit.txOverflow := congrArg Prod.snd (h .lineQueue (by decide))
  obtain ⟨journal_eq, overrun_eq⟩ := Prod.mk.inj (h .journal (by decide))
  have audit_eq : w.audit = { u.audit with dropped := w.audit.dropped } :=
    calc w.audit = { w.audit.owned with txOverflow := w.audit.txOverflow, dropped := w.audit.dropped } := rfl
      _ = { u.audit.owned with txOverflow := u.audit.txOverflow, dropped := w.audit.dropped } := by rw [owned_eq, overflow_eq]
  unfold Station.auditContent
  rw [journal_eq, overrun_eq, ← audit_eq]

/-- R188, R195: handing a frame and the end of the event leave the dropped notices. -/
theorem dropped_finish_hand (o w : Station) (dst : Nat) (body : FrameBody) :
    (finish o (w.hand dst body)).audit.dropped = w.audit.dropped :=
  (finish_same o _ .latch).2.2.trans (congrArg (fun p => p.2.2) (hand_kept w dst body .latch (by decide)))

end Queries

/-- Settles O33: who asks decides which station answers, and hearing a peer leaves the audit image but the dropped notices. -/
theorem auditQueriesAreAnswered : Obligations.AuditQueriesAreAnswered := by
  intro c s u src dst block hu query valid hear toUs other
  have taken : exec c s = .next (event s fun o => o.takeQuery src dst block) := by
    rcases query with rfl | rfl <;> rfl
  obtain ⟨w, answered, line_eq, kept⟩ := takeQuery_answered hu valid hear toUs other
  refine gives_of_event _ taken ?_
  dsimp only
  have sent : Queued u (finish s.station (w.answerQuery src block)) src (.audit block (w.auditContent block)) :=
    queued_of_hand _ line_eq hear (.inr rfl) rfl
  rw [auditContent_of_kept kept, ← dropped_finish_hand s.station w src (.audit block (w.auditContent block))] at sent
  rw [answered]
  refine ⟨fun image => ?_, fun journal => ?_, ?_⟩
  · rwa [Station.auditContent, if_pos image] at sent
  · rwa [Station.auditContent, if_neg (by omega)] at sent
  · exact same_of_kept _ ((kept.mono (m := [.peers, .power, .latch, .lineQueue]) (by decide)).trans
      ((hand_kept w _ _).mono (by decide))) (by decide)

end Sys2Proof.Proofs

/-! SUPPORT. ISOLATED is entered (R164, R166, R167, R179): what the entry does, and what the admission of loads at the end of
the event keeps of it, together `EntersIsolated` (for O35, O36 and O37). -/

namespace Sys2Proof.Proofs

open Sys2Proof.Machine Sys2Proof.Laws

section Allowance

/-! ### The own loads of an isolated station -/

variable {s t u : Station} {cls : LoadClass}

/-- No request has its attempt out. -/
def Unclaimed (requests : List Request) : Prop := ∀ r ∈ requests, r.phase ≠ .sending ∧ r.phase ≠ .window

/-- R166, R167: no claim is out, and the own sum is within the allowance or nothing is left to be shed. -/
def WithinAllowance (s : Station) : Prop :=
  Unclaimed s.power.requests ∧
    (s.ownSum ≤ allowanceInForce s.cfg ∨ (s.power.heater = none ∧ s.power.compressor = none))

/-- Slots stand as they stood or have fallen, and no attempt is begun. -/
structure Lowers (s t : Station) : Prop where
  cfg : t.cfg = s.cfg
  slots : ∀ cls, t.power.slot cls = s.power.slot cls ∨ t.power.slot cls = none
  unclaimed : Unclaimed s.power.requests → Unclaimed t.power.requests

theorem Lowers.of_power (cfg : t.cfg = s.cfg) (power : t.power = s.power) : Lowers s t :=
  ⟨cfg, fun _ => .inl (by rw [power]), by rw [power]; exact id⟩

theorem Lowers.of_kept {l : List Region} (h : Kept l s t) (setup : Region.setup ∉ l) (power : Region.power ∉ l) : Lowers s t :=
  .of_power (cfg_of_kept (h .setup setup)) (h .power power)

theorem Lowers.trans (h : Lowers s t) (k : Lowers t u) : Lowers s u := by
  refine ⟨k.cfg.trans h.cfg, fun cls => ?_, k.unclaimed ∘ h.unclaimed⟩
  rcases k.slots cls with same | fallen
  · rw [same]
    exact h.slots cls
  · exact .inr fallen

theorem slotWatts_le {f g : Option Fig} (h : f = g ∨ f = none) : slotWatts f ≤ slotWatts g := by
  rcases h with rfl | rfl
  · exact le_rfl
  · exact Nat.zero_le _

theorem Lowers.ownSum_le (h : Lowers s t) : t.ownSum ≤ s.ownSum := by
  have motor := slotWatts_le (h.slots .vendMotor)
  have compressor := slotWatts_le (h.slots .compressor)
  have heater := slotWatts_le (h.slots .defrostHeater)
  simp only [Power.slot] at motor compressor heater
  simp only [Station.ownSum, h.cfg]
  omega

theorem Lowers.within (h : Lowers s t) (within : WithinAllowance s) : WithinAllowance t := by
  obtain ⟨unclaimed, fits | ⟨heater, compressor⟩⟩ := within
  · exact ⟨h.unclaimed unclaimed, .inl (h.cfg.symm ▸ h.ownSum_le.trans fits)⟩
  · refine ⟨h.unclaimed unclaimed, .inr ⟨?_, ?_⟩⟩
    · exact (h.slots .defrostHeater).elim (fun same => same.trans heater) id
    · exact (h.slots .compressor).elim (fun same => same.trans compressor) id

theorem setRequest_lowers (s : Station) (cls : LoadClass) {g : Request → Request}
    (hg : ∀ r, r.phase ≠ .sending ∧ r.phase ≠ .window → (g r).phase ≠ .sending ∧ (g r).phase ≠ .window) :
    Lowers s (s.setRequest cls g) := by
  refine ⟨rfl, fun _ => .inl rfl, fun unclaimed r inside => ?_⟩
  rcases mem_updateFirst inside with kept | ⟨q, before, -, rfl⟩
  · exact unclaimed r kept
  · exact hg q (unclaimed q before)

theorem readyHeld_unclaimed {requests : List Request} (h : Unclaimed requests) : Unclaimed (readyHeld requests) := by
  intro r inside
  obtain ⟨q, before, rfl⟩ := List.mem_map.mp inside
  split
  · exact ⟨nofun, nofun⟩
  · exact h q before

theorem readyAll_lowers (s : Station) : Lowers s s.readyAll := ⟨rfl, fun cls => .inl (by cases cls <;> rfl), readyHeld_unclaimed⟩

theorem roomMade_lowers (s : Station) : Lowers s s.roomMade := by
  unfold Station.roomMade
  split
  · exact readyAll_lowers s
  · exact .of_power rfl rfl

theorem clearSlot_lowers (s : Station) (cls : LoadClass) : Lowers s { s with power := s.power.setSlot cls none } := by
  refine ⟨rfl, fun other => ?_, by rw [setSlot_requests]; exact id⟩
  by_cases same : other = cls
  · subst same
    exact .inr (setSlot_slot_self _ _ _)
  · exact .inl (setSlot_slot_other _ _ _ _ same)

theorem releaseSlot_lowers (s : Station) (cls : LoadClass) : Lowers s (s.releaseSlot cls) := by
  have cleared := (clearSlot_lowers s cls).trans (roomMade_lowers _)
  unfold Station.releaseSlot
  split
  · exact .of_power rfl rfl
  · dsimp only
    split
    · exact cleared.trans (.of_kept (hand_kept _ _ _) (by decide) (by decide))
    · exact cleared

/-- R37, R134, R144: what a grant tells its requester starts a load, or releases its slot. -/
theorem handGrant_lowers (s : Station) (cls : LoadClass) : Lowers s (s.handGrant cls) := by
  cases cls with
  | vendMotor =>
    change Lowers s s.vendMotorGranted
    unfold Station.vendMotorGranted
    repeat' split
    · exact .of_kept (energise_kept s) (by decide) (by decide)
    · exact releaseSlot_lowers s _
    · exact releaseSlot_lowers s _
  | compressor =>
    change Lowers s s.compressorGranted
    unfold Station.compressorGranted
    split
    · exact .of_power rfl rfl
    · exact releaseSlot_lowers s _
  | defrostHeater =>
    change Lowers s s.heaterGranted
    unfold Station.heaterGranted
    split
    · exact .of_power rfl rfl
    · exact releaseSlot_lowers s _

/-- A slot adds its watts at most. -/
theorem ownSum_setSlot_le (s : Station) (cls : LoadClass) (power : Fig) :
    ({ s with power := s.power.setSlot cls (some power) }).ownSum ≤ s.ownSum + watts power := by
  cases cls <;> simp only [Station.ownSum, Power.setSlot, slotWatts] <;> omega

/-- R166: a grant of a load that fits. -/
theorem grant_within {r : Request} (fits : s.ownSum + watts r.power ≤ allowanceInForce s.cfg)
    (unclaimed : Unclaimed s.power.requests) : WithinAllowance (s.grant r) := by
  refine (handGrant_lowers _ _).within ⟨fun q inside => unclaimed q ?_, .inl ((ownSum_setSlot_le s _ _).trans fits)⟩
  have listed := (removeFirst_sublist _ _).subset inside
  rwa [setSlot_requests] at listed

theorem checkIsolated_within (r : Request) (within : WithinAllowance s) : WithinAllowance (s.checkIsolated r) := by
  have checked : WithinAllowance (s.setRequest r.cls Request.check) := 
    (setRequest_lowers s r.cls (g := Request.check) fun _ out => out).within within
  unfold Station.checkIsolated
  dsimp only
  split
  · exact grant_within ‹_› checked.1
  · exact (setRequest_lowers _ r.cls (g := Request.hold) fun _ _ => ⟨nofun, nofun⟩).within checked

theorem checkOne_within (isolated : s.line.state.isIsolated = true) (h : s.checkOne = some t) (within : WithinAllowance s) :
    WithinAllowance t := by
  obtain ⟨r, -, -, ⟨active, -⟩ | ⟨-, rfl⟩⟩ := checkOne_cases h
  · rw [isolated_not_active isolated] at active
    cases active
  · exact checkIsolated_within r within

theorem admitLoads_cfg (s : Station) : s.admitLoads.cfg = s.cfg := by
  obtain ⟨_, _, _, _, _, granted, -⟩ := admit_grants s
  rw [granted]

/-- R166: the admission of loads keeps an isolated station within its allowance. -/
theorem admitLoads_within (isolated : s.line.state.isIsolated = true) (within : WithinAllowance s) :
    WithinAllowance s.admitLoads :=
  (admitFor_induct (R := fun a b => a.line.state.isIsolated = true ∧ WithinAllowance a →
      b.line.state.isIsolated = true ∧ WithinAllowance b)
    (fun _ => id) (fun _ _ _ first later => later ∘ first)
    (fun _ _ step ⟨isolated, within⟩ =>
      ⟨by rw [(checkOne_admits step).state]; exact isolated, checkOne_within isolated step within⟩) 12 s ⟨isolated, within⟩).2

theorem finish_within (o : Station) (isolated : s.line.state.isIsolated = true) (within : WithinAllowance s) :
    WithinAllowance (finish o s) := by
  obtain ⟨lit, evaluated⟩ := evaluateIfChanged_shape s o
  have admitted : WithinAllowance (s.evaluateIfChanged o).admitLoads := by
    rw [evaluated]
    exact admitLoads_within (s := { s with exactLit := lit }) isolated within
  have cfg_eq : (finish o s).cfg = (s.evaluateIfChanged o).admitLoads.cfg := by
    rw [finish_cfg, admitLoads_cfg, evaluated]
  exact (Lowers.of_power cfg_eq (finish_power o s)).within admitted

end Allowance

section Entry

/-! ### The entry to ISOLATED -/

variable {s u w : Station} {cause : Cause}

theorem compressorShed_eq (s : Station) : s.compressorShed.power = s.power ∧ s.compressorShed.line = s.line ∧
    s.compressorShed.cooling.phase = (if s.cooling.compressor = .run then unpend s.cooling.phase else s.cooling.phase) := by
  unfold Station.compressorShed Station.enterRest
  split
  · exact ⟨rfl, rfl, rfl⟩
  · exact ⟨rfl, rfl, rfl⟩

theorem heaterShed_eq (shed : s.power.heater = none) :
    s.heaterShed.power = s.power ∧ s.heaterShed.line = s.line := by
  unfold Station.heaterShed
  split
  · rename_i heats
    have released : s.releaseSlot .defrostHeater = s := by simp [Station.releaseSlot, Power.slot, shed]
    simp [Station.terminateDefrost, heats, released, Station.setCooling]
  · exact ⟨rfl, rfl⟩

theorem setSlot_none_of_none {p : Power} {cls : LoadClass} (free : p.slot cls = none) : p.setSlot cls none = p := by
  cases cls <;> simp only [Power.slot] at free <;> simp only [Power.setSlot, ← free]

/-- R167: a slot is shed while the own sum is above the allowance in force. -/
def shedSlot (s : Station) (cls : LoadClass) : Power :=
  if allowanceInForce s.cfg < s.ownSum then s.power.setSlot cls none else s.power

theorem shedSlot_of_within (within : s.ownSum ≤ allowanceInForce s.cfg) (cls : LoadClass) : shedSlot s cls = s.power :=
  if_neg (Nat.not_lt.mpr within)

theorem shedHeater_eq (s : Station) : s.shedHeater.power = shedSlot s .defrostHeater ∧ s.shedHeater.line = s.line := by
  unfold Station.shedHeater shedSlot
  by_cases above : allowanceInForce s.cfg < s.ownSum
  · cases standing : s.power.heater with
    | none => simp [above, setSlot_none_of_none (cls := .defrostHeater) standing]
    | some f => simpa [above] using heaterShed_eq (s := { s with power := s.power.setSlot .defrostHeater none }) rfl
  · simp [above]

theorem shedCompressor_eq (s : Station) :
    s.shedCompressor.power = shedSlot s .compressor ∧ s.shedCompressor.line = s.line := by
  unfold Station.shedCompressor shedSlot
  by_cases above : allowanceInForce s.cfg < s.ownSum
  · cases standing : s.power.compressor with
    | none => simp [above, setSlot_none_of_none (cls := .compressor) standing]
    | some f =>
      obtain ⟨power_eq, line_eq, -⟩ := compressorShed_eq { s with power := s.power.setSlot .compressor none }
      simpa [above] using ⟨power_eq, line_eq⟩
  · simp [above]

/-- R167: one step of shedding brings the own sum within the allowance or takes its slot. -/
theorem shedSlot_lowers {t : Station} {cls : LoadClass} (cfg : t.cfg = s.cfg) (power : t.power = shedSlot s cls) :
    Lowers s t ∧ (t.ownSum ≤ allowanceInForce t.cfg ∨ t.power.slot cls = none) := by
  by_cases within : s.ownSum ≤ allowanceInForce s.cfg
  · rw [shedSlot_of_within within] at power
    have lowers := Lowers.of_power cfg power
    exact ⟨lowers, .inl (cfg.symm ▸ lowers.ownSum_le.trans within)⟩
  · rw [shedSlot, if_pos (Nat.lt_of_not_le within)] at power
    exact ⟨(clearSlot_lowers s cls).trans (.of_power cfg power), .inr (by rw [power, setSlot_slot_self])⟩

/-- R167: what is shed. -/
theorem shed_within (unclaimed : Unclaimed s.power.requests) : WithinAllowance s.shed := by
  have heater_cfg : s.shedHeater.cfg = s.cfg := cfg_of_kept (shedHeater_kept s _ (by decide))
  have compressor_cfg : s.shed.cfg = s.shedHeater.cfg := cfg_of_kept (shedCompressor_kept _ _ (by decide))
  obtain ⟨first, heater⟩ := shedSlot_lowers heater_cfg (shedHeater_eq s).1
  obtain ⟨second, compressor⟩ := shedSlot_lowers compressor_cfg (shedCompressor_eq s.shedHeater).1
  refine ⟨second.unclaimed (first.unclaimed unclaimed), ?_⟩
  rcases heater with within | fallen
  · exact .inl (compressor_cfg.symm ▸ second.ownSum_le.trans within)
  · refine compressor.imp_right fun shed => ⟨?_, shed⟩
    exact (second.slots .defrostHeater).elim (fun same => same.trans fallen) id

/-- R139: a compressor that the allowance reaches runs on. -/
theorem shed_compressor (within : s.ownSum - slotWatts s.power.heater ≤ allowanceInForce s.cfg) :
    s.shed.power.compressor = s.power.compressor := by
  have heater_cfg : s.shedHeater.cfg = s.cfg := cfg_of_kept (shedHeater_kept s _ (by decide))
  have fits : s.shedHeater.ownSum ≤ allowanceInForce s.shedHeater.cfg ∧
      s.shedHeater.power.compressor = s.power.compressor := by
    by_cases above : allowanceInForce s.cfg < s.ownSum
    · have power_eq : s.shedHeater.power = s.power.setSlot .defrostHeater none := (shedHeater_eq s).1.trans (if_pos above)
      refine ⟨?_, by rw [power_eq]; rfl⟩
      rw [Station.ownSum] at within
      simp only [Station.ownSum, heater_cfg, power_eq, Power.setSlot, slotWatts] at within ⊢
      omega
    · have power_eq : s.shedHeater.power = s.power := (shedHeater_eq s).1.trans (if_neg above)
      refine ⟨?_, by rw [power_eq]⟩
      rw [Station.ownSum, heater_cfg, power_eq]
      exact Nat.not_lt.mp above
  have power_eq : s.shed.power = s.shedHeater.power :=
    (shedCompressor_eq s.shedHeater).1.trans (shedSlot_of_within fits.1 _)
  rw [power_eq]
  exact fits.2

/-- R145: a heater that is shed ends its defrost. -/
theorem shed_heater (standing : s.power.heater.isSome = true) (heats : s.cooling.phase = .heater)
    (above : allowanceInForce s.cfg < s.ownSum) :
    s.shed.cooling.phase = .drip ∧ s.shed.audit.defrosts = rise32 s.audit.defrosts 1 := by
  have ended : s.shedHeater.cooling.phase = .drip ∧ s.shedHeater.audit.defrosts = rise32 s.audit.defrosts 1 := by
    have released : ({ s with power := s.power.setSlot .defrostHeater none }).releaseSlot .defrostHeater =
        { s with power := s.power.setSlot .defrostHeater none } := rfl
    simp [Station.shedHeater, above, standing, Station.heaterShed, heats, Station.terminateDefrost, released,
      Station.setCooling]
  have phase : s.shed.cooling.phase = .drip := by
    unfold Station.shed Station.shedCompressor
    split
    · rw [(compressorShed_eq _).2.2, show _ = _ from ended.1]
      split <;> rfl
    · exact ended.1
  exact ⟨phase, (congrArg Audit.defrosts (shedCompressor_kept s.shedHeater .counters (by decide))).trans ended.2⟩

/-- The station in ISOLATED with its loads still to be shed. -/
def isolating (s : Station) (cause : Cause) : Station :=
  { s.leaveActive with line := { s.leaveActive.line with
    state := .isolated cause
    queue := if cause.keepsQueue then s.leaveActive.line.queue else []
    sending := s.leaveActive.line.sending && cause.keepsQueue
    declareDelay := if cause.keepsQueue then s.leaveActive.line.declareDelay else none
    probeTimer := 0
    clashLatched := s.leaveActive.line.clashLatched || cause = Cause.clash } }

theorem enterIsolated_eq (s : Station) (cause : Cause) : s.enterIsolated cause = (isolating s cause).shed.readyAll := rfl

/-- R164: an attempt that is out is abandoned. -/
theorem isolating_unclaimed (s : Station) (cause : Cause) : Unclaimed (isolating s cause).power.requests := by
  intro r inside
  obtain ⟨q, -, left⟩ := List.mem_filterMap.mp (show r ∈ s.power.requests.filterMap abandonAttempt from inside)
  unfold abandonAttempt at left
  split_ifs at left with out withdrawn
  · cases left
    exact ⟨nofun, nofun⟩
  · cases left
    simpa using out

theorem isolating_derived (s : Station) (cause : Cause) : Derived s.power.requests (isolating s cause).power.requests := by
  intro r inside
  obtain ⟨q, before, left⟩ := List.mem_filterMap.mp (show r ∈ s.power.requests.filterMap abandonAttempt from inside)
  refine ⟨q, before, ?_⟩
  unfold abandonAttempt at left
  split_ifs at left
  · cases left
    exact ⟨rfl, rfl⟩
  · cases left
    exact ⟨rfl, rfl⟩

theorem shed_line (s : Station) : s.shed.line = s.line := (shedCompressor_eq _).2.trans (shedHeater_eq s).2

theorem shed_requests (s : Station) : s.shed.power.requests = s.power.requests := by
  have slot (a : Station) (cls : LoadClass) : (shedSlot a cls).requests = a.power.requests := by
    unfold shedSlot
    split
    · exact setSlot_requests _ _ _
    · rfl
  rw [(show s.shed.power = shedSlot s.shedHeater .compressor from (shedCompressor_eq _).1), slot, (shedHeater_eq s).1, slot]

/-- R179: the line at the entry. -/
theorem enterIsolated_line (s : Station) (cause : Cause) : (s.enterIsolated cause).line = (isolating s cause).line :=
  shed_line _

/-- No request is added, and a slot that the allowance reaches stays. -/
theorem enterIsolated_compressor {f : Fig} (standing : s.power.compressor = some f)
    (within : s.ownSum - slotWatts s.power.heater ≤ allowanceInForce s.cfg)
    (free : hasRequest s.power.requests .compressor = false) :
    (s.enterIsolated cause).power.compressor = some f ∧
      hasRequest (s.enterIsolated cause).power.requests .compressor = false := by
  have kept : (isolating s cause).shed.power.compressor = s.power.compressor := shed_compressor (s := isolating s cause) within
  refine ⟨kept.trans standing, ?_⟩
  have listed : Derived s.power.requests (readyHeld (isolating s cause).shed.power.requests) := by
    rw [shed_requests]
    exact (isolating_derived s cause).trans (readyHeld_derived _)
  exact listed.hasRequest free

theorem enterIsolated_within (s : Station) (cause : Cause) : WithinAllowance (s.enterIsolated cause) :=
  (readyAll_lowers _).within (shed_within (isolating_unclaimed s cause))

theorem enterIsolated_heater (standing : s.power.heater.isSome = true) (heats : s.cooling.phase = .heater)
    (above : allowanceInForce s.cfg < s.ownSum) :
    (s.enterIsolated cause).cooling.phase = .drip ∧
      (s.enterIsolated cause).audit.defrosts = rise32 s.audit.defrosts 1 :=
  shed_heater (s := isolating s cause) standing heats above

/-- What belongs to no frame of the queue is as the body of the event left it. -/
theorem finish_line {α : Type} (field : Line → α) (o s : Station) (owns : ∀ l : Line, field l.owned = field l) :
    field (finish o s).line = field s.line := by
  rw [← owns (finish o s).line, finish_same o s .line, owns]

/-- R164, R166, R167, R174, R176, R179: an event that isolates the station, and at most raises a notice besides. -/
theorem finish_entersIsolated (o : Station) (h : Kept [.latch] (u.enterIsolated cause) w) :
    EntersIsolated u (finish o w) cause := by
  have line_eq : w.line = (isolating u cause).line :=
    (line_of_kept (h _ (by decide)) (h _ (by decide))).trans (enterIsolated_line u cause)
  have power_eq : w.power = (u.enterIsolated cause).power := h .power (by decide)
  have cooling_eq : w.cooling = (u.enterIsolated cause).cooling := h .cooling (by decide)
  have cfg_eq : w.cfg = (u.enterIsolated cause).cfg := cfg_of_kept (h .setup (by decide))
  have entered : Kept [.line, .cooling, .meters, .power, .lineQueue, .counters, .latch] u w :=
    ((enterIsolated_kept u cause).mono (by decide)).trans (h.mono (by decide))
  have isolated : w.line.state.isIsolated = true := by rw [line_eq]; rfl
  have within : WithinAllowance (finish o w) := by
    refine finish_within o isolated ((Lowers.of_power cfg_eq power_eq).within (enterIsolated_within u cause))
  have field {α : Type} (f : Line → α) (owns : ∀ l : Line, f l.owned = f l) :
      f (finish o w).line = f (isolating u cause).line := (finish_line f o w owns).trans (congrArg f line_eq)
  have queue : (finish o w).line.queue = (isolating u cause).line.queue :=
    ((finish_admits o w).unsent (isolated_not_active isolated)).trans (congrArg Line.queue line_eq)
  refine ⟨field Line.state fun _ => rfl, field Line.probeTimer fun _ => rfl,
    (finish_same o w .peers).trans (entered .peers (by decide)), ?_, ?_, ?_, field Line.clashLatched fun _ => rfl,
    within.1, within.2, fun standing heats above => ?_, fun f standing reached free => ?_, same_of_kept o entered (by decide)⟩
  · rw [queue]
    cases cause <;> rfl
  · rw [field Line.sending fun _ => rfl]
    cases cause <;> simp [isolating, Cause.keepsQueue, Station.leaveActive, Station.abandonAttempts]
  · rw [field Line.declareDelay fun _ => rfl]
    cases cause <;> rfl
  · obtain ⟨drips, counted⟩ := enterIsolated_heater (cause := cause) standing heats above
    rw [← cooling_eq] at drips
    refine ⟨(finish_phase o (by rw [drips]; decide)).trans drips, ?_⟩
    have audit_eq : (finish o w).audit.owned = (u.enterIsolated cause).audit.owned :=
      (finish_owned o w).trans (h .counters (by decide))
    exact (defrosts_of_owned audit_eq).trans counted
  · obtain ⟨stands, unasked⟩ := enterIsolated_compressor (cause := cause) standing reached free
    rw [← power_eq] at stands unasked
    exact ((finish_served o w).slots .compressor unasked).trans stands

/-- What the entry reads of the line before it, where the queue is not kept: whether a clash is latched. -/
theorem entersIsolated_of_line {t : Station} {line : Line} (h : EntersIsolated { u with line := line } t cause)
    (flushed : cause ≠ .silence) (latched : line.clashLatched = u.line.clashLatched) : EntersIsolated u t cause := by
  obtain ⟨state, probe, peers, queue, sending, delay, clash, unclaimed, within, heater, compressor, regions⟩ := h
  rw [if_neg flushed] at queue delay
  simp only [decide_eq_false flushed, Bool.false_and] at sending
  refine ⟨state, probe, peers, by rw [if_neg flushed]; exact queue, ?_, by rw [if_neg flushed]; exact delay,
    by rw [← latched]; exact clash, unclaimed, within, heater, compressor, fun r listed => ?_⟩
  · simp only [decide_eq_false flushed, Bool.false_and]
    exact sending
  · have same := regions r listed
    fin_cases listed <;> exact same

end Entry

end Sys2Proof.Proofs

/-! SUPPORT. A frame is begun, loses the line, is sent, or meets an error (R159, R173 to R175), for O36. -/

namespace Sys2Proof.Proofs

open Sys2Proof.Machine Sys2Proof.Laws

section Driven

/-! ### The bits on BTX (R169) -/

variable {s : Station} {f : Frame} {rest : List Frame}

theorem bitsSent_of_silent (silent : s.line.sending = false) : s.bitsSent = [] := by simp [Station.bitsSent, silent]

theorem bitsSent_of_sending (sending : s.line.sending = true) (head : s.line.queue = f :: rest) :
    s.bitsSent = frameBits s.cfg.address f := by simp [Station.bitsSent, sending, head]

theorem finish_btx (o s : Station) : (finish o s).pins.btx = if s.running then (finish o s).bitsSent else [] := by
  have driven : (finish o s).pins = (finish o s).outputs := driveOutputs_pins _
  rw [driven, Station.outputs, finish_running]
  split <;> rfl

theorem finish_sending (o s : Station) : (finish o s).line.sending = s.line.sending :=
  finish_line Line.sending o s fun _ => rfl

/-- A station that sends nothing leaves BTX recessive. -/
theorem finish_btx_silent (o : Station) (silent : s.line.sending = false) : (finish o s).pins.btx = [] := by
  rw [finish_btx, bitsSent_of_silent ((finish_sending o s).trans silent), ite_self]

/-- The head of the queue stays at the head while it is sent. -/
theorem finish_btx_sending (o : Station) (running : s.running = true) (sending : s.line.sending = true)
    (head : s.line.queue = f :: rest) : (finish o s).pins.btx = frameBits s.cfg.address f := by
  obtain ⟨behind, queue⟩ := (finish_admits o s).queue
  rw [head] at queue
  rw [finish_btx, if_pos running, bitsSent_of_sending ((finish_sending o s).trans sending) queue.symm, finish_cfg]

/-- A body that writes the line alone, and not its state. -/
theorem keepsBut_line (o s : Station) {line : Line} (state : line.state = s.line.state) (queue : line.queue = s.line.queue) :
    KeepsBut [.line] s (finish o { s with line := line }) := by
  refine keepsBut_of_loadsSettled o ?_ (loadsSettled_congr rfl state)
  have owned : Kept [.line, .lineQueue] s { s with line := line } := line_kept s line
  intro r unlisted
  by_cases queued : r = .lineQueue
  · subst queued
    exact Prod.ext queue rfl
  · exact owned r (by simpa [queued] using unlisted)

end Driven

section Contention

/-! ### Contention for the line (R174) -/

/-- What bits spell after a number, most significant first. -/
def bitsAfter (n : Nat) (bits : List Bool) : Nat := bits.foldl (fun n b => 2 * n + b.toNat) n

theorem byteOfBits_eq (bits : List Bool) : byteOfBits bits = byteOf (bitsAfter 0 bits) := rfl

theorem bitsAfter_bounds (n : Nat) (bits : List Bool) :
    n * 2 ^ bits.length ≤ bitsAfter n bits ∧ bitsAfter n bits < (n + 1) * 2 ^ bits.length := by
  induction bits generalizing n with
  | nil => simp [bitsAfter]
  | cons b rest ih =>
    obtain ⟨above, below⟩ := ih (2 * n + b.toNat)
    have bit : b.toNat ≤ 1 := Bool.toNat_le b
    have step : bitsAfter n (b :: rest) = bitsAfter (2 * n + b.toNat) rest := rfl
    rw [step, List.length_cons, pow_succ]
    constructor <;> nlinarith [Nat.two_pow_pos rest.length]

/-- R174: of two stations that begin together the one whose bits spell the lower number keeps the line. -/
theorem losesTo_iff_lower {own line : List Bool} (same : own.length = line.length) (n : Nat) :
    losesTo own line = decide (bitsAfter n line < bitsAfter n own) := by
  induction own generalizing line n with
  | nil =>
    obtain rfl := List.length_eq_zero_iff.mp same.symm
    simp [losesTo]
  | cons b os ih =>
    obtain ⟨c, ls, rfl⟩ := List.exists_cons_of_length_eq_add_one same.symm
    have tails : os.length = ls.length := Nat.succ.inj same
    have own_step : bitsAfter n (b :: os) = bitsAfter (2 * n + b.toNat) os := rfl
    have line_step : bitsAfter n (c :: ls) = bitsAfter (2 * n + c.toNat) ls := rfl
    rw [losesTo, own_step, line_step]
    by_cases agree : b = c
    · subst agree
      rw [if_pos rfl]
      exact ih tails _
    · rw [if_neg agree]
      have own_bounds := bitsAfter_bounds (2 * n + b.toNat) os
      have line_bounds := bitsAfter_bounds (2 * n + c.toNat) ls
      rw [tails] at own_bounds
      cases b <;> cases c <;> simp at agree own_bounds line_bounds ⊢ <;> omega

/-- R169: the bits of a byte spell its number. -/
theorem bitsAfter_byteBits (b : Byte) : bitsAfter 0 (byteBits b) = b.toNat := by
  have read : byteOf (bitsAfter 0 (byteBits b)) = b := (byteOfBits_eq _).symm.trans (byteOfBits_byteBits b)
  have small := (bitsAfter_bounds 0 (byteBits b)).2
  have length : (byteBits b).length = 8 := by simp [byteBits]
  rw [length] at small
  rw [← byteOf_toNat (n := bitsAfter 0 (byteBits b)) (by omega), read]

/-- R174: the lower head byte takes the line. -/
theorem losesTo_byteBits {own other : Nat} (own_le : own ≤ 255) (other_le : other ≤ 255) :
    losesTo (byteBits (byteOf own)) (byteBits (byteOf other)) = decide (other < own) := by
  rw [losesTo_iff_lower (by simp [byteBits]) 0, bitsAfter_byteBits, bitsAfter_byteBits, byteOf_toNat own_le,
    byteOf_toNat other_le]

end Contention

section Sent

/-! ### A frame sent, a frame in error (R159, R173, R175) -/

variable {s : Station} {f : Frame} {rest : List Frame}

theorem frameSent_of_plain (head : s.line.queue = f :: rest) (plain : f.opensWindow = false) :
    s.frameSent = { s with line := { s.line with queue := rest, sending := false, errors := 0 } } := by
  simp [Station.frameSent, head, plain]

theorem frameSent_of_claim (head : s.line.queue = f :: rest) (claims : f.opensWindow = true) :
    s.frameSent = { s with
      line := { s.line with queue := rest, sending := false, errors := 0 }
      power := { s.power with requests := s.power.requests.map openWindow } } := by
  simp [Station.frameSent, head, claims]

theorem frameSent_line (head : s.line.queue = f :: rest) :
    s.frameSent.line = { s.line with queue := rest, sending := false, errors := 0 } := by
  cases claims : f.opensWindow with
  | true => rw [frameSent_of_claim head claims]
  | false => rw [frameSent_of_plain head claims]

/-- R159: a window is open once the CLAIM of an attempt has been sent. -/
theorem openWindow_of_sending {r : Request} (sending : r.phase = .sending) :
    openWindow r = { r with phase := .window, timer := 0, record := [] } := if_pos sending

/-- R157: with a window held no waiting load is checked. -/
theorem loadsSettled_of_window {r : Request} (active : s.active = true) (inside : r ∈ s.power.requests)
    (open_ : r.phase = .window) : s.loadsSettled = true := by
  have held : windowHeld s.power.requests = true := List.any_eq_true.mpr ⟨r, inside, by simp [open_]⟩
  simp [Station.loadsSettled, active, held]

/-- R159: the CLAIM of an attempt has been sent. -/
theorem finish_claimSent (o : Station) (head : s.line.queue = f :: rest) (claims : f.opensWindow = true)
    (active : s.active = true) {r : Request} (inside : r ∈ s.power.requests) (sending : r.phase = .sending) :
    (finish o s.frameSent).line.queue = rest ∧
      ∃ q ∈ (finish o s.frameSent).power.requests, q.cls = r.cls ∧ q.phase = .window ∧ q.timer = 0 ∧ q.record = [] := by
  have line_eq := frameSent_line head
  have opened : { r with phase := .window, timer := 0, record := [] } ∈ s.frameSent.power.requests := by
    rw [frameSent_of_claim head claims, ← openWindow_of_sending sending]
    exact List.mem_map_of_mem inside
  have settled : s.frameSent.loadsSettled = true :=
    loadsSettled_of_window ((active_of_state (by rw [line_eq])).trans active) opened rfl
  constructor
  · rw [(finish_same o s.frameSent .lineQueue settled).1, line_eq]
  · rw [finish_same o s.frameSent .power settled]
    exact ⟨_, opened, rfl, rfl, rfl, rfl⟩

/-- R173: any other frame has been sent. -/
theorem finish_plainSent (o : Station) (head : s.line.queue = f :: rest) (plain : f.opensWindow = false)
    (settled : s.loadsSettled = true) : (finish o s.frameSent).line.queue = rest := by
  have loads : s.frameSent.loadsSettled = true := by
    rw [frameSent_of_plain head plain]
    exact settled
  rw [(finish_same o s.frameSent .lineQueue loads).1, frameSent_line head]

/-- R175: the line of the station that has met an error. -/
def erred (l : Line) : Line := { l with sending := false, errors := l.errors + 1 }

theorem transmitError_eq (s : Station) :
    s.transmitError = if 7 ≤ s.line.errors ∧ s.line.state.beats = true then
      ({ s with line := erred s.line }).enterIsolated .lineFault else { s with line := erred s.line } := by
  unfold Station.transmitError Station.lineFault erred
  by_cases eighth : 7 ≤ s.line.errors <;> by_cases beats : s.line.state.beats = true <;> simp [eighth, beats]

theorem transmitError_line (s : Station) :
    s.transmitError.line.sending = false ∧ s.transmitError.line.errors = s.line.errors + 1 := by
  rw [transmitError_eq]
  split
  · rw [enterIsolated_line]
    exact ⟨rfl, rfl⟩
  · exact ⟨rfl, rfl⟩

end Sent

/-- Settles O36: a clause for each command; both line faults are the entry to ISOLATED. -/
theorem sendingAndLineFaults : Obligations.SendingAndLineFaults := by
  refine ⟨fun s recessive f rest running head => ?begun, fun s f rest first sending head => ?lost,
    fun own other => losesTo_byteBits, fun s f rest sending head => ?sent, fun s sending => ?erred, fun s held => ?dominant⟩
  case begun =>
    refine gives_of_event _ rfl ⟨fun idle => ?_, fun busy => ?_⟩
    · have begins : (s.station.running && decide (Config.idleBits ≤ recessive) && s.station.line.queue != []) = true := by
        simp [running, head, show Config.idleBits ≤ recessive from idle]
      rw [if_pos begins]
      exact ⟨finish_sending _ _, finish_btx_sending _ running rfl head, keepsBut_line _ _ rfl rfl⟩
    · simp only [show ¬Config.idleBits ≤ recessive from Nat.not_le.mpr busy, decide_false, Bool.and_false, Bool.false_and,
        Bool.false_eq_true, if_false]
      exact keepsBut_nothing _ _
  case lost =>
    refine gives_of_event _ rfl ?_
    have contends : s.station.losesContention first =
        losesTo (byteBits (headByte s.station.cfg.address f)) (byteBits (byteOf first)) := by
      simp [Station.losesContention, sending, head]
    rw [contends]
    refine ⟨fun loses => ?_, fun wins => ?_⟩
    · rw [if_pos loses]
      exact ⟨finish_sending _ _, finish_btx_silent _ rfl, keepsBut_line _ _ rfl rfl⟩
    · rw [if_neg (by simp [wins])]
      exact keepsBut_nothing _ _
  case sent =>
    refine gives_of_event _ rfl ?_
    rw [if_pos sending]
    have line_eq := frameSent_line head
    have silent : s.station.frameSent.line.sending = false := by rw [line_eq]
    refine ⟨(finish_sending _ _).trans silent, ?_, finish_btx_silent _ silent,
      fun plain settled => finish_plainSent _ head plain settled,
      fun claims active r inside sent => finish_claimSent _ head claims active inside sent,
      keepsBut_of_kept _ ((frameSent_kept s.station).mono (by decide)) (by decide)⟩
    rw [finish_line Line.errors _ _ fun _ => rfl, line_eq]
  case erred =>
    refine gives_of_event _ rfl ?_
    rw [if_pos sending]
    obtain ⟨silent, counted⟩ := transmitError_line s.station
    refine ⟨(finish_sending _ _).trans silent, (finish_line Line.errors _ _ fun _ => rfl).trans counted, fun few => ?_,
      fun eighth beats => ?_⟩
    · rw [transmitError_eq, if_neg (by rintro ⟨many, beats⟩; rcases few with few | still; omega; simp [beats] at still)]
      exact keepsBut_line _ _ rfl rfl
    · rw [transmitError_eq, if_pos ⟨eighth, beats⟩]
      exact entersIsolated_of_line (finish_entersIsolated _ (.refl _ _)) (by decide) rfl
  case dominant =>
    refine gives_of_event _ rfl ⟨fun long beats => ?_, fun short => ?_⟩
    · rw [ifHeld_of_le (time := Config.dominantHold) long, Station.lineFault, if_pos beats]
      exact finish_entersIsolated _ (.refl _ _)
    · have unchanged : ifHeld Config.dominantHold held Station.lineFault s.station = s.station := by
        rcases short with short | still
        · exact ifHeld_of_lt (time := Config.dominantHold) short _ _
        · simp [ifHeld, Station.lineFault, still]
      rw [unchanged]
      exact keepsBut_nothing _ _

end Sys2Proof.Proofs

/-! SUPPORT. The line's timers (R178, R179, R181), for O37. -/

namespace Sys2Proof.Proofs

open Sys2Proof.Machine Sys2Proof.Laws

section Handed

/-! ### A frame handed in an event (R173) -/

variable {u w : Station} {dst : Nat} {body : FrameBody}

theorem mem_updateFirst_of_any {α : Type} {p : α → Bool} {l : List α} (h : l.any p = true) (b : α) :
    b ∈ updateFirst p (fun _ => b) l := by
  induction l with
  | nil => cases h
  | cons a rest ih =>
    unfold updateFirst
    split
    · exact List.mem_cons_self
    · rename_i other
      exact List.mem_cons_of_mem a (ih (by simpa [other] using h))

/-- R173: a frame handed has a place in a queue with room: behind the others, or that of a HEARTBEAT behind the head. -/
theorem mem_queueFrame {queue : List Frame} (room : queue.length < 8) (f : Frame) :
    ∃ after, queueFrame queue f = (after, true) ∧ f ∈ after := by
  unfold queueFrame
  rw [if_pos room]
  split
  · rename_i replaces
    obtain ⟨-, behind⟩ := Bool.and_eq_true_iff.mp replaces
    exact ⟨_, rfl, List.mem_append_right _ (mem_updateFirst_of_any behind f)⟩
  · exact ⟨_, rfl, by simp⟩

theorem mem_hand_of_allowed (allowed : sendAllowed u.line.state body = true) (room : u.line.queue.length < 8) :
    (⟨dst, body, false⟩ : Frame) ∈ (u.hand dst body).line.queue := by
  obtain ⟨after, taken, inside⟩ := mem_queueFrame room ⟨dst, body, false⟩
  simp only [Station.hand, Station.handFrame, allowed, if_true, taken]
  exact inside

/-- R173: a frame handed where a timer of the line has run out. -/
theorem finish_handed (o u : Station) (line : Line) {w : Station} {dst : Nat} {body : FrameBody}
    (made : w = ({ u with line := line }).hand dst body)
    (state : line.state = u.line.state) (queue : line.queue = u.line.queue)
    (allowed : sendAllowed u.line.state body = true) :
    (finish o w).line.owned = line.owned ∧ Queued u (finish o w) dst body ∧ KeepsBut [.line, .lineQueue] u (finish o w) := by
  have handed := hand_kept ({ u with line := line }) dst body
  rw [← made] at handed
  refine ⟨(finish_same o w .line).trans (handed .line (by decide)), fun room => ?_, ?_⟩
  · rw [made]
    exact mem_lineQueue_finish o (mem_hand_of_allowed (u := { u with line := line }) (by rw [state]; exact allowed)
      (by rw [queue]; exact room))
  · have power : w.power = u.power := handed .power (by decide)
    exact keepsBut_of_loadsSettled o ((line_kept u line).trans (handed.mono (by decide)))
      (loadsSettled_congr power ((state_of_kept handed (by decide)).trans state))

/-- A field of the line but for its queue. -/
theorem field_of_owned {α : Type} {a b : Line} (field : Line → α) (owns : ∀ l : Line, field l.owned = field l)
    (h : a.owned = b.owned) : field a = field b := by rw [← owns, h, owns]

end Handed

section Expiries

/-! ### The states in which the timers run -/

variable {u : Station}

/-- R181: a DECLARE and a HEARTBEAT are sent wherever heartbeats are. -/
theorem sendAllowed_of_beats {body : FrameBody} (beats : u.line.state.beats = true) (anywhere : body.onlyActive = false) :
    sendAllowed u.line.state body = true := by
  unfold LineState.beats at beats
  split at beats <;> simp_all [sendAllowed]

theorem advanceTo_state (s : Station) (length elapsed : Nat) : (s.advanceTo length elapsed).line.state = s.line.state := by
  obtain ⟨-, -, -, -, -, -, -, -, -, -, -, state, -⟩ := advance_keeps (length - elapsed) s
  exact state

/-- R178: LISTEN ends in ACTIVE, or isolated by silence. -/
theorem endListen_of_heard (heard : u.line.heard = true ∨ u.cfg.stationCount = 1) : u.endListen = u.enterActive :=
  if_pos (by simpa using heard)

theorem endListen_of_silence (unheard : u.line.heard = false) (several : u.cfg.stationCount ≠ 1) :
    u.endListen = u.enterIsolated .silence := if_neg (by simp [unheard, several])

end Expiries

/-- Settles O37: two timers change the line's state, four hand a frame and begin anew. -/
theorem lineTimersAct : Obligations.LineTimersAct := by
  refine ⟨fun s u listens advanced => ?listen, fun s u active several advanced => ?silence,
    fun s u beats advanced => ?heartbeat, fun s u faulty advanced => ?probe, fun s u beats advanced => ?declare,
    fun s u waited beats delayed advanced => ?delay⟩
  case listen =>
    refine gives_of_expiry rfl (decide_eq_true listens) advanced ⟨fun heard => ?_, fun unheard several => ?_, ?_⟩
    · rw [endListen_of_heard heard]
      exact ⟨finish_line Line.state _ _ fun _ => rfl, finish_line Line.silenceTimer _ _ fun _ => rfl⟩
    · rw [endListen_of_silence unheard several]
      exact finish_entersIsolated _ (.refl _ _)
    · exact (finish_same _ _ .peers).trans (endListen_kept u .peers (by decide))
  case silence =>
    refine gives_of_expiry rfl (by simp [active, several]) advanced ?_
    exact finish_entersIsolated _ (.refl _ _)
  case heartbeat =>
    have executed : exec .heartbeatTimerExpiry s = .next (event s fun o =>
        expire o.line.state.beats Config.heartbeatTime o.line.heartbeatTimer
          (fun t => ({ t with line := { t.line with heartbeatTimer := 0 } }).queueHeartbeat) o) := rfl
    have allowed : sendAllowed u.line.state (.heartbeat u.heartbeatFields) = true :=
      sendAllowed_of_beats (by rw [advanced, advanceTo_state]; exact beats) rfl
    obtain ⟨owned, sent⟩ := finish_handed s.station u { u.line with heartbeatTimer := 0 }
      (w := ({ u with line := { u.line with heartbeatTimer := 0 } }).queueHeartbeat) rfl rfl rfl allowed
    have begun_anew := field_of_owned Line.heartbeatTimer (fun _ => rfl) owned
    exact gives_of_expiry (runs := fun o => o.line.state.beats) (elapsed := fun o => o.line.heartbeatTimer) executed
      beats advanced ⟨begun_anew, sent⟩
  case probe =>
    have executed : exec .probeTimerExpiry s = .next (event s fun o =>
        expire (o.line.state = .isolated .lineFault) Config.probeTime o.line.probeTimer
          (fun t => ({ t with line := { t.line with probeTimer := 0 } }).queueHeartbeat) o) := rfl
    have allowed : sendAllowed u.line.state (.heartbeat u.heartbeatFields) = true := by
      rw [advanced, advanceTo_state, faulty]
      rfl
    obtain ⟨owned, sent⟩ := finish_handed s.station u { u.line with probeTimer := 0 }
      (w := ({ u with line := { u.line with probeTimer := 0 } }).queueHeartbeat) rfl rfl rfl allowed
    have begun_anew := field_of_owned Line.probeTimer (fun _ => rfl) owned
    exact gives_of_expiry (runs := fun o => o.line.state = .isolated .lineFault) (elapsed := fun o => o.line.probeTimer) executed
      (decide_eq_true faulty) advanced ⟨begun_anew, sent⟩
  case declare =>
    have executed : exec .declareTimerExpiry s = .next (event s fun o =>
        expire o.line.state.beats Config.declareTime o.line.declareTimer
          (fun t => ({ t with line := { t.line with declareTimer := 0 } }).queueDeclare) o) := rfl
    have allowed : sendAllowed u.line.state (.declare u.declareFields) = true :=
      sendAllowed_of_beats (by rw [advanced, advanceTo_state]; exact beats) rfl
    obtain ⟨owned, sent⟩ := finish_handed s.station u { u.line with declareTimer := 0 }
      (w := ({ u with line := { u.line with declareTimer := 0 } }).queueDeclare) rfl rfl rfl allowed
    have begun_anew := field_of_owned Line.declareTimer (fun _ => rfl) owned
    exact gives_of_expiry (runs := fun o => o.line.state.beats) (elapsed := fun o => o.line.declareTimer) executed
      beats advanced ⟨begun_anew, sent⟩
  case delay =>
    have executed : exec .declareDelayExpiry s = .next (event s fun o =>
        expire (o.line.state.beats && o.line.declareDelay.isSome) (Config.declareDelay o.cfg.address)
          (o.line.declareDelay.getD 0) (fun t => ({ t with line := { t.line with declareDelay := none } }).queueDeclare) o) := rfl
    have allowed : sendAllowed u.line.state (.declare u.declareFields) = true :=
      sendAllowed_of_beats (by rw [advanced, advanceTo_state]; exact beats) rfl
    obtain ⟨owned, sent⟩ := finish_handed s.station u { u.line with declareDelay := none }
      (w := ({ u with line := { u.line with declareDelay := none } }).queueDeclare) rfl rfl rfl allowed
    have begun_anew := field_of_owned Line.declareDelay (fun _ => rfl) owned
    have advanced_own : u = s.station.advanceTo (Config.declareDelay s.station.cfg.address)
        (s.station.line.declareDelay.getD 0) := by
      rw [delayed]
      exact advanced
    exact gives_of_expiry_of (runs := fun o => o.line.state.beats && o.line.declareDelay.isSome)
      (length := fun o => Config.declareDelay o.cfg.address) (elapsed := fun o => o.line.declareDelay.getD 0) executed
      (by simp [beats, delayed]) advanced_own ⟨begun_anew, sent⟩

end Sys2Proof.Proofs

/-! SUPPORT. A frame of the own address, and the latched clash over every command (R176, R177, R186), for O35. -/

namespace Sys2Proof.Proofs

open Sys2Proof.Machine Sys2Proof.Laws

section Own

/-! ### The frame of the own address (R176) -/

variable {s w : Station}

theorem takeFrame_own (running : s.running = true) {src : Nat} (own : src = s.cfg.address) (dst : Nat) (apply : Peer → Peer)
    (windowed handoff : Station → Station) :
    s.takeFrame true src dst apply windowed handoff = if s.line.sending then s else s.addressClash := by
  simp [Station.takeFrame, running, own]

theorem takeQuery_own (running : s.running = true) {src dst block : Nat} (valid : auditQueryOk src dst block = true)
    (peer : src ≠ 0) (own : src = s.cfg.address) :
    s.takeQuery src dst block = if s.line.sending then s else s.addressClash := by
  simp only [Station.takeQuery, running, valid, peer, own.symm, Bool.not_true, Bool.false_eq_true, if_false, if_true]

/-- R176: what a valid frame command that names the own address does. -/
theorem exec_ownFrame {c : Instr} {s : State} {src dst : Nat} (route : frameRoute c = some (src, dst))
    (valid : frameValid c = true) (running : s.station.running = true) (peer : src ≠ 0)
    (own : src = s.station.cfg.address) :
    exec c s = .next { s with
      station := finish s.station (if s.station.line.sending then s.station else s.station.addressClash) } := by
  have taken : ∀ (ok : Bool) (dst : Nat) (apply : Peer → Peer) (windowed handoff : Station → Station), ok = true →
      happen s (fun o => o.takeFrame ok src dst apply windowed handoff) = .next { s with
        station := finish s.station (if s.station.line.sending then s.station else s.station.addressClash) } := by
    rintro _ dst apply windowed handoff rfl
    simp only [happen, event, takeFrame_own running own]
  cases c with
  | declare a b fields =>
    cases route
    have ok : declareOk src dst fields = true := valid
    have unanswered : s.station.declareAnswered true src = false := by simp [Station.declareAnswered, own]
    simp only [exec, execDeclare, happen, event, ok, takeFrame_own running own, unanswered, Bool.false_eq_true, if_false]
  | auditQuery a b block =>
    cases route
    simp only [exec, execAuditQuery, happen, event, takeQuery_own running valid peer own]
  | auditQueryJournal a b block =>
    cases route
    simp only [exec, execAuditQueryJournal, happen, event, takeQuery_own running valid peer own]
  | offer a b tag tray column => cases route; exact taken _ _ _ _ _ valid
  | commit a b tag price => cases route; exact taken _ _ _ _ _ valid
  | withdraw a b tag => cases route; exact taken _ _ _ _ _ valid
  | accept a b tag price queuePos => cases route; exact taken _ _ _ _ _ valid
  | refuse a b tag reason => cases route; exact taken _ _ _ _ _ valid
  | result a b tag outcome drops => cases route; exact taken _ _ _ _ _ valid
  | claim a b cls rank value scale => cases route; exact taken _ _ _ _ _ valid
  | release a b cls => cases route; exact taken _ _ _ _ _ valid
  | heartbeat a b fields => cases route; exact taken _ _ _ _ _ valid
  | audit a b block content => cases route; exact taken _ _ _ _ _ valid
  | _ => cases route

/-- R186: the condition ADDRESS-CLASH stands while a clash is latched, once working state has been built. -/
theorem addressClash_standing (o : Station) (built : w.built = true) (latched : w.line.clashLatched = true) :
    Condition.addressClash ∈ (finish o w).faults.standing := by
  have keeps : (finish o w).keepsConditions = true := (finish_same o w .setup).2.1.trans built
  rw [finish_conditionsTaken o w keeps, List.mem_filter]
  exact ⟨by decide, (finish_clashLatched o w).trans latched⟩

/-- R176: the clash found, with its notice. -/
theorem addressClash_of_other (other : s.line.state ≠ .isolated .clash) :
    s.addressClash = (s.enterIsolated .clash).raise (.clash s.cfg.address) := if_neg other

theorem addressClash_noticeTaken (other : s.line.state ≠ .isolated .clash) :
    NoticeTaken s s.addressClash (.clash s.cfg.address) := by
  rw [addressClash_of_other other]
  exact noticeTaken_of_kept (enterIsolated_kept s .clash .latch (by decide)) (raise_noticeTaken _ _)

/-- R188: a notice taken leaves one active, and is in a place where one was free. -/
theorem noticeTaken_active {u t : Station} {n : Notice} (taken : NoticeTaken u t n) :
    t.faults.active ≠ none ∧ (u.faults.active = none → t.faults.active = some n) := by
  obtain ⟨free, busy⟩ := taken
  by_cases idle : u.faults.active = none
  · exact ⟨by simp [(free idle).1], fun _ => (free idle).1⟩
  · exact ⟨by rw [(busy idle).1]; exact idle, fun none_active => absurd none_active idle⟩

/-- R176, R179: the event of a clash found. -/
theorem finish_addressClash (o : Station) (other : s.line.state ≠ .isolated .clash) :
    EntersIsolated s (finish o s.addressClash) .clash ∧
      (s.built = true → Condition.addressClash ∈ (finish o s.addressClash).faults.standing) ∧
      (finish o s.addressClash).faults.active ≠ none ∧
      (s.faults.active = none → s.faults.pendingNotice = none →
        (finish o s.addressClash).faults.active = some (.clash s.cfg.address) ∨
          (finish o s.addressClash).faults.pendingNotice = some (.clash s.cfg.address)) := by
  have built_eq : s.addressClash.built = s.built := congrArg (fun p => p.2.1) (addressClash_kept s .setup (by decide))
  obtain ⟨active, placed⟩ := noticeTaken_active (noticeTaken_finish o (addressClash_noticeTaken other))
  refine ⟨?_, fun built => addressClash_standing o (built_eq.trans built) ?_, active, fun idle _ => .inl (placed idle)⟩
  · rw [addressClash_of_other other]
    exact finish_entersIsolated o (raise_kept _ _)
  · exact addressClash_clashLatched s fun clashed => absurd clashed other

end Own

section Latched

/-! ### The latched clash, operation by operation -/

/-- A clash that is latched stays latched, and working state stays built. -/
structure Latches (s t : Station) : Prop where
  latched : s.line.clashLatched = true → t.line.clashLatched = true
  built : s.built = true → t.built = true

variable {s t u : Station}

theorem Latches.refl (s : Station) : Latches s s := ⟨id, id⟩

theorem Latches.trans (h : Latches s t) (k : Latches t u) : Latches s u := ⟨k.latched ∘ h.latched, k.built ∘ h.built⟩

/-- Latch and flag are as they were. -/
theorem Latches.same (latched : t.line.clashLatched = s.line.clashLatched) (built : t.built = s.built) : Latches s t :=
  ⟨latched.trans, built.trans⟩

theorem Latches.of_kept {l : List Region} (h : Kept l s t) (line : Region.line ∉ l := by decide)
    (setup : Region.setup ∉ l := by decide) : Latches s t :=
  .same (clashLatched_kept (h .line line)) (congrArg (fun p => p.2.1) (h .setup setup))

theorem Latches.ite {c : Prop} [Decidable c] (h : Latches s t) (k : Latches s u) : Latches s (if c then t else u) := by
  split <;> assumption

theorem advance_latches (s : Station) (d : Nat) : Latches s (s.advance d) := by
  obtain ⟨-, -, -, built, -⟩ := advance_keeps d s
  exact .same (advance_clashLatched d s) built

theorem expire_latches {runs : Bool} {length elapsed : Nat} {effect : Station → Station} (h : ∀ u, Latches u (effect u)) :
    Latches s (expire runs length elapsed effect s) := .ite ((advance_latches s _).trans (h _)) (.refl s)

theorem ifHeld_latches {time held : Nat} {change : Station → Station} (h : Latches s (change s)) :
    Latches s (ifHeld time held change s) := .ite h (.refl s)

theorem onVend_latches {f : Vend → Station → Station} (h : ∀ v, Latches s (f v s)) : Latches s (s.onVend f) := by
  unfold Station.onVend
  split
  · exact h _
  · exact .refl s

theorem assess_latches (s : Station) (currents : List Nat) : Latches s (s.assess currents) := by
  have read : ∀ (currents : List Nat) (a : Station), Latches a (currents.foldl Station.readCurrent a) := by
    intro currents
    induction currents with
    | nil => exact .refl
    | cons x rest ih => exact fun a => ((Latches.of_kept (vend_kept a _)).trans (advance_latches _ 1)).trans (ih _)
  exact .ite (read currents s) (.refl s)

theorem ifFound_latches (currents : List Nat) {found : Station → Bool} {effect : Station → Station}
    (h : ∀ u, Latches u (effect u)) : Latches s (s.ifFound currents found effect) :=
  (assess_latches s currents).trans (.ite (h _) (.refl _))

theorem key_latches {customer technician : Station → Station} (hc : ∀ u, Latches u (customer u))
    (ht : ∀ u, Latches u (technician u)) : Latches s (s.key customer technician) := by
  have taken : Latches s s.keyTaken := .same rfl rfl
  have service : Latches s s.serviceKey := .same rfl rfl
  exact .ite (taken.trans (hc _)) (.ite (service.trans (ht _)) (.refl s))

theorem ifBufferOpen_latches {effect : Station → Station} (h : Latches s (effect s)) : Latches s (s.ifBufferOpen effect) :=
  .ite h (.refl s)

/-! ### The line -/

theorem enterListen_latches (s : Station) : Latches s s.enterListen := by
  refine ⟨fun latched => ?_, (congrArg (fun p => p.2.1) (enterListen_kept s .setup (by decide))).trans⟩
  unfold Station.enterListen
  rw [(sendMasks_line_audit _).1, clashLatched_kept (queueDeclare_kept _ .line (by decide))]
  exact latched

theorem enterIsolated_latches (s : Station) (cause : Cause) : Latches s (s.enterIsolated cause) := by
  refine ⟨fun latched => ?_, (congrArg (fun p => p.2.1) (enterIsolated_kept s cause .setup (by decide))).trans⟩
  rw [enterIsolated_clashLatched, latched, Bool.true_or]

theorem lineFault_latches (s : Station) : Latches s s.lineFault := .ite (enterIsolated_latches s _) (.refl s)

theorem addressClash_latches (s : Station) : Latches s s.addressClash :=
  .ite (.refl s) ((enterIsolated_latches s _).trans (.of_kept (raise_kept _ _)))

theorem endListen_latches (s : Station) : Latches s s.endListen := .ite (.same rfl rfl) (enterIsolated_latches s _)

theorem heardPeer_latches (s : Station) : Latches s s.heardPeer := by
  have restarted : ∀ a : Station, Latches a { a with line := { a.line with silenceTimer := 0, heard := true } } :=
    fun _ => .same rfl rfl
  unfold Station.heardPeer
  dsimp only
  split
  · exact (enterListen_latches s).trans (restarted _)
  · exact (enterListen_latches s).trans (restarted _)
  · exact restarted s

theorem frameSent_latches (s : Station) : Latches s s.frameSent := by
  unfold Station.frameSent
  split
  · exact .refl s
  · exact .ite (.same rfl rfl) (.same rfl rfl)

theorem transmitError_latches (s : Station) : Latches s s.transmitError := by
  have counted : Latches s { s with line := erred s.line } := .same rfl rfl
  rw [transmitError_eq]
  exact .ite (counted.trans (enterIsolated_latches _ _)) counted

theorem scheduleDeclare_latches (s : Station) : Latches s s.scheduleDeclare := .ite (.same rfl rfl) (.refl s)

theorem takeFrame_latches (s : Station) (ok : Bool) (src dst : Nat) (apply : Peer → Peer) {windowed handoff : Station → Station}
    (hw : ∀ u, Latches u (windowed u)) (hh : ∀ u, Latches u (handoff u)) :
    Latches s (s.takeFrame ok src dst apply windowed handoff) := by
  refine .ite (.refl s) (.ite (.same rfl rfl) (.ite (.ite (.refl s) (addressClash_latches s)) ?_))
  refine .trans ?_ (.ite (hh _) (.refl _))
  exact (((hw s).trans (.of_kept (refreshPeer_kept _ _ _))).trans (.of_kept (noticeLetter_kept _))).trans (heardPeer_latches _)

theorem takeQuery_latches (s : Station) (src dst block : Nat) : Latches s (s.takeQuery src dst block) := by
  have answered : ∀ (a : Station) (b : Bool) (dst : Nat), Latches a (if b then a.answerQuery dst block else a) :=
    fun a _ _ => .ite (.of_kept (hand_kept a _ _)) (.refl a)
  refine .ite (.refl s) (.ite (.same rfl rfl) (.ite (answered s _ _) (.ite (.ite (.refl s) (addressClash_latches s)) ?_)))
  refine .trans ?_ (answered _ _ _)
  exact ((Latches.of_kept (refreshPeer_kept s _ _)).trans (.of_kept (noticeLetter_kept _))).trans (heardPeer_latches _)

/-! ### Blocks whose rules are of several pieces -/

theorem homeOpens_latches (s : Station) (v : Vend) : Latches s (s.homeOpens v) :=
  .ite ((Latches.of_kept (setHome_kept s v true)).trans (.of_kept (vend_kept _ _))) (.of_kept (setHome_kept s v true))

theorem homeCloses_latches (s : Station) (v : Vend) : Latches s (s.homeCloses v) :=
  .ite ((Latches.of_kept (setHome_kept s v false)).trans (.of_kept (revolutionEnds_kept _ _))) (.of_kept (setHome_kept s v false))

theorem chuteFaultBegins_latches (s : Station) : Latches s s.chuteFaultBegins :=
  have faulted : Latches s (chuteFaulted s) := .of_kept (chuteFaulted_kept s)
  faulted.trans (.ite (.of_kept (removeForChute_kept _)) (.refl _))

theorem dropTaken_latches (s : Station) : Latches s s.dropTaken := by
  have counted (v : Vend) : Latches s (if v.drops < 3 then s.countDrop v else s) := .ite (.of_kept (countDrop_kept s v)) (.refl s)
  unfold Station.dropTaken
  split
  · exact .of_kept (chuteActivity_kept s)
  · rename_i v _
    split
    · exact .of_kept (chuteActivity_kept s)
    · exact .ite ((Latches.of_kept (countDrop_kept s v)).trans (.of_kept (endVend_kept _ _))) (.refl s)
    · exact counted v
    · exact counted v
    · exact counted v

theorem beamBlocks_latches (s : Station) : Latches s s.beamBlocks :=
  have blocked : Latches s (s.setBeam true) := .of_kept (setBeam_kept s true)
  .ite (blocked.trans (dropTaken_latches _)) blocked

theorem takeStatus_latches (s : Station) (condition : Nat) : Latches s (s.takeStatus condition) := by
  have timed : Latches s { s with coin := { s.coin with statusTimer := 0 } } := .same rfl rfl
  have ready : ∀ a : Station, Latches a { a with coin := { a.coin with faultStands := false, faultCode := none } } :=
    fun _ => .same rfl rfl
  exact .ite (timed.trans (.ite ((ready _).trans (.of_kept (sendMasks_kept _))) (.refl _)))
    (timed.trans (.of_kept (coinFault_kept _ _)))

theorem changeDuty_latches (s : Station) : Latches s s.changeDuty := by
  unfold Station.changeDuty
  split
  · exact (Latches.of_kept (setCooling_kept s _)).trans (.of_kept (demandChanged_kept _ _))
  · exact (Latches.of_kept (setCooling_kept s _)).trans (.of_kept (demandChanged_kept _ _))
  · exact .refl s

end Latched

section Starts

/-! ### The starts, the halt, and the service commands -/

variable {s : Station}

/-- A start begins: its line is cleared (R176, R177). -/
def StartBegins (t : Station) : Prop := t.line = Line.blank ∧ t.start ≠ .none

/-- What the body of an event does to a latched clash. -/
def LatchesOrStarts (s t : Station) : Prop := Latches s t ∨ StartBegins t

theorem coldReset_starts (s : Station) : StartBegins s.coldReset := ⟨rfl, nofun⟩

theorem warmReset_starts (s : Station) : StartBegins s.warmReset := ⟨rfl, nofun⟩

theorem goLive_latches (s : Station) (limitBefore : Nat) : Latches s (s.goLive limitBefore) := by
  have cooled := (enterListen_latches s).trans (.of_kept (startCooling_kept _ limitBefore))
  exact cooled.trans (.same rfl rfl)

theorem buildCold_line (s : Station) (c : Settings) (mem : Memory) (inp : LoadInputs) :
    (s.buildCold c mem inp).line = s.line := by
  unfold Station.buildCold
  split
  · rfl
  · have raised := raise_kept (s.restore c saveLost inp.doorOpen) .saveLost
    exact line_of_kept (a := s.restore c saveLost inp.doorOpen) (raised .line (by decide)) (raised .lineQueue (by decide))

theorem load_latches (s : Station) (mem : Memory) (inp : LoadInputs) : Latches s (s.load mem inp) := by
  unfold Station.load
  dsimp only
  split
  · refine .trans ⟨fun latched => ?_, fun _ => rfl⟩ (goLive_latches _ _)
    change (if s.readsBlock then s.buildCold (settingsOf (Memory.readFrom mem 0 380)) mem inp else s).line.clashLatched = true
    split
    · rwa [buildCold_line]
    · exact latched
  · exact .same rfl rfl

theorem haltVend_latches (s : Station) : Latches s s.haltVend := by
  unfold Station.haltVend
  split
  · exact .same rfl rfl
  · rename_i v _
    have ended : Latches s { s.recordVendEnd v (interruptedOutcome v.drops) with vend := none, queue := [] } :=
      (Latches.of_kept (recordVendEnd_kept s v _)).trans (.same rfl rfl)
    dsimp only
    split
    · exact .ite ((ended.trans (.of_kept (bookSale_kept _ _ _))).trans (.of_kept (toResting_kept _))) ended
    · exact ended

/-- R176, R180: the halt. -/
theorem halt_latches (s : Station) : Latches s s.halt := by
  have rested : Latches s.haltVend s.haltVend.abandonPayout.haltTransaction :=
    ((Latches.of_kept (abandonPayout_kept _)).trans (.of_kept (doubtSale_kept _))).trans (.of_kept (toResting_kept _))
  have masked : Latches _ s.haltVend.abandonPayout.haltTransaction.warningInhibit :=
    .of_kept (masks_kept (warningInhibit_masks s.haltVend.abandonPayout.haltTransaction))
  exact ((haltVend_latches s).trans (rested.trans masked)).trans (.same rfl rfl)

theorem runService_latches (s : Station) (c : ServiceCommand) : LatchesOrStarts s (s.runService c) := by
  have done : ∀ t, Latches s t → LatchesOrStarts s t.doneShown := fun t h => .inl (h.trans (.of_kept (showService_kept t _)))
  have refused : LatchesOrStarts s s.refusedShown := .inl (.of_kept (showService_kept s _))
  have takenIf : ∀ (b : Bool) (effect : Station → Station), Latches s (effect s) → LatchesOrStarts s (s.takenIf b effect) := by
    intro b effect h
    cases b
    · exact refused
    · exact done _ h
  cases c with
  | ackAttention => exact done _ (.of_kept (acknowledge_kept s))
  | ackHold =>
    exact .inl (.ite (.of_kept (showService_kept s _))
      (.ite ((Latches.of_kept (setCooling_kept s _)).trans (.of_kept (showService_kept _ _))) (.of_kept (showService_kept s _))))
  | fillTube tube count =>
    have filled : Latches s (s.fillTube tube count) :=
      ((Latches.of_kept (setTube_kept s _ _)).trans (.of_kept (writeJournal_kept _ _))).trans (.of_kept (noteTubesChanged_kept _))
    exact takenIf _ (fun a => a.fillTube tube count) filled
  | emptyTube tube =>
    have emptied : Latches s (s.emptyTube tube) :=
      ((Latches.of_kept (writeJournal_kept s _)).trans (.of_kept (setTube_kept _ _ _))).trans (.of_kept (noteTubesChanged_kept _))
    exact takenIf _ (fun a => a.emptyTube tube) emptied
  | clearTube tube =>
    have cleared : Latches s (s.clearTube tube) :=
      (Latches.of_kept (setTube_kept s _ _)).trans (.of_kept (noteTubesChanged_kept _))
    exact takenIf _ (fun a => a.clearTube tube) cleared
  | refill => exact done _ (.of_kept (refill_kept s))
  | clearSpiral position => exact takenIf _ _ (.of_kept (setSpiral_kept s _ _))
  | testVend position =>
    change LatchesOrStarts s (s.testVend position)
    unfold Station.testVend
    split
    · exact .inl (.of_kept (showService_kept s _))
    · exact done _ (.of_kept (addTestEntry_kept s _))
  | manualDefrost => exact takenIf _ _ (.of_kept (requestDefrost_kept s))
  | clearCompressor =>
    exact takenIf _ _ ((Latches.of_kept (setCooling_kept s _)).trans (.of_kept (enterRest_kept _)))
  | forgetPeers => exact done _ (.of_kept (forgetPeers_kept s))
  | restart => exact .inr (warmReset_starts s)
  | showAudit item => exact .inl (.ite (.same rfl rfl) (.of_kept (showService_kept s _)))

theorem Latches.orStarts {t u : Station} (h : Latches s t) (k : LatchesOrStarts t u) : LatchesOrStarts s u := k.imp_left h.trans

theorem submit_latches (s : Station) (c : ServiceCommand) : LatchesOrStarts s (s.submit c) := by
  have submitted : Latches s s.serviceKey.submitted := .same rfl rfl
  unfold Station.submit
  split
  · exact submitted.orStarts (runService_latches _ c)
  · exact .inl (.refl s)

theorem restart_latches (s : Station) : LatchesOrStarts s s.restart := by
  unfold Station.restart
  split
  · exact .inr (warmReset_starts s)
  · exact submit_latches s _

theorem submitEntry_latches (s : Station) : LatchesOrStarts s s.submitEntry := by
  have submitted : Latches s s.submitted := .same rfl rfl
  unfold Station.submitEntry
  split
  · exact submitted.orStarts (runService_latches _ _)
  · exact .inl (submitted.trans (.of_kept (showService_kept _ _)))

theorem keyEnt_latches (s : Station) : LatchesOrStarts s (s.key id Station.submitEntry) := by
  have service : Latches s s.serviceKey := .same rfl rfl
  unfold Station.key
  split
  · exact .inl (.same rfl rfl)
  · split
    · exact service.orStarts (submitEntry_latches _)
    · exact .inl (.refl s)

end Starts

section Commands

/-! ### Every command (R176) -/

/-- No command but the starts ends a latched clash: by the commands' own rules. -/
theorem exec_latches (c : Instr) (h : special c = false) (s : State) :
    ∃ b, exec c s = .next { s with station := finish s.station b } ∧ LatchesOrStarts s.station b := by
  have frame : ∀ {o : Station} {ok src dst apply handoff}, (∀ t, Latches t (handoff t)) →
      Latches o (o.takeFrame ok src dst apply id handoff) := fun hh => takeFrame_latches _ _ _ _ _ .refl hh
  have handed (t : Station) (line : Line) (dst : Nat) (body : FrameBody) (latched : line.clashLatched = t.line.clashLatched) :
      Latches t (({ t with line := line }).hand dst body) :=
    .trans (t := { t with line := line }) (.same latched rfl) (.of_kept (hand_kept _ dst body))
  cases c with
  | powerOn => cases h
  | resetInput => cases h
  | loadEvent inp => cases h
  | powerFailWarning => cases h
  | savedBlockWritten complete => cases h
  | doorOpens held => exact ⟨_, rfl, .inl (ifHeld_latches (.ite (.of_kept (openDoor_kept _)) (.refl _)))⟩
  | doorCloses held => exact ⟨_, rfl, .inl (ifHeld_latches (.ite (.of_kept (closeDoor_kept _)) (.refl _)))⟩
  | doorLeftOpen => exact ⟨_, rfl, .inl (expire_latches fun _ => .same rfl rfl)⟩
  | claimTimerExpiry => exact ⟨_, rfl, .inl (expire_latches fun _ => .of_kept (endVend_kept _ _))⟩
  | homeOpens held => exact ⟨_, rfl, .inl (ifHeld_latches (.ite (onVend_latches (homeOpens_latches _)) (.refl _)))⟩
  | homeCloses held => exact ⟨_, rfl, .inl (ifHeld_latches (.ite (onVend_latches (homeCloses_latches _)) (.refl _)))⟩
  | leaveHomeTimerExpiry => exact ⟨_, rfl, .inl (expire_latches fun _ => .of_kept (endVend_kept _ _))⟩
  | revolutionTimerExpiry => exact ⟨_, rfl, .inl (expire_latches fun _ => .of_kept (endVend_kept _ _))⟩
  | dropWindowExpiry => exact ⟨_, rfl, .inl (expire_latches fun _ => onVend_latches fun v => .of_kept (windowEnds_kept _ v))⟩
  | jam currents => exact ⟨_, rfl, .inl (ifFound_latches currents fun _ => onVend_latches fun v => .of_kept (jamTaken_kept _ v))⟩
  | shortCheck currents => exact ⟨_, rfl, .inl (ifFound_latches currents fun _ => .of_kept (endVend_kept _ _))⟩
  | openCheck currents => exact ⟨_, rfl, .inl (ifFound_latches currents fun _ => .of_kept (endVend_kept _ _))⟩
  | reversePauseEnd => exact ⟨_, rfl, .inl (expire_latches fun _ => onVend_latches fun _ => .of_kept (vend_kept _ _))⟩
  | reversingTimerExpiry => exact ⟨_, rfl, .inl (expire_latches fun _ => onVend_latches fun _ => .of_kept (vend_kept _ _))⟩
  | forwardPauseEnd => exact ⟨_, rfl, .inl (expire_latches fun _ => .of_kept (energise_kept _))⟩
  | dropEdge => exact ⟨_, rfl, .inl (.ite (beamBlocks_latches _) (.refl _))⟩
  | beamClears => exact ⟨_, rfl, .inl (.ite (.of_kept (setBeam_kept _ _)) (.refl _))⟩
  | chuteActivityRateEnd => exact ⟨_, rfl, .inl (expire_latches fun _ => .of_kept (chute_kept _ _))⟩
  | chuteFault => exact ⟨_, rfl, .inl (expire_latches fun _ => chuteFaultBegins_latches _)⟩
  | chuteFaultClear => exact ⟨_, rfl, .inl (expire_latches fun _ => .of_kept (chute_kept _ _))⟩
  | commitTimerExpiry payer tag =>
    refine ⟨_, rfl, .inl ?_⟩
    dsimp only
    split
    · exact (advance_latches _ _).trans (.of_kept (queue_kept _ _))
    · exact .refl _
  | offer src dst tag tray column => exact ⟨_, rfl, .inl (frame fun t => .of_kept (takeOffer_kept _ _ _ _ t))⟩
  | commit src dst tag price => exact ⟨_, rfl, .inl (frame fun t => .of_kept (takeCommit_kept _ _ _ t))⟩
  | withdraw src dst tag => exact ⟨_, rfl, .inl (frame fun t => .of_kept (queueWithdraw_kept t _ _))⟩
  | accept src dst tag price queuePos => exact ⟨_, rfl, .inl (frame fun t => .of_kept (takeAccept_kept t _ _ _ _))⟩
  | refuse src dst tag reason => exact ⟨_, rfl, .inl (frame fun t => .of_kept (takeRefuse_kept t _ _ _))⟩
  | result src dst tag outcome drops => exact ⟨_, rfl, .inl (frame fun t => .of_kept (takeResult_kept t _ _ _ _))⟩
  | claim src dst cls rank value scale =>
    exact ⟨_, rfl, .inl (takeFrame_latches _ _ _ _ _ (fun t => .of_kept (recordClaim_kept t _ _ _)) .refl)⟩
  | release src dst cls => exact ⟨_, rfl, .inl (frame .refl)⟩
  | declare src dst fields => exact ⟨_, rfl, .inl (.ite ((frame .refl).trans (scheduleDeclare_latches _)) (frame .refl))⟩
  | heartbeat src dst fields => exact ⟨_, rfl, .inl (frame .refl)⟩
  | audit src dst block content => exact ⟨_, rfl, .inl (frame .refl)⟩
  | auditQuery src dst block => exact ⟨_, rfl, .inl (takeQuery_latches _ _ _ _)⟩
  | auditQueryJournal src dst block => exact ⟨_, rfl, .inl (takeQuery_latches _ _ _ _)⟩
  | badFrame bits => exact ⟨_, rfl, .inl (.ite (.of_kept (countBadFrame_kept _)) (.refl _))⟩
  | transmitStart recessive => exact ⟨_, rfl, .inl (.ite (.same rfl rfl) (.refl _))⟩
  | lostContention head => exact ⟨_, rfl, .inl (.ite (.same rfl rfl) (.refl _))⟩
  | transmitError => exact ⟨_, rfl, .inl (.ite (transmitError_latches _) (.refl _))⟩
  | brxDominant held => exact ⟨_, rfl, .inl (ifHeld_latches (lineFault_latches _))⟩
  | frameSent => exact ⟨_, rfl, .inl (.ite (frameSent_latches _) (.refl _))⟩
  | listenTimerExpiry => exact ⟨_, rfl, .inl (expire_latches endListen_latches)⟩
  | silenceTimerExpiry => exact ⟨_, rfl, .inl (expire_latches fun u => enterIsolated_latches u _)⟩
  | heartbeatTimerExpiry => exact ⟨_, rfl, .inl (expire_latches fun u => handed u _ _ _ rfl)⟩
  | probeTimerExpiry => exact ⟨_, rfl, .inl (expire_latches fun u => handed u _ _ _ rfl)⟩
  | declareTimerExpiry => exact ⟨_, rfl, .inl (expire_latches fun u => handed u _ _ _ rfl)⟩
  | declareDelayExpiry => exact ⟨_, rfl, .inl (expire_latches fun u => handed u _ _ _ rfl)⟩
  | peerSilent address =>
    refine ⟨_, rfl, .inl ?_⟩
    dsimp only
    split
    · exact expire_latches fun u => .of_kept (agePeer_kept u _ _ _)
    · exact .refl _
  | peerGone address =>
    refine ⟨_, rfl, .inl ?_⟩
    dsimp only
    split
    · exact expire_latches fun u => (Latches.of_kept (agePeer_kept u _ _ _)).trans (.of_kept (raise_kept _ _))
    · exact .refl _
  | windowTimerExpiry =>
    refine ⟨_, rfl, .inl ?_⟩
    dsimp only
    split
    · refine expire_latches fun u => ?_
      unfold Station.windowEndsNow
      split
      · exact .of_kept (decideWindow_kept _ _)
      · exact .refl _
    · exact .refl _
  | backoffTimerExpiry cls =>
    refine ⟨_, rfl, .inl ?_⟩
    dsimp only
    split
    · exact expire_latches fun u => .of_kept (power_kept u _)
    · exact .refl _
  | starved cls =>
    refine ⟨_, rfl, .inl ?_⟩
    dsimp only
    split
    · exact expire_latches fun u => .of_kept (power_kept u _)
    · exact .refl _
  | coin coinType path => exact ⟨_, rfl, .inl (.ite (.of_kept takeCoin_kept) (.refl _))⟩
  | reject =>
    exact ⟨_, rfl, .inl (.ite ((Latches.of_kept (writeJournal_kept _ _)).trans (.of_kept (restartInactivity_kept _))) (.refl _))⟩
  | fault code => exact ⟨_, rfl, .inl (.ite (.of_kept (coinFault_kept _ _)) (.refl _))⟩
  | status condition => exact ⟨_, rfl, .inl (.ite (takeStatus_latches _ _) (.refl _))⟩
  | statusTimerExpiry => exact ⟨_, rfl, .inl (expire_latches fun _ => .ite (.refl _) (.of_kept (coinFault_kept _ _)))⟩
  | transmitterFree => exact ⟨_, rfl, .inl (.same rfl rfl)⟩
  | tubeSensorChange tube sensor asserted held =>
    exact ⟨_, rfl, .inl (ifHeld_latches (.ite (.of_kept (setTube_kept _ _ _)) (.refl _)))⟩
  | coutEdge held => exact ⟨_, rfl, .inl (ifHeld_latches (.ite (.of_kept (coutEdge_kept _)) (.refl _)))⟩
  | pulseTimerExpiry => exact ⟨_, rfl, .inl (expire_latches fun _ => .of_kept (pulseEnds_kept _))⟩
  | miss => exact ⟨_, rfl, .inl (expire_latches fun _ => .of_kept (missCoin_kept _))⟩
  | pauseTimerExpiry => exact ⟨_, rfl, .inl (expire_latches fun _ => .of_kept (nextCoin_kept _))⟩
  | keyDigit digit =>
    exact ⟨_, rfl, .inl (.ite (key_latches (fun t => ifBufferOpen_latches (.of_kept (bufferDigit_kept t _)))
      fun _ => .same rfl rfl) (.refl _))⟩
  | keyCab =>
    exact ⟨_, rfl, .inl (key_latches
      (fun t => .ite (ifBufferOpen_latches (.of_kept (stepLetter_kept t))) (.refl t)) .refl)⟩
  | keyClr =>
    exact ⟨_, rfl, .inl (key_latches (fun t => ifBufferOpen_latches (.of_kept (clearBuffer_kept t))) fun _ => .same rfl rfl)⟩
  | keyRet =>
    exact ⟨_, rfl, .inl (key_latches (fun t => .ite ((ifBufferOpen_latches (.of_kept (clearBuffer_kept t))).trans
      (.of_kept (returnKey_kept _))) (.refl t)) .refl)⟩
  | keyNext => exact ⟨_, rfl, .inl (key_latches .refl fun _ => .same rfl rfl)⟩
  | keyPrev => exact ⟨_, rfl, .inl (key_latches .refl fun _ => .same rfl rfl)⟩
  | bufferTimeout => exact ⟨_, rfl, .inl (expire_latches fun _ => .of_kept (clearBuffer_kept _))⟩
  | entryTimeout => exact ⟨_, rfl, .inl (expire_latches fun _ => .of_kept (timeOutEntry_kept _))⟩
  | answerTimerExpiry =>
    exact ⟨_, rfl, .inl (expire_latches fun u =>
      (Latches.of_kept (showCustomer_kept u _ _)).trans (.of_kept (toResting_kept _)))⟩
  | resultTimerExpiry =>
    exact ⟨_, rfl, .inl (expire_latches fun u => (Latches.of_kept (withdrawSale_kept u)).trans (.of_kept (giveUpSale_kept _)))⟩
  | inactivityTimeout => exact ⟨_, rfl, .inl (expire_latches fun u => .of_kept (forfeit_kept u))⟩
  | messageTimeEnd => exact ⟨_, rfl, .inl (expire_latches fun _ => .same rfl rfl)⟩
  | displayAlternation => exact ⟨_, rfl, .inl (expire_latches fun _ => .same rfl rfl)⟩
  | lampFlash => exact ⟨_, rfl, .inl (expire_latches fun _ => .same rfl rfl)⟩
  | sensorSample sensor code => exact ⟨_, rfl, .inl (expire_latches fun _ => .of_kept (takeSample_kept _ _ _))⟩
  | minimumOffTimeEnd => exact ⟨_, rfl, .inl (expire_latches fun _ => .of_kept (leaveRest_kept _))⟩
  | inrushEnd =>
    exact ⟨_, rfl, .inl (expire_latches fun u => (Latches.of_kept (setCooling_kept u _)).trans (.of_kept (request_kept _ _ _)))⟩
  | minimumOnTimeEnd => exact ⟨_, rfl, .inl (expire_latches fun _ => .ite (.of_kept (normalStop_kept _)) (.refl _))⟩
  | runHour => exact ⟨_, rfl, .inl (expire_latches fun u => .of_kept (hourRun_kept u))⟩
  | lockoutTimerExpiry => exact ⟨_, rfl, .inl (expire_latches fun _ => .of_kept (enterRest_kept _))⟩
  | dutyTimerExpiry => exact ⟨_, rfl, .inl (expire_latches fun _ => changeDuty_latches _)⟩
  | runTime => exact ⟨_, rfl, .inl (expire_latches fun _ => .of_kept (runTimeMet_kept _))⟩
  | coilIce =>
    exact ⟨_, rfl, .inl (expire_latches fun u => (Latches.of_kept (setCooling_kept u _)).trans (.of_kept (causeMet_kept _ _)))⟩
  | heaterWaitTimerExpiry =>
    exact ⟨_, rfl, .inl (expire_latches fun u =>
      (Latches.of_kept (setCooling_kept u _)).trans (.of_kept (withdrawRequest_kept _ _)))⟩
  | defrostTimerExpiry => exact ⟨_, rfl, .inl (expire_latches fun _ => .of_kept (terminateDefrost_kept _))⟩
  | dripTimerExpiry => exact ⟨_, rfl, .inl (expire_latches fun _ => .of_kept (dripEnds_kept _))⟩
  | coldHold => exact ⟨_, rfl, .inl (expire_latches fun _ => .of_kept (beginColdHold_kept _))⟩
  | ackAttention => exact ⟨_, rfl, submit_latches _ _⟩
  | ackHold => exact ⟨_, rfl, submit_latches _ _⟩
  | fillTube tube count => exact ⟨_, rfl, submit_latches _ _⟩
  | emptyTube tube => exact ⟨_, rfl, submit_latches _ _⟩
  | clearTube tube => exact ⟨_, rfl, submit_latches _ _⟩
  | refill => exact ⟨_, rfl, submit_latches _ _⟩
  | clearSpiral position => exact ⟨_, rfl, submit_latches _ _⟩
  | testVend position => exact ⟨_, rfl, submit_latches _ _⟩
  | manualDefrost => exact ⟨_, rfl, submit_latches _ _⟩
  | clearCompressor => exact ⟨_, rfl, submit_latches _ _⟩
  | forgetPeers => exact ⟨_, rfl, submit_latches _ _⟩
  | restart => exact ⟨_, rfl, restart_latches _⟩
  | showAudit item => exact ⟨_, rfl, submit_latches _ _⟩
  | keyEnt => exact ⟨_, rfl, keyEnt_latches _⟩

/-- What a command does to the station: nothing, or an event whose body keeps a latched clash or begins a start. -/
theorem exec_clash (c : Instr) (s t : State) (h : exec c s = .next t) :
    t.station = s.station ∨ ∃ b, t.station = finish s.station b ∧ LatchesOrStarts s.station b := by
  have cold : (coldStart s).station = finish s.station s.station.coldReset := by
    unfold coldStart
    rfl
  cases hs : special c with
  | false =>
    obtain ⟨b, executed, latches⟩ := exec_latches c hs s
    rw [executed] at h
    cases h
    exact .inr ⟨b, rfl, latches⟩
  | true =>
    cases c with
    | powerOn =>
      cases h
      exact .inr ⟨_, cold, .inr (coldReset_starts _)⟩
    | resetInput =>
      rcases resetInput_cases s with executed | executed <;> rw [executed] at h <;>
        obtain rfl := Host.Outcome.next.inj h
      · exact .inr ⟨_, cold, .inr (coldReset_starts _)⟩
      · exact .inr ⟨_, event_station s _, .inr (warmReset_starts _)⟩
    | loadEvent inp =>
      rcases loadEvent_cases inp s with executed | executed <;> rw [executed] at h <;>
        obtain rfl := Host.Outcome.next.inj h
      · exact .inl rfl
      · exact .inr ⟨_, rfl, .inl (load_latches _ _ _)⟩
    | powerFailWarning =>
      rcases powerFailWarning_cases s with executed | executed | executed <;> rw [executed] at h <;>
        obtain rfl := Host.Outcome.next.inj h
      · exact .inl rfl
      · exact .inr ⟨s.station.halt.countWrite, rfl, .inl ((halt_latches s.station).trans (.same rfl rfl))⟩
      · exact .inr ⟨s.station.halt, event_station s _, .inl (halt_latches s.station)⟩
    | savedBlockWritten complete =>
      rcases savedBlockWritten_cases complete s with executed | ⟨_, _, executed⟩ <;> rw [executed] at h <;>
        obtain rfl := Host.Outcome.next.inj h <;> exact .inl rfl
    | _ => cases hs

/-- What a step does to the station, likewise. -/
theorem step_clash {s t : State} (h : step s = .next t) :
    t.station = s.station ∨ ∃ b, t.station = finish s.station b ∧ LatchesOrStarts s.station b := by
  cases waiting : s.pending with
  | nil =>
    rw [step_idle s waiting] at h
    cases h
    exact .inr ⟨_, event_station s _, .inl (advance_latches _ _)⟩
  | cons c rest => exact exec_clash c (s.withPending rest) t (by rw [← h, step, waiting])

theorem line_eq_of_owned {a b : Line} (owned : a.owned = b.owned) (queue : a.queue = b.queue) : a = b :=
  calc a = { a.owned with queue := a.queue } := rfl
    _ = { b.owned with queue := b.queue } := by rw [owned, queue]
    _ = b := rfl

/-- R177: a start that begins has its line cleared at the end of the event. -/
theorem finish_startBegins (o : Station) {b : Station} (h : StartBegins b) :
    (finish o b).line = Line.blank ∧ (finish o b).start ≠ .none := by
  obtain ⟨line_eq, starts⟩ := h
  have idle : b.active = false := by simp [Station.active, line_eq, Line.blank]
  constructor
  · rw [← line_eq]
    exact line_eq_of_owned (finish_same o b .line) ((finish_admits o b).unsent idle)
  · rw [(finish_same o b .setup).1]
    exact starts

end Commands

/-- Settles O35: the one event of a clash found, and the latched clash over every command. -/
theorem ownAddressFrameIsolates : Obligations.OwnAddressFrameIsolates := by
  refine ⟨fun c s src dst route valid running peer own => ?clash, fun s t stepped latched => ?latch⟩
  case clash =>
    refine ⟨_, exec_ownFrame route valid running peer own, rfl, rfl, rfl, fun sending => ?_, fun silent => ?_⟩
    · rw [if_pos sending]
      exact keepsBut_nothing _ _
    · rw [if_neg (by simp [silent])]
      by_cases clashed : s.station.line.state = .isolated .clash
      · have unchanged : s.station.addressClash = s.station := if_pos clashed
        rw [unchanged]
        exact ⟨(finish_admits _ _).state.trans clashed, finish_same _ _ .peers, fun other => absurd clashed other,
          fun _ => keepsBut_nothing _ _⟩
      · obtain ⟨entered, rest⟩ := finish_addressClash s.station clashed
        have state := entered.1
        obtain ⟨-, -, peers, -⟩ := entered
        exact ⟨state, peers, fun _ => ⟨(finish_addressClash s.station clashed).1, rest⟩, fun same => absurd same clashed⟩
  case latch =>
    rcases step_clash stepped with same | ⟨b, ended, latches | starts⟩
    · rw [same]
      refine .inl ⟨latched, fun built settled => ?_⟩
      obtain ⟨-, -, -, -, -, -, standing⟩ := settled
      rw [standing built, List.mem_filter]
      exact ⟨by decide, latched⟩
    · rw [ended]
      exact .inl ⟨(finish_clashLatched _ b).trans (latches.latched latched), fun built _ =>
        addressClash_standing _ (latches.built built) (latches.latched latched)⟩
    · rw [ended]
      exact .inr (finish_startBegins _ starts)

end Sys2Proof.Proofs

/-! SUPPORT. A valid frame of a peer (R159, R172, R178, R181, R182), for O32: its entry in the peer view, what hearing it does
to the line, and what its block and the end of the event leave of both. -/

namespace Sys2Proof.Proofs

open Sys2Proof.Machine Sys2Proof.Laws

section Blocks

/-! ### The block that a frame is handed to -/

variable {s t u : Station}

/-- A block leaves the line, the peer view and the coin link, and adds to the transmit queue behind what stands in it. -/
structure Handed (s t : Station) : Prop where
  line : Region.kept .line s t
  peers : t.peers = s.peers
  link : Region.kept .coinLink s t
  queue : s.line.queue <+: t.line.queue

theorem Handed.refl (s : Station) : Handed s s := ⟨rfl, rfl, rfl, List.prefix_rfl⟩

theorem Handed.trans (h : Handed s t) (k : Handed t u) : Handed s u :=
  ⟨Region.kept_trans h.line k.line, k.peers.trans h.peers, Region.kept_trans h.link k.link, h.queue.trans k.queue⟩

theorem Handed.of_kept {l : List Region} (h : Kept l s t) (line : Region.line ∉ l := by decide)
    (queue : Region.lineQueue ∉ l := by decide) (peers : Region.peers ∉ l := by decide)
    (link : Region.coinLink ∉ l := by decide) : Handed s t :=
  ⟨h .line line, h .peers peers, h .coinLink link, by rw [line_of_kept (h .line line) (h .lineQueue queue)]⟩

theorem hand_handed (s : Station) (dst : Nat) {body : FrameBody} (plain : body.isHeartbeat = false) :
    Handed s (s.hand dst body) :=
  have kept := hand_kept s dst body
  ⟨kept .line (by decide), kept .peers (by decide), kept .coinLink (by decide), (hand_handsUpTo s dst plain).queue⟩

theorem pick_handed (s : Station) : Handed s s.pick :=
  have kept := pick_kept s
  ⟨kept .line (by decide), kept .peers (by decide), kept .coinLink (by decide), by rw [pick_line]⟩

theorem takeOffer_handed (src tag tray column : Nat) (s : Station) : Handed s (Station.takeOffer src tag tray column s) := by
  have offered : Handed s (s.queueOffer (.peer src) tag tray column).1 := .of_kept (queueOffer_kept s _ _ _ _)
  unfold Station.takeOffer
  split <;> rename_i answered <;> rw [answered] at offered <;> exact offered.trans (hand_handed _ _ rfl)

theorem queueCommit_handed (s : Station) (payer : Payer) (tag price : Nat) : Handed s (s.queueCommit payer tag price).1 := by
  unfold Station.queueCommit
  split
  · exact .refl s
  · split
    · split
      · exact (Handed.of_kept (queue_kept s _)).trans (pick_handed _)
      · exact .of_kept (queue_kept s _)
    · exact .refl s

theorem takeCommit_handed (src tag price : Nat) (s : Station) : Handed s (Station.takeCommit src tag price s) := by
  have committed := queueCommit_handed s (.peer src) tag price
  unfold Station.takeCommit
  split <;> rename_i answered <;> rw [answered] at committed
  · exact committed.trans (hand_handed _ _ rfl)
  · exact committed

theorem declineAccept_handed (s : Station) {o : Offer} {a : Nat} (peer : o.owner = .peer a) (m : Message) (length : Nat) :
    Handed s (s.declineAccept o m length) := by
  have withdrawn (u : Station) : Handed u (u.withdrawFrom o.owner o.tag) := by
    rw [peer]
    exact hand_handed u a rfl
  exact ((Handed.of_kept (showCustomer_kept s m length)).trans (withdrawn _)).trans (.of_kept (toResting_kept _))

theorem bindSale_handed (s : Station) {o : Offer} {a : Nat} (peer : o.owner = .peer a) (price queuePos : Nat) :
    Handed s (s.bindSale o price queuePos) := by
  rw [bindSale_eq, peer]
  exact (Handed.of_kept (txn_kept s _)).trans (hand_handed _ a rfl)

theorem takeAccept_handed (src tag price queuePos : Nat) (s : Station) :
    Handed s (s.takeAccept (.peer src) tag price queuePos) := by
  cases current : s.answersOffer (.peer src) tag with
  | false =>
    rw [takeAccept_of_other current]
    exact hand_handed s src rfl
  | true =>
    obtain ⟨o, offered, peer, rfl⟩ := answersOffer_iff.mp current
    rw [← peer, takeAccept_of_current offered]
    split
    · unfold Station.acceptCurrent
      repeat' split
      · exact declineAccept_handed s peer _ _
      · exact declineAccept_handed s peer _ _
      · exact declineAccept_handed s peer _ _
      · exact bindSale_handed s peer _ _
    · exact .refl s

end Blocks

section View

/-! ### The peer view (R182) -/

theorem findPeer_putPeer_other {a : Nat} {q : Peer} (other : a ≠ q.address) (peers : List Peer) :
    (putPeer q peers).find? (fun p => p.address = a) = peers.find? (fun p => p.address = a) := by
  have missed : ¬q.address = a := fun same => other same.symm
  induction peers with
  | nil => simp [putPeer, missed]
  | cons b rest ih =>
    unfold putPeer
    split
    · simp [missed]
    · split
      · rename_i same
        simp [missed, ← same]
      · simp only [List.find?_cons, ih]

/-- R182: the entry that a frame of a peer refreshes or creates, before its own effect. -/
def refreshed (s : Station) (src : Nat) : Peer :=
  { (s.findPeer src).getD (Peer.fresh src) with presence := .present, age := 0 }

theorem refreshed_address (s : Station) (src : Nat) : (refreshed s src).address = src := by
  unfold refreshed
  cases known : s.findPeer src with
  | none => rfl
  | some p => simpa using List.find?_some known

theorem refreshPeer_peers (s : Station) (src : Nat) (apply : Peer → Peer) :
    (s.refreshPeer src apply).peers = putPeer (apply (refreshed s src)) s.peers := by
  unfold Station.refreshPeer refreshed
  split
  · rename_i p known
    rw [changePeer_peers_eq, known]
    rfl
  · rename_i unknown
    rw [unknown]
    rfl

/-- R158, R182: a request in its window has a part in no change of the view. -/
theorem mem_refreshPeer {s : Station} {r : Request} (inside : r ∈ s.power.requests) (waits : r.phase = .window) (src : Nat)
    (apply : Peer → Peer) : r ∈ (s.refreshPeer src apply).power.requests := by
  have readied : r ∈ readyHeld s.power.requests :=
    List.mem_map.mpr ⟨r, inside, if_neg (by rw [waits]; decide)⟩
  unfold Station.refreshPeer Station.changePeer Station.bankRoomMade
  dsimp only
  split
  · split
    · split
      · exact readied
      · exact inside
    · exact inside
  · exact inside

end View

section Hearing

/-! ### Hearing the line (R172, R178) -/

variable {s : Station}

/-- R178: ISOLATED ends by a peer's frame. -/
def EndsIsolation (s : Station) : Prop := s.line.state = .isolated .silence ∨ s.line.state = .isolated .lineFault

theorem heardPeer_of_isolated (h : EndsIsolation s) :
    s.heardPeer = { s.enterListen with line := { s.enterListen.line with silenceTimer := 0, heard := true } } := by
  rcases h with state | state <;> simp [Station.heardPeer, state]

theorem heardPeer_of_other (h : ¬EndsIsolation s) :
    s.heardPeer = { s with line := { s.line with silenceTimer := 0, heard := true } } := by
  unfold Station.heardPeer
  split
  · exact absurd (.inl ‹_›) h
  · exact absurd (.inr ‹_›) h
  · rfl

/-- The station at the entry to LISTEN, before it speaks. -/
def listening (s : Station) : Station :=
  { s with
    line := { s.line with
      state := .listen, heartbeatTimer := 0, declareTimer := 0, listenTimer := 0, errors := 0, heard := false }
    coin := { s.coin with statusTimer := 0 } }

theorem enterListen_eq (s : Station) : s.enterListen = ((listening s).hand 0 (.declare s.declareFields)).sendMasks := rfl

theorem enterListen_line (s : Station) :
    s.enterListen.line.owned = (listening s).line.owned ∧
      s.enterListen.line.queue = ((listening s).hand 0 (.declare s.declareFields)).line.queue ∧
      s.enterListen.coin.statusTimer = 0 := by
  have line_eq : s.enterListen.line = ((listening s).hand 0 (.declare s.declareFields)).line := (sendMasks_line_audit _).1
  have handed := hand_kept (listening s) 0 (.declare s.declareFields)
  have link : Region.kept .coinLink (listening s) s.enterListen :=
    Region.kept_trans (handed .coinLink (by decide)) (sendMasks_kept _ .coinLink (by decide))
  rw [line_eq]
  exact ⟨handed .line (by decide), rfl, congrArg Prod.fst link⟩

/-- R172, R178: what hearing a peer leaves of the line, its queue and the coin link. -/
theorem heardPeer_isolated (h : EndsIsolation s) :
    s.heardPeer.line.owned = { (listening s).line.owned with silenceTimer := 0, heard := true } ∧
      s.heardPeer.coin.statusTimer = 0 ∧
      (s.line.queue.length < 8 → (⟨0, .declare s.declareFields, false⟩ : Frame) ∈ s.heardPeer.line.queue) := by
  obtain ⟨owned, queue, status⟩ := enterListen_line s
  rw [heardPeer_of_isolated h]
  refine ⟨?_, status, fun room => ?_⟩
  · rw [← owned]
    rfl
  · change _ ∈ s.enterListen.line.queue
    rw [queue]
    exact mem_hand_of_allowed (u := listening s) rfl room

/-- What hearing a frame makes of the view and of the line: the frame's entry written, the line as hearing a peer leaves it,
but for the delay of a DECLARE. -/
structure Hears (s : Station) (entry : Peer) (delay : Option Nat) (w : Station) : Prop where
  line : w.line.owned = { s.heardPeer.line.owned with declareDelay := delay }
  queue : s.heardPeer.line.queue <+: w.line.queue
  status : w.coin.statusTimer = s.heardPeer.coin.statusTimer
  peers : w.peers = putPeer entry s.peers

theorem Hears.handed {entry : Peer} {delay : Option Nat} {w x : Station} (h : Hears s entry delay w) (k : Handed w x) :
    Hears s entry delay x :=
  ⟨k.line.trans h.line, h.queue.trans k.queue, (congrArg Prod.fst k.link).trans h.status, k.peers.trans h.peers⟩

theorem heardPeer_declareDelay (s : Station) : s.heardPeer.line.declareDelay = s.line.declareDelay := by
  by_cases isolated : EndsIsolation s
  · exact (field_of_owned (b := { (listening s).line with silenceTimer := 0, heard := true }) Line.declareDelay (fun _ => rfl)
      (heardPeer_isolated isolated).1)
  · rw [heardPeer_of_other isolated]

/-- R172 steps 1 and 2. -/
theorem heardWith_hears (src : Nat) (apply : Peer → Peer) {x : Station} (windowed : Kept [.power] s x) :
    Hears s (apply (refreshed s src)) s.line.declareDelay (heardWith x src apply) := by
  have peers_eq : x.peers = s.peers := windowed .peers (by decide)
  have refreshed_eq : refreshed x src = refreshed s src := by simp only [refreshed, Station.findPeer, peers_eq]
  have viewed : Kept [.peers, .power, .latch] s ((x.refreshPeer src apply).noticeLetter) :=
    ((windowed.mono (by decide)).trans ((refreshPeer_keeps_queue x src apply).mono (by decide))).trans
      ((noticeLetter_kept _).mono (by decide))
  have heard : Kept [.peers, .power, .latch] s.heardPeer (heardWith x src apply) := heardPeer_of_kept viewed
  have line_eq : (heardWith x src apply).line = s.heardPeer.line :=
    line_of_kept (heard .line (by decide)) (heard .lineQueue (by decide))
  refine ⟨?_, by rw [line_eq], congrArg Prod.fst (heard .coinLink (by decide)), ?_⟩
  · rw [line_eq, ← heardPeer_declareDelay s]
    rfl
  · rw [← peers_eq, ← refreshed_eq, ← refreshPeer_peers]
    exact (heardPeer_kept _ .peers (by decide)).trans (noticeLetter_kept _ .peers (by decide))

/-- R170, R172: a valid frame of a peer, whatever its block does. -/
theorem takeFrame_hears (running : s.running = true) {src : Nat} (other : src ≠ s.cfg.address) (dst : Nat)
    (apply : Peer → Peer) {windowed handoff : Station → Station} (hw : Kept [.power] s (windowed s))
    (hh : ∀ t, Handed t (handoff t)) :
    Hears s (apply (refreshed s src)) s.line.declareDelay (s.takeFrame true src dst apply windowed handoff) := by
  have heard := heardWith_hears src apply hw
  unfold Station.takeFrame
  simp only [running, other, Bool.not_true, Bool.false_eq_true, if_false]
  split
  · exact heard.handed (hh _)
  · exact heard

theorem takeQuery_hears (running : s.running = true) {src dst block : Nat} (valid : auditQueryOk src dst block = true)
    (peer : src ≠ 0) (other : src ≠ s.cfg.address) :
    Hears s (refreshed s src) s.line.declareDelay (s.takeQuery src dst block) := by
  have heard := heardWith_hears (s := s) src id (.refl _ s)
  unfold Station.takeQuery
  simp only [running, valid, peer, other, Bool.not_true, Bool.false_eq_true, if_false]
  split
  · exact heard.handed (hand_handed _ _ rfl)
  · exact heard

/-- R181 case 3: the delay of a DECLARE set up. -/
theorem scheduleDeclare_eq (s : Station) : s.scheduleDeclare = { s with line := { s.line with
    declareDelay := if s.line.state.beats then some (s.line.declareDelay.getD 0) else s.line.declareDelay } } := by
  unfold Station.scheduleDeclare
  cases beats : s.line.state.beats with
  | false => simp
  | true =>
    cases waits : s.line.declareDelay with
    | none => simp
    | some d =>
      simp only [reduceCtorEq, decide_false, Bool.and_false, Bool.false_eq_true, if_false, if_true, Option.getD_some]
      rw [← waits]

theorem Hears.scheduled {entry : Peer} {delay : Option Nat} {w : Station} (h : Hears s entry delay w) :
    Hears s entry (if w.line.state.beats then some (delay.getD 0) else delay) w.scheduleDeclare := by
  have delay_eq : w.line.declareDelay = delay :=
    field_of_owned (b := { s.heardPeer.line with declareDelay := delay }) Line.declareDelay (fun _ => rfl) h.line
  rw [scheduleDeclare_eq, delay_eq]
  refine ⟨?_, h.queue, h.status, h.peers⟩
  calc _ = { w.line.owned with declareDelay := if w.line.state.beats then some (delay.getD 0) else delay } := rfl
    _ = _ := by rw [h.line]

end Hearing

section Given

/-! ### What the event gives -/

variable {s w t : Station} {entry : Peer} {delay : Option Nat}

/-- R172, R178, R181, R182: what every valid frame of a peer gives. -/
structure PeerHeard (s : Station) (src : Nat) (entry : Peer) (delay : Option Nat) (t : Station) : Prop where
  silence : t.line.silenceTimer = 0 ∧ t.line.heard = true
  listens : s.line.state = .isolated .silence ∨ s.line.state = .isolated .lineFault →
    t.line.state = .listen ∧ t.line.heartbeatTimer = 0 ∧ t.line.declareTimer = 0 ∧ t.line.listenTimer = 0 ∧
      t.line.errors = 0 ∧ t.coin.statusTimer = 0 ∧ Queued s t 0 (.declare s.declareFields)
  stays : s.line.state ≠ .isolated .silence → s.line.state ≠ .isolated .lineFault → t.line.state = s.line.state
  delayed : t.line.declareDelay = delay
  others : ∀ a, a ≠ src → t.findPeer a = s.findPeer a
  found : t.findPeer src = some entry

/-- The end of the event keeps what the frame has made of the line and of the view. -/
theorem finish_peerHeard (o : Station) {src : Nat} (address : entry.address = src) (h : Hears s entry delay w) :
    PeerHeard s src entry delay (finish o w) := by
  subst address
  have peers : (finish o w).peers = putPeer entry s.peers := (finish_same o w .peers).trans h.peers
  have heard {α : Type} (field : Line → α) (owns : ∀ l : Line, field l.owned = field l) :
      field (finish o w).line = field { s.heardPeer.line with declareDelay := delay } :=
    (finish_line field o w owns).trans (field_of_owned field owns h.line)
  constructor
  case silence =>
    have silence : s.heardPeer.line.silenceTimer = 0 ∧ s.heardPeer.line.heard = true := ⟨rfl, rfl⟩
    exact ⟨(heard Line.silenceTimer fun _ => rfl).trans silence.1, (heard Line.heard fun _ => rfl).trans silence.2⟩
  case listens =>
    intro isolated
    obtain ⟨owned, status, sent⟩ := heardPeer_isolated isolated
    have entered {α : Type} (field : Line → α) (owns : ∀ l : Line, field l.owned = field l)
        (blind : field { s.heardPeer.line with declareDelay := delay } = field s.heardPeer.line) :
        field (finish o w).line = field { (listening s).line with silenceTimer := 0, heard := true } :=
      ((heard field owns).trans blind).trans (field_of_owned field owns owned)
    exact ⟨entered Line.state (fun _ => rfl) rfl, entered Line.heartbeatTimer (fun _ => rfl) rfl,
      entered Line.declareTimer (fun _ => rfl) rfl, entered Line.listenTimer (fun _ => rfl) rfl,
      entered Line.errors (fun _ => rfl) rfl, (finish_same o w .coinLink).1.trans (h.status.trans status),
      fun room => mem_lineQueue_finish o (h.queue.subset (sent room))⟩
  case stays =>
    intro unsilenced faultless
    have state : s.heardPeer.line.state = s.line.state := by
      rw [heardPeer_of_other (fun isolated => isolated.elim unsilenced faultless)]
    exact (heard Line.state fun _ => rfl).trans state
  case delayed => exact heard Line.declareDelay fun _ => rfl
  case others =>
    intro a other
    rw [Station.findPeer, peers]
    exact findPeer_putPeer_other other s.peers
  case found =>
    rw [Station.findPeer, peers]
    exact findPeer_putPeer s.peers entry

/-- What a frame command gives that is no DECLARE. -/
theorem gives_undeclared {c : Instr} {s : State} {src dst : Nat} {Q : Station → Prop} (body : Station → Station)
    (executed : exec c s = .next (event s body)) (heard : Hears s.station entry s.station.line.declareDelay (body s.station))
    (address : entry.address = src) (undeclared : ∀ fields, c ≠ .declare src dst fields)
    (wrote : (finish s.station (body s.station)).findPeer src = some entry → Q (finish s.station (body s.station))) :
    Gives c s fun t =>
      (t.line.silenceTimer = 0 ∧ t.line.heard = true) ∧
      (s.station.line.state = .isolated .silence ∨ s.station.line.state = .isolated .lineFault →
        t.line.state = .listen ∧ t.line.heartbeatTimer = 0 ∧ t.line.declareTimer = 0 ∧ t.line.listenTimer = 0 ∧
        t.line.errors = 0 ∧ t.coin.statusTimer = 0 ∧ Queued s.station t 0 (.declare s.station.declareFields)) ∧
      (s.station.line.state ≠ .isolated .silence → s.station.line.state ≠ .isolated .lineFault →
        t.line.state = s.station.line.state) ∧
      (∀ fields, c = .declare src dst fields → s.station.answersDeclare src = true →
        s.station.line.state ≠ .isolated .clash → t.line.declareDelay = some (s.station.line.declareDelay.getD 0)) ∧
      ((∀ fields, c ≠ .declare src dst fields) ∨ s.station.answersDeclare src = false →
        t.line.declareDelay = s.station.line.declareDelay) ∧
      (∀ a, a ≠ src → t.findPeer a = s.station.findPeer a) ∧ Q t := by
  obtain ⟨silence, listens, stays, delayed, others, found⟩ := finish_peerHeard s.station address heard
  exact gives_of_event body executed ⟨silence, listens, stays, fun fields is_declare => absurd is_declare (undeclared fields),
    fun _ => delayed, others, wrote found⟩

end Given

section Entries

/-! ### What each kind writes (R159, R182) -/

variable {s w : Station} {p : Peer}

/-- R182: CLAIM and RELEASE set the slot of their class. -/
theorem applySlot_eq {cls : Nat} (known : cls ≤ 2) (value : Nat) (p : Peer) : applySlot cls value p = { p with
    vendMotor := if cls = 0 then value else p.vendMotor
    compressor := if cls = 1 then value else p.compressor
    heater := if cls = 2 then value else p.heater } := by
  have classes : cls = 0 ∨ cls = 1 ∨ cls = 2 := by omega
  rcases classes with rfl | rfl | rfl <;> rfl

/-- R182: accepting offers is bit 3 of the flags. -/
theorem applyHeartbeat_eq (f : HeartbeatFields) (p : Peer) : applyHeartbeat f p = { p with
    base := watts f.base, vendMotor := watts f.vendMotor, compressor := watts f.compressor,
    heater := watts f.heater, accepting := f.flags.testBit 3, lineState := some f.lineState } := by
  rw [applyHeartbeat, Nat.testBit_eq_decide_div_mod_eq]

/-- R159: the record of a CLAIM heard in the window of a request. -/
theorem mem_recordClaim {src cls rank : Nat} {k : LoadClass} (known : classOf cls = some k) {r : Request}
    (inside : r ∈ s.power.requests) (waits : r.phase = .window) :
    { r with record := addRecord r.record ⟨src, k, rank, ((s.findPeer src).map fun q => q.slot k).getD 0⟩ } ∈
      (s.recordClaim src cls rank).power.requests := by
  unfold Station.recordClaim
  rw [known]
  cases s.findPeer src <;> exact List.mem_map.mpr ⟨r, inside, if_pos waits⟩

/-- R159: while ACTIVE, the CLAIM of a peer stands in the record at the end of its event. -/
theorem finish_claimRecorded (o : Station) (active : s.active = true) {src cls rank : Nat} {k : LoadClass}
    (known : classOf cls = some k) (apply : Peer → Peer) {r : Request} (inside : r ∈ s.power.requests)
    (waits : r.phase = .window) :
    { r with record := addRecord r.record ⟨src, k, rank, ((s.findPeer src).map fun q => q.slot k).getD 0⟩ } ∈
      (finish o (heardWith (s.recordClaim src cls rank) src apply)).power.requests := by
  have recorded := mem_refreshPeer (mem_recordClaim (src := src) (rank := rank) known inside waits) waits src apply
  have viewed : Kept [.peers, .power, .latch] s ((s.recordClaim src cls rank).refreshPeer src apply).noticeLetter :=
    (((recordClaim_kept s src cls rank).mono (by decide)).trans ((refreshPeer_keeps_queue _ src apply).mono (by decide))).trans
      ((noticeLetter_kept _).mono (by decide))
  have power_eq : ((s.recordClaim src cls rank).refreshPeer src apply).noticeLetter.power =
      ((s.recordClaim src cls rank).refreshPeer src apply).power := noticeLetter_kept _ .power (by decide)
  have active_viewed := (active_of_state (state_of_kept viewed (by decide))).trans active
  have heard := heardPeer_of_active active_viewed
  have listed : { r with record := addRecord r.record ⟨src, k, rank, ((s.findPeer src).map fun q => q.slot k).getD 0⟩ } ∈
      (heardWith (s.recordClaim src cls rank) src apply).power.requests := by
    rw [heardWith, heard]
    change _ ∈ ((s.recordClaim src cls rank).refreshPeer src apply).noticeLetter.power.requests
    rwa [power_eq]
  have still_active : (heardWith (s.recordClaim src cls rank) src apply).active = true := by
    rw [heardWith, heard]
    exact active_viewed
  rwa [finish_same o _ .power (loadsSettled_of_window still_active listed waits)]

end Entries

section Commands

/-! ### The commands -/

variable {s : Station}

/-- R172: a valid CLAIM, whose block does nothing. -/
theorem takeFrame_windowed (running : s.running = true) {src : Nat} (other : src ≠ s.cfg.address) (dst : Nat)
    (apply : Peer → Peer) (windowed : Station → Station) :
    s.takeFrame true src dst apply windowed id = heardWith (windowed s) src apply := by
  unfold Station.takeFrame
  simp only [running, other, Bool.not_true, Bool.false_eq_true, if_false]
  split <;> rfl

/-- R178, R181: no line state that hears a peer leaves a DECLARE unsent but the clash. -/
theorem heardPeer_beats (running : s.running = true) (unclashed : s.line.state ≠ .isolated .clash) :
    s.heardPeer.line.state.beats = true := by
  by_cases isolated : EndsIsolation s
  · have listens := field_of_owned (b := { (listening s).line with silenceTimer := 0, heard := true }) Line.state (fun _ => rfl)
      (heardPeer_isolated isolated).1
    rw [listens]
    rfl
  · have state : s.heardPeer.line.state = s.line.state := by rw [heardPeer_of_other isolated]
    rw [state]
    unfold Station.running at running
    cases h : s.line.state with
    | isolated cause => cases cause <;> simp_all [EndsIsolation]
    | _ => simp_all [LineState.running, LineState.beats]

theorem Hears.beats {entry : Peer} {delay : Option Nat} {w : Station} (h : Hears s entry delay w) (running : s.running = true)
    (unclashed : s.line.state ≠ .isolated .clash) : w.line.state.beats = true := by
  have state : w.line.state = s.heardPeer.line.state :=
    field_of_owned (b := { s.heardPeer.line with declareDelay := delay }) Line.state (fun _ => rfl) h.line
  rw [state]
  exact heardPeer_beats running unclashed

/-- R181 case 3: whether a valid DECLARE of a peer is answered. -/
theorem declareAnswered_eq (running : s.running = true) {src : Nat} (other : src ≠ s.cfg.address) :
    s.declareAnswered true src = s.answersDeclare src := by simp [Station.declareAnswered, running, other]

variable {m : State} {src dst : Nat} {fields : DeclareFields}

theorem exec_declare_answered (ok : declareOk src dst fields = true) (running : m.station.running = true)
    (other : src ≠ m.station.cfg.address) (answers : m.station.answersDeclare src = true) :
    exec (.declare src dst fields) m = .next { m with
      station := finish m.station (m.station.takeFrame true src dst (applyDeclare fields) id id).scheduleDeclare } := by
  simp only [exec, execDeclare, happen, event, ok, declareAnswered_eq running other, if_pos answers]

theorem exec_declare_unanswered (ok : declareOk src dst fields = true) (running : m.station.running = true)
    (other : src ≠ m.station.cfg.address) (silent : ¬m.station.answersDeclare src = true) :
    exec (.declare src dst fields) m = .next { m with
      station := finish m.station (m.station.takeFrame true src dst (applyDeclare fields) id id) } := by
  simp only [exec, execDeclare, happen, event, ok, declareAnswered_eq running other, if_neg silent]

end Commands

/-- Settles O32: the thirteen kinds differ in the entry that they write, and a DECLARE in the delay that it sets up. -/
theorem framesWriteThePeerView : Obligations.FramesWriteThePeerView := by
  intro c s src dst p route valid running peer other p_eq
  have entry_eq : refreshed s.station src = p := p_eq.symm
  have address : p.address = src := by rw [← entry_eq, refreshed_address]
  have taken (apply : Peer → Peer) {ok : Bool} (ok_eq : ok = true) {handoff : Station → Station}
      (hh : ∀ t, Handed t (handoff t)) : Hears s.station (apply p) s.station.line.declareDelay
        (s.station.takeFrame ok src dst apply id handoff) := by
    rw [ok_eq, ← entry_eq]
    exact takeFrame_hears running other dst apply (.refl _ _) hh
  have asked {block : Nat} (ok : auditQueryOk src dst block = true) :
      Hears s.station p s.station.line.declareDelay (s.station.takeQuery src dst block) := by
    rw [← entry_eq]
    exact takeQuery_hears running ok peer other
  cases c with
  | offer a b tag tray column =>
    cases route
    exact gives_undeclared _ rfl (taken id valid (takeOffer_handed _ _ _ _)) address nofun id
  | commit a b tag price =>
    cases route
    exact gives_undeclared _ rfl (taken id valid (takeCommit_handed _ _ _)) address nofun id
  | withdraw a b tag =>
    cases route
    exact gives_undeclared _ rfl (taken id valid fun t => .of_kept (queueWithdraw_kept t _ _)) address nofun id
  | accept a b tag price queuePos =>
    cases route
    exact gives_undeclared _ rfl (taken id valid (takeAccept_handed _ _ _ _)) address nofun id
  | refuse a b tag reason =>
    cases route
    exact gives_undeclared _ rfl (taken id valid fun t => .of_kept (takeRefuse_kept t _ _ _)) address nofun id
  | result a b tag outcome drops =>
    cases route
    exact gives_undeclared _ rfl (taken id valid fun t => .of_kept (takeResult_kept t _ _ _ _)) address nofun id
  | audit a b block content =>
    cases route
    exact gives_undeclared _ rfl (taken id valid .refl) address nofun id
  | auditQuery a b block =>
    cases route
    exact gives_undeclared _ rfl (asked valid) address nofun id
  | auditQueryJournal a b block =>
    cases route
    exact gives_undeclared _ rfl (asked valid) address nofun id
  | release a b cls =>
    cases route
    have ok : releaseOk src dst cls = true := valid
    have known : cls ≤ 2 := by
      simp only [releaseOk, Bool.and_eq_true, decide_eq_true_eq] at ok
      exact ok.2
    refine gives_undeclared _ rfl (taken (applySlot cls 0) valid .refl) ((applySlot_address _ _ p).trans address) nofun
      fun found => ?_
    rwa [applySlot_eq known] at found
  | heartbeat a b fields =>
    cases route
    refine gives_undeclared _ rfl (taken (applyHeartbeat fields) valid .refl) address nofun fun found => ?_
    rwa [applyHeartbeat_eq] at found
  | claim a b cls rank value scale =>
    cases route
    have ok : claimOk src dst cls rank value scale = true := valid
    have known : cls ≤ 2 := by
      simp only [claimOk, Bool.and_eq_true, decide_eq_true_eq] at ok
      obtain ⟨⟨⟨-, known⟩, -⟩, -⟩ := ok
      exact known
    have body_eq : s.station.takeFrame (claimOk src dst cls rank value scale) src dst (applySlot cls (watts ⟨value, scale⟩))
        (fun t => t.recordClaim src cls rank) id =
          heardWith (s.station.recordClaim src cls rank) src (applySlot cls (watts ⟨value, scale⟩)) := by
      rw [ok]
      exact takeFrame_windowed running other dst _ _
    have heard := heardWith_hears src (applySlot cls (watts ⟨value, scale⟩)) (recordClaim_kept s.station src cls rank)
    rw [entry_eq, ← body_eq] at heard
    refine gives_undeclared _ rfl heard ((applySlot_address _ _ p).trans address) nofun fun found => ⟨?_, ?_⟩
    · rw [applySlot_eq known] at found
      exact ⟨_, found, rfl, rfl, rfl, rfl⟩
    · intro k class_eq active r inside waits
      rw [body_eq]
      exact finish_claimRecorded _ active class_eq _ inside waits
  | declare a b fields =>
    cases route
    have ok : declareOk src dst fields = true := valid
    have heard := taken (applyDeclare fields) ok (handoff := id) .refl
    have written : (applyDeclare fields p).address = src := address
    rw [ok] at heard
    by_cases answers : s.station.answersDeclare src = true
    · obtain ⟨silence, listens, stays, delayed, others, found⟩ := finish_peerHeard s.station written heard.scheduled
      refine ⟨_, exec_declare_answered ok running other answers, rfl, rfl, rfl, silence, listens, stays,
        fun _ _ _ unclashed => ?_, fun quiet => ?_, others, found⟩
      · rw [if_pos (heard.beats running unclashed)] at delayed
        exact delayed
      · rcases quiet with undeclared | unanswered
        · exact absurd rfl (undeclared fields)
        · rw [answers] at unanswered
          cases unanswered
    · obtain ⟨silence, listens, stays, delayed, others, found⟩ := finish_peerHeard s.station written heard
      exact ⟨_, exec_declare_unanswered ok running other answers, rfl, rfl, rfl, silence, listens, stays,
        fun _ _ answered => absurd answered answers, fun _ => delayed, others, found⟩
  | _ => cases route

end Sys2Proof.Proofs
